-- ==== Sys2Proof/Word.lean ====
section
/-! DEFINITION. The word types of the hardware and the plain operand types of a move: guards, sources,
destinations and type fields (spec/02_bundles.md R28 to R32, spec/03_portmap.md R54 to R58). Types only, and
their plainest readings. -/

namespace Sys2Proof

/-- A byte of memory. -/
abbrev Byte := BitVec 8

/-- A 64-bit register, latch or address (R12). -/
abbrev Word := BitVec 64

/-- A 1024-bit vector register or vector latch (R12). -/
abbrev Vec := BitVec 1024

/-- The GUARD field of a move (R28): always, ps0 to ps7, c0 to c3, or not c0 to not c2. -/
inductive Guard where
  | always
  | ps (i : Fin 8)
  | c  (i : Fin 4)
  | nc (i : Fin 3)
  deriving DecidableEq, Repr

/-- The source of a move (R29). A long immediate carries the value its words form (R30): 24, 48 or 64 bits. -/
inductive Src where
  | s (i : Fin 64)
  | v (i : Fin 32)
  | pop (i : Fin 8)
  | m (i : Fin 8)
  | c (i : Fin 4)
  | psw
  | latR (u : Fin 15)
  | latQ (u : Fin 15)
  | rnd
  | l0 (x : BitVec 24)
  | l1 (x : BitVec 48)
  | l2 (x : BitVec 64)
  | imm (x : BitVec 9)
  deriving DecidableEq, Repr

/-- The destination of a move (R31): a register, an operand latch `.o1` to `.o3` of a unit, or the trigger code
`t` of the unit of the bus that carries the move. -/
inductive Dst where
  | s (i : Fin 64)
  | v (i : Fin 32)
  | m (i : Fin 8)
  | c (i : Fin 4)
  | latch (u : Fin 15) (j : Fin 3)
  | trig (t : Fin 768)
  deriving DecidableEq, Repr

/-- One move on one bus (R28). -/
structure Move where
  bus   : Fin 16
  guard : Guard
  src   : Src
  dst   : Dst
  deriving DecidableEq, Repr

/-- The type field `ty` of a class V code (R55), with the value 7 left out, which is reserved for every operation. -/
inductive VTy where
  | f32 | bf16 | f16 | i32 | i16 | n32 | n16
  deriving DecidableEq, Repr

/-- The type field of a class X code (R56). -/
inductive XTy where
  | f32 | bf16 | f16
  deriving DecidableEq, Repr

/-- The rounding field `rm` of a floating class P code (R58): nearest, toward zero, stochastic, nearest with
saturation. -/
inductive PRm where
  | rne | rtz | sr | rnes
  deriving DecidableEq, Repr

/-- A context of the device: a core by its device core number (R8) and a context index. Numbers 0 to 4095 are the
stream cores; 4096 + c is the supervisor core (CSC) of cluster c (R9). -/
structure Cid where
  core : Fin 4112
  ctx  : Fin 4
  deriving DecidableEq, Repr

/-- One page of the host's translation tables for the launch, as an ATS reply gives it (R334, R27): the virtual page
base, the base-2 logarithm of its size (12 to 30), the translated address, read and write permission, and execute
permission where the host reports it. -/
structure Page where
  va  : Nat
  lg  : Nat
  pa  : Nat
  rd  : Bool
  wr  : Bool
  ex  : Option Bool
  deriving DecidableEq, Repr

/-- The host's answer to a page request (R336). -/
inductive PriCode where
  | success | invalid | failure
  deriving DecidableEq, Repr

/-- A host access through the memory BAR at offset `p` (R365). -/
inductive HostAcc where
  | rd (p n : Nat)
  | wr (p : Nat) (data : List Byte)
  deriving DecidableEq, Repr

/-- What a frame asks of the device at its far end (R373): to write its data, to read `n` bytes, or an atomic on a sector with
the control word of R257, whose operand its data are. -/
inductive FrameReq where
  | write
  | read (n : Nat)
  | atomic (ctl : Word)
  deriving DecidableEq, Repr

/-- A link frame as a port receives it (R372, R343): whether its CRC passes, its sequence number, its frame counter,
its tag, and the access it carries, of 1 to 8 beats of 32 bytes. -/
structure Frame where
  crcOk : Bool
  seq   : Nat
  ctr   : Nat
  tag   : BitVec 128
  req   : FrameReq
  addr  : Nat
  data  : List Byte
  deriving DecidableEq, Repr

/-- Which part acts in a step that is no bundle, and what the outside world gives it (spec/95_what_each_step_holds.md):
a context (or its core), a cluster, an engine or slice, a port, a group, a stream register, a line of a page, a fault
class; a number (a place in a context's trigger order, a command, an address, an offset), a second number, a word, a
choice; bytes, a page, an answer, a frame or a host access; whether the sectors that the step writes perform later, and
which sector of those still to perform, or which part, is meant (R240, log entry 9). Each step's meaning reads the fields it names. -/
structure Act where
  cid   : Cid := ⟨0, 0⟩
  clu   : Fin 16 := 0
  eng   : Fin 128 := 0
  port  : Fin 48 := 0
  grp   : Fin 256 := 0
  strm  : Fin 8 := 0
  line  : Fin 32 := 0
  cls   : Fin 11 := 0
  num   : Nat := 0
  hi    : Nat := 0
  word  : Word := 0
  flag  : Bool := false
  bytes : List Byte := []
  page  : Option Page := none
  code  : PriCode := .success
  frame : Option Frame := none
  acc   : Option HostAcc := none
  later : Bool := false
  pick  : Option Nat := none
  deriving DecidableEq, Repr

/-- Why bytes are no legal bundle: the rows of R38's table, and `short` for a list of bytes that ends inside a
bundle. -/
inductive Illegal where
  | header | mask | bank | src | dst | trigger | longWord | limit | sameDst | short
  deriving DecidableEq, Repr

end Sys2Proof
end

