-- ==== Sys2Proof/Syntax.lean ====
section
/-! DEFINITION. The instructions of the hardware: one constructor per row of spec/opcode_table.json.
The trigger codes of spec/03_portmap.md come first: such a constructor stands for the bundle
whose one move carries that trigger, with its guard `g`, its source `src` and the suffix fields of R42. For the classes
S and V, `u` tells SA0 from SA1 and VA0 from VA1 (R11). Every other bundle is `bundleIssue` with its moves. The other rows are the
steps that the device's parts and its host take (spec/95_what_each_step_holds.md); which part acts stands in the state
(`State.act`), as the length of the bundle that issues does. -/

namespace Sys2Proof

/-- An instruction: a bundle with one trigger move, any other bundle, or a step of another part of the device. -/
inductive Instr where
  /-- SAn.ADD (R67): Scalar add. -/
  | add (u : Fin 2) (g : Guard) (src : Src) (w : Bool)
  /-- SAn.SUB (R67): Scalar subtract o1 − b. -/
  | sub (u : Fin 2) (g : Guard) (src : Src) (w : Bool)
  /-- SAn.MUL (R67): Scalar multiply, low bits. -/
  | mul (u : Fin 2) (g : Guard) (src : Src) (w : Bool)
  /-- SAn.MULH (R67): High bits of the signed product. -/
  | mulh (u : Fin 2) (g : Guard) (src : Src) (w : Bool)
  /-- SAn.MULHU (R67): High bits of the unsigned product. -/
  | mulhu (u : Fin 2) (g : Guard) (src : Src) (w : Bool)
  /-- SAn.DIV (R68): Signed division, quotient to .r and remainder to .q. -/
  | div (u : Fin 2) (g : Guard) (src : Src) (w : Bool)
  /-- SAn.DIVU (R68): Unsigned division, quotient to .r and remainder to .q. -/
  | divu (u : Fin 2) (g : Guard) (src : Src) (w : Bool)
  /-- SAn.REM (R68): Signed remainder to .r, quotient to .q. -/
  | rem (u : Fin 2) (g : Guard) (src : Src) (w : Bool)
  /-- SAn.REMU (R68): Unsigned remainder to .r, quotient to .q. -/
  | remu (u : Fin 2) (g : Guard) (src : Src) (w : Bool)
  /-- SAn.AND (R67): Bitwise AND. -/
  | and (u : Fin 2) (g : Guard) (src : Src) (w : Bool)
  /-- SAn.OR (R67): Bitwise OR. -/
  | or (u : Fin 2) (g : Guard) (src : Src) (w : Bool)
  /-- SAn.XOR (R67): Bitwise XOR. -/
  | xor (u : Fin 2) (g : Guard) (src : Src) (w : Bool)
  /-- SAn.ANDN (R67): A AND NOT B. -/
  | andn (u : Fin 2) (g : Guard) (src : Src) (w : Bool)
  /-- SAn.SHL (R67): Shift left. -/
  | shl (u : Fin 2) (g : Guard) (src : Src) (w : Bool)
  /-- SAn.SHR (R67): Logical shift right. -/
  | shr (u : Fin 2) (g : Guard) (src : Src) (w : Bool)
  /-- SAn.SAR (R67): Arithmetic shift right. -/
  | sar (u : Fin 2) (g : Guard) (src : Src) (w : Bool)
  /-- SAn.ROL (R67): Rotate left. -/
  | rol (u : Fin 2) (g : Guard) (src : Src) (w : Bool)
  /-- SAn.CLZ (R67): Count leading zeros of b. -/
  | clz (u : Fin 2) (g : Guard) (src : Src) (w : Bool)
  /-- SAn.CTZ (R67): Count trailing zeros of b. -/
  | ctz (u : Fin 2) (g : Guard) (src : Src) (w : Bool)
  /-- SAn.POPC (R67): Count one bits of b. -/
  | popc (u : Fin 2) (g : Guard) (src : Src) (w : Bool)
  /-- SAn.MIN (R67): Signed minimum. -/
  | min (u : Fin 2) (g : Guard) (src : Src) (w : Bool)
  /-- SAn.MAX (R67): Signed maximum. -/
  | max (u : Fin 2) (g : Guard) (src : Src) (w : Bool)
  /-- SAn.MINU (R67): Unsigned minimum. -/
  | minu (u : Fin 2) (g : Guard) (src : Src) (w : Bool)
  /-- SAn.MAXU (R67): Unsigned maximum. -/
  | maxu (u : Fin 2) (g : Guard) (src : Src) (w : Bool)
  /-- SAn.CMPEQ (R67): 1 if equal. -/
  | cmpeq (u : Fin 2) (g : Guard) (src : Src) (w : Bool)
  /-- SAn.CMPNE (R67): 1 if not equal. -/
  | cmpne (u : Fin 2) (g : Guard) (src : Src) (w : Bool)
  /-- SAn.CMPLT (R67): 1 if signed less. -/
  | cmplt (u : Fin 2) (g : Guard) (src : Src) (w : Bool)
  /-- SAn.CMPLTU (R67): 1 if unsigned less. -/
  | cmpltu (u : Fin 2) (g : Guard) (src : Src) (w : Bool)
  /-- SAn.CMPLE (R67): 1 if signed less or equal. -/
  | cmple (u : Fin 2) (g : Guard) (src : Src) (w : Bool)
  /-- SAn.CMPLEU (R67): 1 if unsigned less or equal. -/
  | cmpleu (u : Fin 2) (g : Guard) (src : Src) (w : Bool)
  /-- SAn.SEL (R67): b if o1 non-zero, else o2. -/
  | sel (u : Fin 2) (g : Guard) (src : Src)
  /-- SAn.EXTB (R67): Extract a bit field. -/
  | extb (u : Fin 2) (g : Guard) (src : Src) (w : Bool)
  /-- SAn.INSB (R67): Insert a bit field from o2. -/
  | insb (u : Fin 2) (g : Guard) (src : Src) (w : Bool)
  /-- SAn.SEXT (R67): Sign-extend b from width o1. -/
  | sext (u : Fin 2) (g : Guard) (src : Src)
  /-- SAn.ZEXT (R67): Zero-extend b from width o1. -/
  | zext (u : Fin 2) (g : Guard) (src : Src)
  /-- SAn.MOV (R67): Copy b. -/
  | mov (u : Fin 2) (g : Guard) (src : Src) (w : Bool)
  /-- SAn.LEA (R67): o1 + b × 2^o2. -/
  | lea (u : Fin 2) (g : Guard) (src : Src)
  /-- SAn.BSWAP (R67): Reverse bytes of b. -/
  | bswap (u : Fin 2) (g : Guard) (src : Src) (w : Bool)
  /-- VAn.VADD (R131): Lane-wise add. -/
  | vadd (u : Fin 2) (g : Guard) (src : Src) (ty : VTy)
  /-- VAn.VSUB (R131): Lane-wise subtract. -/
  | vsub (u : Fin 2) (g : Guard) (src : Src) (ty : VTy)
  /-- VAn.VMUL (R131): Lane-wise multiply. -/
  | vmul (u : Fin 2) (g : Guard) (src : Src) (ty : VTy)
  /-- VAn.VFMA (R131): Fused o1 × b + o2. -/
  | vfma (u : Fin 2) (g : Guard) (src : Src) (ty : VTy)
  /-- VAn.VFMS (R131): Fused o1 × b − o2. -/
  | vfms (u : Fin 2) (g : Guard) (src : Src) (ty : VTy)
  /-- VAn.VNFMA (R131): Fused −(o1 × b) + o2. -/
  | vnfma (u : Fin 2) (g : Guard) (src : Src) (ty : VTy)
  /-- VAn.VMIN (R131): Lane-wise minimum. -/
  | vmin (u : Fin 2) (g : Guard) (src : Src) (ty : VTy)
  /-- VAn.VMAX (R131): Lane-wise maximum. -/
  | vmax (u : Fin 2) (g : Guard) (src : Src) (ty : VTy)
  /-- VAn.VABS (R131): Lane-wise absolute value of b. -/
  | vabs (u : Fin 2) (g : Guard) (src : Src) (ty : VTy)
  /-- VAn.VNEG (R131): Lane-wise negation of b. -/
  | vneg (u : Fin 2) (g : Guard) (src : Src) (ty : VTy)
  /-- VAn.VCMPEQ (R132): Lane-wise equality compare to .r and .q. -/
  | vcmpeq (u : Fin 2) (g : Guard) (src : Src) (ty : VTy)
  /-- VAn.VCMPLT (R132): Lane-wise less-than compare. -/
  | vcmplt (u : Fin 2) (g : Guard) (src : Src) (ty : VTy)
  /-- VAn.VCMPLE (R132): Lane-wise less-or-equal compare. -/
  | vcmple (u : Fin 2) (g : Guard) (src : Src) (ty : VTy)
  /-- VAn.VCMPUN (R132): Lane-wise unordered compare. -/
  | vcmpun (u : Fin 2) (g : Guard) (src : Src) (ty : VTy)
  /-- VAn.VAND (R133): Bitwise AND. -/
  | vand (u : Fin 2) (g : Guard) (src : Src) (ty : VTy)
  /-- VAn.VOR (R133): Bitwise OR. -/
  | vor (u : Fin 2) (g : Guard) (src : Src) (ty : VTy)
  /-- VAn.VXOR (R133): Bitwise XOR. -/
  | vxor (u : Fin 2) (g : Guard) (src : Src) (ty : VTy)
  /-- VAn.VSHL (R133): Lane-wise shift left. -/
  | vshl (u : Fin 2) (g : Guard) (src : Src) (ty : VTy)
  /-- VAn.VSHR (R133): Lane-wise logical shift right. -/
  | vshr (u : Fin 2) (g : Guard) (src : Src) (ty : VTy)
  /-- VAn.VSAR (R133): Lane-wise arithmetic shift right. -/
  | vsar (u : Fin 2) (g : Guard) (src : Src) (ty : VTy)
  /-- VAn.VSEL (R134): Select lanes of o1 or b by .o3. -/
  | vsel (u : Fin 2) (g : Guard) (src : Src) (ty : VTy)
  /-- VAn.VBCAST (R134): Broadcast one lane of o1. -/
  | vbcast (u : Fin 2) (g : Guard) (src : Src) (ty : VTy)
  /-- VAn.VPERM (R134): Permute lanes of o1 and o2. -/
  | vperm (u : Fin 2) (g : Guard) (src : Src) (ty : VTy)
  /-- VAn.VTBL (R135): Decode lane indices through a codebook register. -/
  | vtbl (u : Fin 2) (g : Guard) (src : Src) (ty : VTy)
  /-- VAn.VREDADD (R136): Masked add reduction into lane 0. -/
  | vredadd (u : Fin 2) (g : Guard) (src : Src) (ty : VTy)
  /-- VAn.VREDMAX (R136): Masked maximum reduction. -/
  | vredmax (u : Fin 2) (g : Guard) (src : Src) (ty : VTy)
  /-- VAn.VREDMIN (R136): Masked minimum reduction. -/
  | vredmin (u : Fin 2) (g : Guard) (src : Src) (ty : VTy)
  /-- VAn.VSCAN (R137): Inclusive prefix sum. -/
  | vscan (u : Fin 2) (g : Guard) (src : Src) (ty : VTy)
  /-- VAn.VTOPK (R138): Select the k largest candidates and their lanes. -/
  | vtopk (u : Fin 2) (g : Guard) (src : Src) (ty : VTy)
  /-- VAn.VCVT (R139): Convert lanes between types. -/
  | vcvt (u : Fin 2) (g : Guard) (src : Src) (ty : VTy)
  /-- VAn.VMULH (R131): High half of lane-wise integer product. -/
  | vmulh (u : Fin 2) (g : Guard) (src : Src) (ty : VTy)
  /-- VAn.VDOT2 (R140): Pairwise dot product with 32-bit accumulate. -/
  | vdot2 (u : Fin 2) (g : Guard) (src : Src) (ty : VTy)
  /-- VAn.VCLAMP (R131): Clamp b between o1 and o2. -/
  | vclamp (u : Fin 2) (g : Guard) (src : Src) (ty : VTy)
  /-- VAn.VCNTM (R141): Count enabled non-zero lanes into .q. -/
  | vcntm (u : Fin 2) (g : Guard) (src : Src) (ty : VTy)
  /-- VS.XRCP (R142): Lane-wise reciprocal. -/
  | xrcp (g : Guard) (src : Src) (ty : XTy)
  /-- VS.XRSQ (R142): Lane-wise reciprocal square root. -/
  | xrsq (g : Guard) (src : Src) (ty : XTy)
  /-- VS.XSQRT (R142): Lane-wise square root. -/
  | xsqrt (g : Guard) (src : Src) (ty : XTy)
  /-- VS.XEXP2 (R142): Lane-wise 2^x. -/
  | xexp2 (g : Guard) (src : Src) (ty : XTy)
  /-- VS.XLOG2 (R142): Lane-wise log2. -/
  | xlog2 (g : Guard) (src : Src) (ty : XTy)
  /-- VS.XEXP (R142): Lane-wise e^x. -/
  | xexp (g : Guard) (src : Src) (ty : XTy)
  /-- VS.XSIN (R142): Lane-wise sine. -/
  | xsin (g : Guard) (src : Src) (ty : XTy)
  /-- VS.XCOS (R142): Lane-wise cosine. -/
  | xcos (g : Guard) (src : Src) (ty : XTy)
  /-- VS.XTANH (R142): Lane-wise tanh. -/
  | xtanh (g : Guard) (src : Src) (ty : XTy)
  /-- VS.XSIGM (R142): Lane-wise sigmoid. -/
  | xsigm (g : Guard) (src : Src) (ty : XTy)
  /-- VS.XGELU (R142): Lane-wise GELU. -/
  | xgelu (g : Guard) (src : Src) (ty : XTy)
  /-- VS.XSILU (R142): Lane-wise SiLU. -/
  | xsilu (g : Guard) (src : Src) (ty : XTy)
  /-- VS.XDIV (R142): Lane-wise o1 / b. -/
  | xdiv (g : Guard) (src : Src) (ty : XTy)
  /-- UP.UNPK4S (R143): Unpack signed 4-bit fields. -/
  | unpk4s (g : Guard) (src : Src)
  /-- UP.UNPK4Z (R143): Unpack unsigned 4-bit fields. -/
  | unpk4z (g : Guard) (src : Src)
  /-- UP.UNPK6S (R143): Unpack signed 6-bit fields. -/
  | unpk6s (g : Guard) (src : Src)
  /-- UP.UNPK6Z (R143): Unpack unsigned 6-bit fields. -/
  | unpk6z (g : Guard) (src : Src)
  /-- UP.UNPK8S (R143): Unpack signed bytes. -/
  | unpk8s (g : Guard) (src : Src)
  /-- UP.UNPK8Z (R143): Unpack unsigned bytes. -/
  | unpk8z (g : Guard) (src : Src)
  /-- UP.UNPKE4 (R144): Widen E4M3 bytes exactly. -/
  | unpke4 (g : Guard) (src : Src)
  /-- UP.UNPKE5 (R144): Widen E5M2 bytes exactly. -/
  | unpke5 (g : Guard) (src : Src)
  /-- UP.UNPKSN4 (R145): Decode SN4 codes to F32. -/
  | unpksn4 (g : Guard) (src : Src)
  /-- UP.BSREAD (R146): Read a field from each lane's bit stream. -/
  | bsread (g : Guard) (src : Src)
  /-- UP.BSINIT (R146): Initialise each lane's bit stream. -/
  | bsinit (g : Guard) (src : Src)
  /-- UP.UNPKIX (R143): Unpack index-plane elements. -/
  | unpkix (g : Guard) (src : Src)
  /-- PK.PACK4S (R148): Pack signed 4-bit fields. -/
  | pack4s (g : Guard) (src : Src) (wrap : Bool)
  /-- PK.PACK4Z (R148): Pack unsigned 4-bit fields. -/
  | pack4z (g : Guard) (src : Src) (wrap : Bool)
  /-- PK.PACK6S (R148): Pack signed 6-bit fields. -/
  | pack6s (g : Guard) (src : Src) (wrap : Bool)
  /-- PK.PACK6Z (R148): Pack unsigned 6-bit fields. -/
  | pack6z (g : Guard) (src : Src) (wrap : Bool)
  /-- PK.PACK8S (R148): Pack signed bytes. -/
  | pack8s (g : Guard) (src : Src) (wrap : Bool)
  /-- PK.PACK8Z (R148): Pack unsigned bytes. -/
  | pack8z (g : Guard) (src : Src) (wrap : Bool)
  /-- PK.PACKE4 (R149): Pack to E4M3 with the rm rounding. -/
  | packe4 (g : Guard) (src : Src) (rm : PRm)
  /-- PK.PACKE5 (R149): Pack to E5M2 with the rm rounding. -/
  | packe5 (g : Guard) (src : Src) (rm : PRm)
  /-- PK.PACKB16 (R149): Pack F32 lanes to BF16. -/
  | packb16 (g : Guard) (src : Src) (rm : PRm)
  /-- PK.PACKH16 (R149): Pack F32 lanes to F16. -/
  | packh16 (g : Guard) (src : Src) (rm : PRm)
  /-- PK.PACKIX (R148): Pack N16 lanes into index-plane elements. -/
  | packix (g : Guard) (src : Src) (wrap : Bool)
  /-- MU.LD8S (R89): Fixed-latency signed byte load. -/
  | ld8s (g : Guard) (src : Src) (a : Fin 4)
  /-- MU.LD8Z (R89): Fixed-latency unsigned byte load. -/
  | ld8z (g : Guard) (src : Src) (a : Fin 4)
  /-- MU.LD16S (R89): Fixed-latency signed 16-bit load. -/
  | ld16s (g : Guard) (src : Src) (a : Fin 4)
  /-- MU.LD16Z (R89): Fixed-latency unsigned 16-bit load. -/
  | ld16z (g : Guard) (src : Src) (a : Fin 4)
  /-- MU.LD32S (R89): Fixed-latency signed 32-bit load. -/
  | ld32s (g : Guard) (src : Src) (a : Fin 4)
  /-- MU.LD32Z (R89): Fixed-latency unsigned 32-bit load. -/
  | ld32z (g : Guard) (src : Src) (a : Fin 4)
  /-- MU.LD64 (R89): Fixed-latency 64-bit load. -/
  | ld64 (g : Guard) (src : Src) (a : Fin 4)
  /-- MU.ST8 (R89): Fixed-latency byte store. -/
  | st8 (g : Guard) (src : Src) (a : Fin 4)
  /-- MU.ST16 (R89): Fixed-latency 16-bit store. -/
  | st16 (g : Guard) (src : Src) (a : Fin 4)
  /-- MU.ST32 (R89): Fixed-latency 32-bit store. -/
  | st32 (g : Guard) (src : Src) (a : Fin 4)
  /-- MU.ST64 (R89): Fixed-latency 64-bit store. -/
  | st64 (g : Guard) (src : Src) (a : Fin 4)
  /-- MU.VLD (R89): Fixed-latency 128-byte vector load. -/
  | vld (g : Guard) (src : Src) (a : Fin 4)
  /-- MU.VST (R89): Fixed-latency masked vector store. -/
  | vst (g : Guard) (src : Src) (a : Fin 4)
  /-- MU.VLDL (R92): Per-lane load from lane slices. -/
  | vldl (g : Guard) (src : Src) (a : Fin 4)
  /-- MU.VSTL (R92): Per-lane masked store to lane slices. -/
  | vstl (g : Guard) (src : Src) (a : Fin 4)
  /-- MU.VGATH (R93): Per-lane gather from a local window. -/
  | vgath (g : Guard) (src : Src) (a : Fin 4)
  /-- MU.VSCAT (R93): Per-lane masked scatter into a local window. -/
  | vscat (g : Guard) (src : Src) (a : Fin 4)
  /-- MU.LDX (R94): Scoreboarded scalar load to a register. -/
  | ldx (g : Guard) (src : Src) (a : Fin 4)
  /-- MU.VLDX (R94): Scoreboarded vector load to a register. -/
  | vldx (g : Guard) (src : Src) (a : Fin 4)
  /-- MU.STX (R94): Scoreboarded scalar store. -/
  | stx (g : Guard) (src : Src) (a : Fin 4)
  /-- MU.VSTX (R94): Scoreboarded masked vector store. -/
  | vstx (g : Guard) (src : Src) (a : Fin 4)
  /-- MU.AMOADD (R96): Scratchpad atomic add. -/
  | amoadd (g : Guard) (src : Src) (a : Fin 4)
  /-- MU.AMOMIN (R96): Scratchpad atomic signed minimum. -/
  | amomin (g : Guard) (src : Src) (a : Fin 4)
  /-- MU.AMOMAX (R96): Scratchpad atomic signed maximum. -/
  | amomax (g : Guard) (src : Src) (a : Fin 4)
  /-- MU.AMOSWAP (R96): Scratchpad atomic swap. -/
  | amoswap (g : Guard) (src : Src) (a : Fin 4)
  /-- MU.AMOCAS (R96): Scratchpad atomic compare and swap. -/
  | amocas (g : Guard) (src : Src) (a : Fin 4)
  /-- MU.AMOFADD (R96): Scratchpad atomic F32 add. -/
  | amofadd (g : Guard) (src : Src) (a : Fin 4)
  /-- MU.DRAIN (R102): Drain earlier accesses and window lines to the chosen scope. -/
  | drain (g : Guard) (src : Src) (sc : Fin 4)
  /-- MU.MAP (R99): Configure a mapped window slot. -/
  | map (g : Guard) (src : Src)
  /-- MU.UNMAP (R101): Deactivate a mapped window slot. -/
  | unmap (g : Guard) (src : Src)
  /-- MU.OWNSET (R98): Grant or reclaim owner bits of granules. -/
  | ownset (g : Guard) (src : Src)
  /-- CU.BR (R69): Unconditional branch. -/
  | br (g : Guard) (src : Src)
  /-- CU.BRC (R69): Branch when predicate cj is 1. -/
  | brc (g : Guard) (src : Src) (j : Fin 4)
  /-- CU.BRNC (R69): Branch when predicate cj is 0. -/
  | brnc (g : Guard) (src : Src) (j : Fin 4)
  /-- CU.CALL (R70): Branch and write the return address to s63. -/
  | call (g : Guard) (src : Src)
  /-- CU.RET (R69): Return to the address given. -/
  | ret (g : Guard) (src : Src)
  /-- CU.LOOP (R72): Counted loop branch on LC. -/
  | loop (g : Guard) (src : Src)
  /-- CU.LOOPI (R72): Pipelined loop branch with predicate rotation. -/
  | loopi (g : Guard) (src : Src)
  /-- CU.EXIT (R77): End the context's record once its counters are zero. -/
  | exit (g : Guard) (src : Src)
  /-- CU.WAIT (R74): Block until the outstanding counters are within the fields. -/
  | wait (g : Guard) (src : Src)
  /-- CU.CSRRD (R80): Read a CSR to CU.r. -/
  | csrrd (g : Guard) (src : Src)
  /-- CU.CSRWR (R80): Write CU.o1 to a CSR. -/
  | csrwr (g : Guard) (src : Src)
  /-- CU.TRAP (R79): Raise TRAP_SW to the cluster's CSC. -/
  | trap (g : Guard) (src : Src)
  /-- CU.QPT (R337): Wait until quiescent and earlier invalidations have completed. -/
  | qpt (g : Guard) (src : Src)
  /-- CU.PROBE (R336): Make the pages of a range present, with page requests. -/
  | probe (g : Guard) (src : Src)
  /-- CU.SPAWN (R310): Post a continuation record push with priority p. -/
  | spawn (g : Guard) (src : Src) (pri : Fin 4)
  /-- CU.JOINI (R311): Post a set or add of a join record's count. -/
  | joini (g : Guard) (src : Src)
  /-- CU.GBAR (R320): Arrive at and wait on the barrier of a GMEM slot. -/
  | gbar (g : Guard) (src : Src) (j : Fin 4)
  /-- CU.TDONE (R325): Post a completion action on a bitmap bit. -/
  | tdone (g : Guard) (src : Src)
  /-- CU.TWAITB (R326): Block until a completion bit is set. -/
  | twaitb (g : Guard) (src : Src)
  /-- CU.ERET (R350): CSC return that resumes a halted context. -/
  | eret (g : Guard) (src : Src)
  /-- CU.HALT (R78): End the launch with a halt code. -/
  | halt (g : Guard) (src : Src)
  /-- MX.MMA (R195): Matrix multiply-accumulate into tile a0 or a1, dense or sparse. -/
  | mma (g : Guard) (src : Src) (sp : Bool) (h : Bool)
  /-- MX.MZERO (R200): Zero a tile and set its type. -/
  | mzero (g : Guard) (src : Src) (h : Bool)
  /-- MX.MDRAIN (R203): Drain a tile to memory through the configured steps. -/
  | mdrain (g : Guard) (src : Src) (h : Bool)
  /-- MX.MLOAD (R200): Load a tile image from memory. -/
  | mload (g : Guard) (src : Src) (h : Bool)
  /-- MX.MSETQ (R201): Load or disable a tile's scale and zero table. -/
  | msetq (g : Guard) (src : Src)
  /-- MX.MSETD (R202): Load a tile's drain descriptor. -/
  | msetd (g : Guard) (src : Src)
  /-- MX.MCFG (R191): Set the context's operand configuration. -/
  | mcfg (g : Guard) (src : Src)
  /-- CY.CPY (R247): Copy with optional conversion. -/
  | cpy (g : Guard) (src : Src)
  /-- CY.CPY2D (R248): Copy rows by a 2-D descriptor. -/
  | cpy2d (g : Guard) (src : Src)
  /-- CY.CPY3D (R248): Copy rows by a 3-D descriptor. -/
  | cpy3d (g : Guard) (src : Src)
  /-- CY.FILL (R249): Fill bytes with a 64-bit pattern. -/
  | fill (g : Guard) (src : Src)
  /-- CY.CPST (R254): Store or add 8 bytes after earlier copies complete. -/
  | cpst (g : Guard) (src : Src)
  /-- CY.ATOM (R257): Sector atomic returning the old sector. -/
  | atom (g : Guard) (src : Src)
  /-- CY.ATOMNR (R258): Return-free sector atomic. -/
  | atomnr (g : Guard) (src : Src)
  /-- CY.AFENCE (R260): Block until earlier ATOMNRs have been performed. -/
  | afence (g : Guard) (src : Src)
  /-- IX.GATHR (R265): Row gather by index list. -/
  | gathr (g : Guard) (src : Src)
  /-- IX.SCATR (R265): Row scatter by index list. -/
  | scatr (g : Guard) (src : Src)
  /-- IX.BINPUT (R271): Place records into bins. -/
  | binput (g : Guard) (src : Src)
  /-- IX.BINFLUSH (R272): Write the cluster's staging lines of a bin set. -/
  | binflush (g : Guard) (src : Src)
  /-- IX.BINPLAY (R273): Play bins onto the target in slot order. -/
  | binplay (g : Guard) (src : Src)
  /-- IX.FQCNT (R269): Return fault-queue occupancy. -/
  | fqcnt (g : Guard) (src : Src)
  /-- IX.TDECL (R282): Declare a sparse coordinate region. -/
  | tdecl (g : Guard) (src : Src)
  /-- IX.TLD (R283): Read the value at a key. -/
  | tld (g : Guard) (src : Src)
  /-- IX.TST (R283): Store or delete the value at a key. -/
  | tst (g : Guard) (src : Src)
  /-- IX.TADD (R283): Add to the value at a key. -/
  | tadd (g : Guard) (src : Src)
  /-- IX.TSCAN (R291): Open a cursor and read its first batch. -/
  | tscan (g : Guard) (src : Src)
  /-- IX.TNEXT (R291): Read the next batch of a cursor. -/
  | tnext (g : Guard) (src : Src)
  /-- IX.TCLOSE (R291): Close a cursor. -/
  | tclose (g : Guard) (src : Src)
  /-- IX.TDENSE (R294): Write a dense box from a region. -/
  | tdense (g : Guard) (src : Src)
  /-- IX.TCOUNT (R293): Read a region's key and node counts. -/
  | tcount (g : Guard) (src : Src)
  /-- IX.TPOOL (R287): Raise a region's pool capacity (CSC only). -/
  | tpool (g : Guard) (src : Src)
  /-- RK.RKON (R210): Switch L2 ways into a rink set. -/
  | rkon (g : Guard) (src : Src)
  /-- RK.RKOFF (R211): End a rink set and return its ways. -/
  | rkoff (g : Guard) (src : Src)
  /-- RK.RKLDT (R217): Transposing load of elements into lanes. -/
  | rkldt (g : Guard) (src : Src)
  /-- RK.RKSTT (R217): Transposing store of lanes to memory. -/
  | rkstt (g : Guard) (src : Src)
  /-- RK.RKKEY (R212): Set a set's key, mask and key base. -/
  | rkkey (g : Guard) (src : Src)
  /-- RK.RKCMP (R213): Compare lanes with the key and update tags. -/
  | rkcmp (g : Guard) (src : Src)
  /-- RK.RKWR (R213): Write a pattern into tagged or all lanes. -/
  | rkwr (g : Guard) (src : Src)
  /-- RK.RKTT (R214): Truth-table pass over up to four rows. -/
  | rktt (g : Guard) (src : Src)
  /-- RK.RKCNT (R215): Count tagged lanes. -/
  | rkcnt (g : Guard) (src : Src)
  /-- RK.RKFIND (R215): Find the lowest tagged lane. -/
  | rkfind (g : Guard) (src : Src)
  /-- RK.RKMAPI (R216): Remap an index plane held in lanes. -/
  | rkmapi (g : Guard) (src : Src)
  /-- ST.WSET (R180): Bind a stream register to a descriptor. -/
  | wset (g : Guard) (src : Src) (n : Fin 8)
  /-- ST.WREL (R186): Unbind a stream register. -/
  | wrel (g : Guard) (src : Src) (n : Fin 8)
  /-- ST.WSTAT (R187): Read a stream's status to ST.r. -/
  | wstat (g : Guard) (src : Src) (n : Fin 8)
  /-- ST.WSKIP (R186): Advance a stream's pop position. -/
  | wskip (g : Guard) (src : Src) (n : Fin 8)
  /-- KB.KLD (R161): Load a codebook into a k-register. -/
  | kld (g : Guard) (src : Src)
  /-- KB.KST (R161): Store a k-register as a codebook. -/
  | kst (g : Guard) (src : Src)
  /-- KB.KMAP (R164): Apply a unary function to codebook entries. -/
  | kmap (g : Guard) (src : Src) (f : Fin 16)
  /-- KB.KPAIR (R167): Fill the pair buffer with a binary function of two codebooks. -/
  | kpair (g : Guard) (src : Src) (o : Fin 6)
  /-- KB.KCMP (R165): Merge equal entries and write the index map. -/
  | kcmp (g : Guard) (src : Src)
  /-- KB.KSORT (R166): Sort entries and write the index map. -/
  | ksort (g : Guard) (src : Src)
  /-- KB.RECLU (R168): Re-cluster values into a codebook with a verdict. -/
  | reclu (g : Guard) (src : Src) (m : Fin 3)
  /-- KB.KREMAP (R174): Compose maps or slice the pair remap. -/
  | kremap (g : Guard) (src : Src)
  /-- KB.KGET (R162): Read one k or x entry. -/
  | kget (g : Guard) (src : Src)
  /-- KB.KSET (R162): Write one k or x entry. -/
  | kset (g : Guard) (src : Src)
  /-- KB.KCNT (R163): Read a k-register's or the pair buffer's count and state. -/
  | kcnt (g : Guard) (src : Src)
  /-- KB.KXLD (R161): Load an x register from memory. -/
  | kxld (g : Guard) (src : Src)
  /-- KB.KXST (R161): Store an x register to memory. -/
  | kxst (g : Guard) (src : Src)
  /-- KB.KFMT (R163): Set a k-register's count and tag, or release the pair buffer. -/
  | kfmt (g : Guard) (src : Src)
  /-- BUNDLE_ISSUE (R33): A context issues one whole bundle: decode checks, moves read pre-bundle state, operand latches and registers are written and triggers start their operations. -/
  | bundleIssue (moves : List Move)
  /-- CONTEXT_SWITCH (R300): When the running context blocks, ends, traps or is pre-empted, the core makes the next context that can issue the running one. -/
  | contextSwitch
  /-- RESULT_VISIBLE (R34): A fixed-latency result becomes visible in its unit's result latches at bundle g + L, with any STAT flags it sets. -/
  | resultVisible
  /-- TRANSFER_EFFECT (R39): A taken control transfer redirects the context after bundles g + 1 and g + 2 have issued. -/
  | transferEffect
  /-- LOOP_STATE_COMMIT (R72): The new LC, EC.CNT and predicate window of a LOOP or LOOPI take effect between bundles g + 2 and g + 3. -/
  | loopStateCommit
  /-- INSTRUCTION_FETCH (R27): An instruction-cache line fills sector by sector from its home slice through the ATC, or the fetch fails at issue. -/
  | instructionFetch
  /-- FIXED_STORE_PERFORM (R89): A fixed-latency store, VSTL or VSCAT writes memory at its perform point, or earlier while a bundle of its context waits. -/
  | fixedStorePerform
  /-- SCOREBOARDED_ACCESS_PERFORM (R94): An LDX, VLDX, STX or VSTX performs at its target memory, and its value lands or its store count drops. -/
  | scoreboardedAccessPerform
  /-- AMO_PERFORM (R96): A scratchpad atomic reads, computes and writes its location indivisibly and lands the old value. -/
  | amoPerform
  /-- WINDOW_FILL (R100): A mapped-window miss translates its address and fills the line from L2, with scope SYS. -/
  | windowFill
  /-- MAP_APPLY (R99): A MAP becomes visible to accesses of the core after the issuing context's bundle g + 3 has issued. -/
  | mapApply
  /-- OWNSET_APPLY (R98): An OWNSET grant or reclaim takes effect for accesses reaching the granules after bundle g + 3. -/
  | ownsetApply
  /-- UNMAP_COMPLETE (R101): UNMAP completes once earlier accesses have performed, CORE lines are written back and the backing is returned. -/
  | unmapComplete
  /-- DRAIN_COMPLETE (R102): A DRAIN completes once the steps of its scope are done and its st count drops. -/
  | drainComplete
  /-- RANDOM_WORD_GENERATE (R124): Each cycle the core's generator gives one word RB(n) to the context with the shortest random-bit queue. -/
  | randomWordGenerate
  /-- KB_OPERATION_START (R158): KB begins the next tl-counted operation of its core in issue order after the previous one has written its outputs. -/
  | kbOperationStart
  /-- KB_OPERATION_COMPLETE (R158): A tl-counted KB operation writes its last output and its context's tl count drops. -/
  | kbOperationComplete
  /-- STREAM_CAPTURE (R180): Once the descriptor has arrived and earlier KB work has written, a stream captures the registers and map its chain names. -/
  | streamCapture
  /-- STREAM_VECTOR_PRODUCE (R182): A bound stream reads its source and produces one vector through its operator chain. -/
  | streamVectorProduce
  /-- MX_OPERATION_START (R189): MX starts the next queued operation once the one before it allows, after the context's earlier stores have performed. -/
  | mxOperationStart
  /-- TILE_LINE_ARRIVAL (R198): A requested operand line arrives from its home slice and is pinned, or kept unpinned in the operand buffer. -/
  | tileLineArrival
  /-- MMA_CHUNK (R195): The array adds one chunk of 48 products into the accumulator tile and row sums. -/
  | mmaChunk
  /-- MX_OPERATION_COMPLETE (R189): An MX operation writes its last output and the context's tl count drops. -/
  | mxOperationComplete
  /-- COPY_DISPATCH (R251): A class Y command leaves its context's dispatch queue and its work items are queued at gondola engines. -/
  | copyDispatch
  /-- COPY_ITEM (R250): A gondola engine performs one work item of a copy or fill, or stops it at a missing page. -/
  | copyItem
  /-- GONDOLA_STEAL (R250): An engine with an empty queue takes the oldest half of the items of the nearest engine that holds any. -/
  | gondolaSteal
  /-- ENGINE_COMMAND_COMPLETE (R236): An engine command completes: writes performed, owner counts lowered, status word lands in the token, cp falls and CWM advances. -/
  | engineCommandComplete
  /-- CPST_PERFORM (R254): Once every earlier class Y command of its context has completed, CPST stores or adds its value indivisibly. -/
  | cpstPerform
  /-- ATOMIC_ACCEPT (R242): An ATOM or ATOMNR is accepted at its home slice, or rejected there for a missing page. -/
  | atomicAccept
  /-- ATOMIC_PERFORM (R257): An accepted sector atomic performs indivisibly on its sector at the home slice. -/
  | atomicPerform
  /-- NEAR_ATOMIC_PERFORM (R259): The stack's MSU performs a .NEAR atomic while the home slice holds the written-back sector. -/
  | nearAtomicPerform
  /-- LINE_MOVE (R261): During migration a line is copied to its new home and marked MOVED at the old one. -/
  | lineMove
  /-- ACCESS_FORWARD (R261): An access reaching the old home of a MOVED line is forwarded and performed once at the new home. -/
  | accessForward
  /-- END_MARKER (R261): After the invalidation is acknowledged, the old home sends the line's end marker to the new home. -/
  | endMarker
  /-- INDEX_BATCH (R265): The slalom engine performs one batch of up to eight gather or scatter elements and raises the progress counter. -/
  | indexBatch
  /-- FAULT_QUEUE_REPLAY (R266): CSC firmware takes a fault-queue entry in order and replays it under the captured policy. -/
  | faultQueueReplay
  /-- PRI_RESPONSE (R336): The host's response to a page request arrives and the waiting probe or parked work goes on. -/
  | priResponse
  /-- ATS_TRANSLATION_REPLY (R333): The host's reply to an ATC miss arrives and the requester proceeds or faults by path. -/
  | atsTranslationReply
  /-- BIN_RECORD_PLACE (R271): The slalom engine raises a bin's count indivisibly and stages one record in its slot. -/
  | binRecordPlace
  /-- BIN_PLAY (R273): BINPLAY applies the records of one bin in slot order to the target. -/
  | binPlay
  /-- TREE_UNIT_OPERATION (R288): The tree unit of a shard performs one tree operation as an indivisible step. -/
  | treeUnitOperation
  /-- RKON_ADMIT (R210): An RKON passes the single admission point, is checked and reserves its ways and handle. -/
  | rkonAdmit
  /-- RKON_SLICE_SWITCH (R210): A slice waits for pins and atomics, writes back and removes the ways and clears their arrays. -/
  | rkonSliceSwitch
  /-- RINK_SET_ADMIT (R219): A set's sequencer admits the next command and all slices perform it. -/
  | rinkSetAdmit
  /-- POST_QUEUE_PERFORM (R309): The next post-queue entry (SPAWN, JOINI or TDONE) performs once its prerequisite holds. -/
  | postQueuePerform
  /-- CONTEXT_END (R77): After EXIT's bundles g + 1 and g + 2, the context ends its record and releases its streams. -/
  | contextEnd
  /-- JOIN_STEP (R313): Once the post queue is empty, the lift unit decrements the join record and pushes its continuation at zero. -/
  | joinStep
  /-- LIFT_POP (R304): An idle context takes a record from its cluster's rings, the device queue, or by stealing. -/
  | liftPop
  /-- POWER_GATE (R307): Firmware power-gates a core whose contexts are idle and wait in no group. -/
  | powerGate
  /-- CORE_WAKE (R307): A push wakes a gated core of the launch within 10 µs when no free context took the record. -/
  | coreWake
  /-- GROUP_ARRIVAL (R320): The group unit records a member core's arrival and, at the M-th, advances the phase and releases waiters. -/
  | groupArrival
  /-- TWAITB_WAKE (R326): The block's home wakes a context waiting in TWAITB after its bit is set. -/
  | twaitbWake
  /-- LAUNCH_WRITE (R368): A host write of LAUNCH starts, or is refused for, a launch under LPASID. -/
  | launchWrite
  /-- LAUNCH_CLEAR (R330): After a launch ends, sets, windows, ATC and caches are dropped and on-chip memories cleared, then completion is reported. -/
  | launchClear
  /-- INVALIDATION_REQUEST (R338): An ATS invalidation request arrives and is numbered. -/
  | invalidationRequest
  /-- INVALIDATION_ACK (R339): A context at a quiescent point acknowledges every request that has arrived once its work in flight allows. -/
  | invalidationAck
  /-- INVALIDATION_COMPLETE (R340): Window lines are written back and dropped, staging lines written, ATC and cache entries invalidated and completion sent. -/
  | invalidationComplete
  /-- INVALIDATION_WATCHDOG (R341): 50 µs after a request arrives, firmware pre-empts every context that has not acknowledged it. -/
  | invalidationWatchdog
  /-- TRAP_TAKE (R348): A context takes a trap at a bundle boundary, halts and is reported to its CSC. -/
  | trapTake
  /-- PREEMPT_REQUEST (R356): The CSC asks a context to halt at its next bundle boundary for pre-emption. -/
  | preemptRequest
  /-- CONTEXT_SAVE (R356): After drains and started work finish, the context state and unstarted work are written to the save area. -/
  | contextSave
  /-- HALTED_COMMAND_COMPLETE (R358): An index or tree command left outstanding completes while its context is halted, writing its status into the save area. -/
  | haltedCommandComplete
  /-- CONTEXT_RESUME (R359): After ERET the context's state is restored, unstarted work re-pushed, streams rebound and issue resumes. -/
  | contextResume
  /-- ASSIST_SERVICE (R360): Firmware computes the recorded operations' lanes, writes pending results and flags and resumes the context. -/
  | assistService
  /-- FAULT_DETECT (R363): A single hardware fault is detected and acted upon by its class. -/
  | faultDetect
  /-- PATROL_SCRUB (R362): The patrol scrub corrects latent faults in every SECDED array within 100 ms. -/
  | patrolScrub
  /-- SECURE_BOOT (R344): After reset the boot ROM checks the firmware slots, derives keys, measures firmware or enters recovery mode. -/
  | secureBoot
  /-- PORT_TRAIN (R343): A Uzolar port trains, exchanges ML-KEM keys, authenticates and learns the peer's device number. -/
  | portTrain
  /-- PORT_REKEY (R343): A port starts a new key exchange before its frame counter reaches 2^48. -/
  | portRekey
  /-- LINK_FRAME_RECEIVE (R372): A port receives a frame: CRC retry, tag check and delivery exactly once. -/
  | linkFrameReceive
  /-- PORT_DOWN (R374): A port goes down; accesses to an unreachable peer complete with LINK errors or FATAL_UNPROBED. -/
  | portDown
  /-- POWER_CAP_TICK (R376): Every millisecond firmware reads PWRMW and lowers or restores the stream-core clock. -/
  | powerCapTick
  /-- HOST_BAR_ACCESS (R365): A host read or write of the memory BAR performs at the home slice, or completes with Completer Abort. -/
  | hostBarAccess
  /-- TLOGB_WRITE (R369): A host write of TLOGB sets the trap-log ring and restarts the count in TLOGW. -/
  | tlogbWrite
  /-- REGISTER_WRITE (R366): A host write to a control-BAR register with no behaviour of its own. -/
  | registerWrite
  /-- LOCALINIT (R370): Mailbox command copying launch data into core scratchpads or chip scratchpad. -/
  | localinit
  /-- ATTEST (R346): Mailbox command writing a signed attestation report for the host's nonce. -/
  | attest
  /-- CERTS (R370): Mailbox command writing the identity and alias certificates. -/
  | certs
  /-- FWLOAD (R370): Mailbox command writing a firmware image to slot A or B. -/
  | fwload
  /-- SVNSET (R370): Mailbox command raising the fused minimum security version to the running one. -/
  | svnset
  /-- MIGRATE (R371): Mailbox command moving a page line by line, then reporting done for the host to invalidate. -/
  | migrate
  /-- DEVNUM (R373): Mailbox command setting the device number and retraining every port. -/
  | devnum
  /-- POWER_LOSS (R342): Power is lost to the package or the device enters D3cold, and every domain loses power together, ending all on-chip state, device memory and the memory keys. -/
  | powerLoss
  deriving DecidableEq, Repr

end Sys2Proof
end

