-- ==== Sys2Proof/Machine/Parts.lean ====
section
/-! DEFINITION. The state of one stream core and of its four contexts (spec/01_machine.md R12, R13 and the rules each
record names). Plain data; every field is read and written by the operations of the other files of Machine/. -/

namespace Sys2Proof.Machine

/-- The value of a latch or of a trigger (R32): a 64-bit value, which a vector unit reads as a scalar broadcast, or a
1024-bit value. -/
inductive Val where
  | sc (x : Word)
  | vc (x : Vec)
  deriving DecidableEq, Repr

/-- Where an address leads (R15): own scratchpad, a peer's of the cluster, a cluster-shared slice, chip scratchpad, a
canonical global address, or nowhere. -/
inductive Loc where
  | own (off : Nat)
  | peer (n off : Nat)
  | slice (n off : Nat)
  | chip (off : Nat)
  | glob (va : Nat)
  | bad
  deriving DecidableEq, Repr

/-- What a translation answers (R333, R373, R374): the memory key, a page that is not present or forbids the access, a
peer that no port reaches, or nothing yet, while the host's reply is awaited. -/
inductive Xl where
  | ok (k : Nat)
  | absent
  | noPort
  | wait
  deriving DecidableEq, Repr

/-- The latches of one unit (R49). The pending results of the context are its shadow latches (R34). -/
structure Latch where
  o1 : Val
  o2 : Val
  o3 : Word
  r  : Val
  q  : Val
  deriving DecidableEq, Repr

/-- The format tag of a k-register (R152). -/
inductive KTag where
  | f32 | bf16 | f16
  deriving DecidableEq, Repr

/-- A k-register (R152): its 512-byte store, count, tag and sorted flag. -/
structure KReg where
  st     : BitVec 4096
  n      : Nat
  tag    : KTag
  sorted : Bool
  deriving DecidableEq, Repr

/-- A register file entry that own bundles still see with its old value (R162: KSET and KFMT have latency 3). -/
structure KOld where
  isX : Bool
  idx : Nat
  k   : KReg
  x   : BitVec 2048
  rem : Nat
  deriving DecidableEq, Repr

/-- A fixed-latency result that is not yet visible (R34, R353): unit, values, flags, and the bundles still to issue. -/
structure Pend where
  u   : Fin 15
  r   : Option Val
  q   : Option Val
  fl  : BitVec 9
  rem : Nat
  deriving DecidableEq, Repr

/-- A fixed-latency store that has not performed (R89): its place in the context's trigger order, its alias class, and
its bytes by memory key, in ascending lane order. -/
structure PStore where
  seq : Nat
  a   : Fin 4
  wr  : List (Nat × Byte)
  rem : Nat
  deriving DecidableEq, Repr

/-- The kind of a pending end of flow (R352 XKIND). -/
inductive XKind where
  | transfer | exit | halt
  deriving DecidableEq, Repr

/-- A pending control transfer, EXIT or HALT (R39): its target and the bundles left. -/
structure Xfer where
  kind   : XKind
  target : Word
  left   : Nat
  deriving DecidableEq, Repr

/-- The loop state that a LOOP or LOOPI has decided and that takes effect after two bundles (R72). -/
structure LoopSt where
  lc  : Option Word
  cnt : Option (BitVec 8)
  win : Option (BitVec 8 × BitVec 3)
  rem : Nat
  deriving DecidableEq, Repr

/-- What a scoreboarded operation does when it performs (R88, R94, R96, R101, R102). -/
inductive SbKind where
  | ldx (size : Fin 4) (sgn : Bool) (rd : Fin 64)
  | vldx (rd : Fin 32)
  | stx (size : Fin 4) (data : Word)
  | vstx (data : Vec) (mask : BitVec 32)
  | amoAdd (v : Word) (rd : Fin 64)
  | amoMin (v : Word) (rd : Fin 64)
  | amoMax (v : Word) (rd : Fin 64)
  | amoSwap (v : Word) (rd : Fin 64)
  | amoCas (v cmp : Word) (rd : Fin 64)
  | amoFadd (v : BitVec 32) (rd : Fin 64)
  | drain (sc : Fin 4)
  | unmap (slot : Fin 8)
  deriving DecidableEq, Repr

/-- A scoreboarded operation that has not performed: its place in the context's trigger order, its alias class, its
address, and the window slot that covered a global address at its trigger. -/
structure SbOp where
  seq  : Nat
  kind : SbKind
  a    : Fin 4
  addr : Word
  win  : Option (Fin 8)
  deriving DecidableEq, Repr

/-- A MAP or OWNSET whose effect is not yet in force (R98, R99). -/
inductive ApplyKind where
  | map (slot : Fin 8) (g0 : Word) (glog slog boff : Nat) (shared : Bool)
  | own (granules : List Nat) (grant : Bool) (cnt : Nat)
  deriving DecidableEq, Repr

/-- A pending MAP or OWNSET and the bundles still to issue before it is in force. -/
structure Apply where
  kind : ApplyKind
  rem  : Nat
  deriving DecidableEq, Repr

/-- An entry of the post queue (R309). -/
inductive PostKind where
  | spawn (code frame join ctrl : Word)
  | joini (addr : Word) (n : BitVec 32) (add : Bool)
  | tdone (block : Word) (bit : Nat) (err : Bool) (cnt : BitVec 24)
  deriving DecidableEq, Repr

/-- A post-queue entry with its place in the context's trigger order. -/
structure Post where
  seq  : Nat
  kind : PostKind
  deriving DecidableEq, Repr

/-- The state of a stream register (R187). -/
inductive StrmSt where
  | active | done | error
  deriving DecidableEq, Repr

/-- The reader of one stream source: the next byte's number in the source's byte sequence, the literal and zero bytes
left of a zero-run, and the bits read but not parsed (R176, R178, R182). -/
structure Reader where
  pos   : Nat
  lit   : Nat
  zero  : Nat
  acc   : Nat
  accN  : Nat
  deriving DecidableEq, Repr

/-- A position of a stream between two vectors: the readers of its sources and the lanes left over (R182, R186). -/
structure StrmPos where
  a   : Reader
  b   : Reader
  elq : List (BitVec 32)
  deriving DecidableEq, Repr

/-- A bound stream register (R176 to R187): its place in the context's trigger order, the descriptor's address and the
window slot that covered it, the verdict predicate's number and value and KPOL at the trigger, the descriptor once it is captured, the captured registers,
the verdict, the status, the vectors reported (`made`) and parsed (`parsed`), the readers, lanes
not yet in a vector, vectors not yet popped, the positions at which these vectors and the next one begin (`marks` and `start`, from
which a resume produces them again), the sectors of its sources that it has read and not used up (`buf`), and the
address that a window fill found absent. -/
structure Strm where
  seq    : Nat
  desc   : Word
  win    : Option (Fin 8)
  vj     : Fin 4
  cj     : Bool
  kpol   : Word
  words  : List Word
  capt   : Bool
  ka     : KReg
  kb     : KReg
  kd     : KReg
  xr     : BitVec 2048
  tmap   : List Byte
  dense  : Bool
  st     : StrmSt
  reason : Nat
  koor   : Bool
  ovr    : Nat
  popped : Nat
  made   : Nat
  parsed : Nat
  skip   : Nat
  rdA    : Reader
  rdB    : Reader
  elq    : List (BitVec 32)
  vecs   : List Vec
  marks  : List StrmPos
  start  : StrmPos
  buf    : List (Word × List Byte)
  miss   : Option Word
  deriving DecidableEq, Repr

/-- A trap or pre-emption that has halted the context (R347, R352): cause (0 for pre-emption), argument, and the
TRAP_SW argument recorded beside an ASSIST. -/
structure TrapRec where
  cause : Nat
  arg   : Word
  sw    : Option Word
  deriving DecidableEq, Repr

/-- One assist record (R360), with the k-register that a VTBL read at its trigger (log entry 23). -/
structure AssistRec where
  u   : Fin 15
  t   : Nat
  rem : Nat
  fpc : Word
  rnd : Word
  o3  : Word
  b   : Vec
  o1  : Vec
  o2  : Vec
  kr  : Option KReg
  deriving DecidableEq, Repr

/-- Where a context stands (R300, R306, R313, R356, R359). -/
inductive CtxSt where
  | out        -- its core is not in the launch
  | idle       -- takes records from the lift queues
  | live       -- issues
  | joining    -- EXIT's bundles have issued; the join step is left
  | halting    -- a trap or pre-emption was taken; the save sequence runs
  | halted     -- saved
  | resuming   -- ERET has asked for the resume
  deriving DecidableEq, Repr

/-- The page that a PROBE bundle waits for (R336): how many requests for it have been answered, and the one that is
under way. -/
structure Probe where
  page  : Nat
  tries : Nat
  asked : Option Nat
  deriving DecidableEq, Repr

/-- A tl-counted operation of KB, with what it captured at its trigger (R157, R159). -/
structure KbOp where
  ctx  : Fin 4
  seq  : Nat
  t    : Nat
  b    : Word
  o1   : Word
  o2   : Word
  kpol : Word
  win  : Option (Fin 8)
  deriving DecidableEq, Repr

/-- An operation of MX in the core's queue (R189, R190). -/
structure MxOp where
  ctx : Fin 4
  seq : Nat
  t   : Nat
  b   : Word
  o1  : Word
  o2  : Word
  deriving DecidableEq, Repr

/-- The state of one context (R12). -/
structure Ctx where
  st      : CtxSt
  pc      : Word
  s       : Vector Word 64
  v       : Vector Vec 32
  m       : Vector Word 8
  c       : Vector Bool 4
  psP     : BitVec 8
  psB     : BitVec 3
  k       : Vector KReg 16
  x       : Vector (BitVec 2048) 4
  kOld    : List KOld
  w       : Vector (Option Strm) 8
  lat     : Vector Latch 15
  bsWin   : Vector (BitVec 64) 32
  bsCnt   : Vector (BitVec 8) 32
  fpc     : Word
  stat    : BitVec 9
  kpol    : Word
  ixpol   : Word
  lc      : Word
  ecCnt   : BitVec 8
  gmem    : Vector (Option (BitVec 8)) 4
  dbg     : Word
  rbseed  : Word
  rbn     : BitVec 48
  rbq     : List Word
  cwm     : BitVec 32
  nextId  : BitVec 32
  joinp   : Word
  pasid   : BitVec 20
  savea   : Word
  ld      : Nat
  stc     : Nat
  cp      : Nat
  tl      : Nat
  pendS   : BitVec 64
  pendV   : BitVec 32
  pendC   : BitVec 4
  pend    : List Pend
  stores  : List PStore
  xfer    : Option Xfer
  loop    : List LoopSt
  applies : List Apply
  sb      : List SbOp
  post    : List Post
  seq     : Nat
  lastSeq : Nat
  recent  : Vector (List Nat) 4
  waited  : List Nat
  issued  : List (BitVec 32)
  landed  : List (BitVec 32)
  bits    : List (Word × Nat × Bool × BitVec 24)
  gbar    : Vector (Option (BitVec 32)) 4
  probe   : Option Probe
  qpt     : Option Nat
  tw      : Option (Word × Nat × Bool)
  ack     : Nat
  due     : List (Nat × Word)
  trap    : Option TrapRec
  assist  : List AssistRec
  preempt : Bool
  dbgHold : Bool
  heldKb  : List KbOp
  heldMx  : List MxOp
  haltAt  : Option (Word × Nat)
  blocked : Bool
  quiet   : Bool
  deriving DecidableEq, Repr

/-- The scope of a window line (R100). -/
inductive LineScope where
  | core | dev | sys
  deriving DecidableEq, Repr

/-- A valid line of a mapped window: its slot in the backing, the line number it holds, its scope, and which of its
bytes stores wrote since the fill (R100, R231). -/
structure Line where
  slot  : Nat
  tag   : Nat
  scope : LineScope
  dirty : BitVec 128
  deriving DecidableEq, Repr

/-- A window slot in use (R99): `dying` from the UNMAP bundle until the UNMAP completes (R101); `parts` names the lines that
a fill has begun, by line number, with the sectors copied so far (R231, R240). -/
structure Win where
  g0     : Word
  glog   : Nat
  slog   : Nat
  boff   : Nat
  shared : Bool
  dying  : Bool
  lines  : List Line
  parts  : List (Nat × List Nat)
  deriving DecidableEq, Repr

/-- The state of the pair buffer (R155). -/
inductive PairSt where
  | none | values | remap | oversize
  deriving DecidableEq, Repr

/-- The pair buffer of a core (R155). -/
structure Pair where
  holder : Option (Fin 4)
  st     : PairSt
  na     : Nat
  nb     : Nat
  p      : List (BitVec 32)
  deriving DecidableEq, Repr

/-- The outputs that a started KB operation has still to write (R158). -/
structure KbOut where
  k    : Option (Fin 16 × KReg)
  x    : Option (Fin 4 × BitVec 2048)
  pair : Option Pair
  r    : Option Word
  c    : Option (Fin 4 × Bool)
  deriving DecidableEq, Repr

/-- An operand line in the fetch unit (R198): its address and memory key, whether it is pinned and in which way of its home
slice, and its bytes where it is not read in place. -/
structure TileLine where
  addr  : Word
  key   : Nat
  pin   : Bool
  way   : Nat
  bytes : Option (List Byte)
  deriving DecidableEq, Repr

/-- The MX operation that runs: the chunks done, the captured k0, the operand lines at hand, whether it may complete, and, once
a drain's elements are on their way, the summary word that is left to write, or that none is. -/
structure MxRun where
  op    : MxOp
  chunk : Nat
  kreg  : KReg
  lines : List TileLine
  fin   : Bool
  sum   : Option (Option Nat)
  deriving DecidableEq, Repr

/-- An accumulator tile (R188). -/
structure Tile where
  acc    : List (BitVec 32)
  rs     : List (BitVec 32)
  int    : Bool
  status : BitVec 4
  qen    : Bool
  sc     : List (BitVec 32)
  zp     : List (BitVec 32)
  drain  : Option (List Word)
  deriving DecidableEq, Repr

/-- A context's operand configuration (R191). -/
structure MxCfg where
  fmt : Word
  lda : Nat
  ldb : Nat
  deriving DecidableEq, Repr

/-- The state of one core: its contexts and what they share (R13); `stalled` says that the running context has left off while
no context could issue (R300). -/
structure Core where
  ctx     : Vector Ctx 4
  running : Fin 4
  stalled : Bool
  gated   : Bool
  icache  : List (Nat × List Byte)
  wins    : Vector (Option Win) 8
  pair    : Pair
  kbq     : List KbOp
  kbRun   : Option (KbOp × KbOut)
  tiles   : Vector Tile 8
  mxCfg   : Vector MxCfg 4
  mxq     : List MxOp
  mxRun   : Option MxRun
  deriving DecidableEq, Repr

end Sys2Proof.Machine
end

