-- ==== Sys2Proof/Machine/Device.lean ====
section
/-! DEFINITION. The state of the device outside the cores: memory, the clusters' engines, engine commands, rink sets,
groups, the launch, the host's registers, the ports and the boot state (the rules each record names). Plain data. -/

namespace Sys2Proof.Machine

/-- All memory: the bytes that differ from zero, by memory key, in rising order (`Mem.wf`). Keys place the spaces of
R14 and R18 side by side: see `Machine/Ops.lean`. -/
structure Mem where
  cells : List Host.Cell
  deriving DecidableEq, Repr

/-- A byte written, or a range of keys from `lo` up to but not `hi` set to zero. -/
inductive Wr where
  | byte (k : Nat) (b : Byte)
  | clear (lo hi : Nat)
  deriving DecidableEq, Repr

/-- Whose writes a sector in flight holds: an engine command's, a core's MX's or a core's windows'. -/
inductive FlightOf where
  | cmd (uid : Nat)
  | mx (core : Fin 4112)
  | win (core : Fin 4112)
  deriving DecidableEq, Repr

/-- A sector's writes that have still to perform (R240). Where `src` is not empty, it gives for each of them the key from which
its byte is still to be read, if any; `grp` tells the units of work of one command apart, of which each reads a sector once. -/
structure Flight where
  of  : FlightOf
  wr  : List (Nat × Byte)
  src : List (Option Nat)
  grp : Nat
  deriving DecidableEq, Repr

/-- How far an engine command has come (R236, R251). -/
inductive CmdSt where
  | queued     -- unstarted
  | started
  | accepted   -- an atomic accepted at its home (R242)
  | fin        -- its work is done; its status word is fixed, its completion is left
  | held       -- saved in a halted context's unstarted work (R354)
  deriving DecidableEq, Repr

/-- A work item of a copy or fill (R250): its number, row, addresses and source bytes, its place in the order in which items
were queued at their engines (R327), the destination bytes that it has dealt with, more than none once it performs, and the
source sector that it has read and not used up (R255). -/
structure Item where
  uid : Nat
  k   : Nat
  row : Nat
  src : Word
  dst : Word
  n   : Nat
  ord : Nat
  got : Nat
  buf : List (Word × List Byte)
  deriving DecidableEq, Repr

/-- What an item has done: destination bytes wanted and written, and whether it stopped at a page (R252). -/
structure ItemRes where
  k    : Nat
  row  : Nat
  dst  : Word
  want : Nat
  done : Nat
  page : Bool
  deriving DecidableEq, Repr

/-- An engine command of class Y, G or L, with what it captured at its trigger (R75, R247, R262, R216); `gran` lists the
granules that took its implicit grant, `touch` the others that it touches (R97); `seen` the sectors of nodes that a tree
operation has read before the step in which it acts (R243). -/
structure Cmd where
  uid    : Nat
  cid    : Cid
  seq    : Nat
  bus    : Fin 16
  t      : Nat
  b      : Word
  o1     : Word
  o2     : Word
  tok    : Option (Fin 64)
  dst2   : Option (Fin 64)
  id     : BitVec 32
  ixpol  : Word
  kregs  : List KReg
  preds  : List Bool
  xreg   : BitVec 2048
  st     : CmdSt
  desc   : List Word
  opnd   : List Byte
  gran   : List Nat
  touch  : List Nat
  left   : Nat
  res    : List ItemRes
  prog   : Nat
  cnt    : Nat
  bits   : Nat
  parked : Nat
  reason : Nat
  trapAt : Option Nat
  miss   : List Nat
  val2   : Word
  key    : Nat
  status : Word
  slices : List (Fin 128)
  seen   : List (Nat × List Byte)
  deriving DecidableEq, Repr

/-- An entry of a cluster's fault queue (R266, R286, R295): the command, the element and its index (0 for a tree command), the reason
(1 BOUND, 2 ALIGN, 4 PAGE, 8 POOL), the request sent to the host, if any, and whether firmware has taken it from the
queue before its turn to replay (R268). -/
structure FqEnt where
  uid    : Nat
  elem   : Nat
  ix     : Nat
  reason : Nat
  asked  : Option Nat
  taken  : Bool
  deriving DecidableEq, Repr

/-- A staging line of the slalom engine (R271): its 128-byte block, the context that staged first, and its records by
slot. -/
structure StgLine where
  block : Word
  cid   : Cid
  recs  : List (Nat × Word)
  deriving DecidableEq, Repr

/-- A continuation record in a ring (R302, R303), with its place in the order of pushes and its slot in the ring's storage. -/
structure LRec where
  code  : Word
  frame : Word
  join  : Word
  ctrl  : Word
  ord   : Nat
  slot  : Nat
  deriving DecidableEq, Repr

/-- What a cluster holds beside its cores (R9): the fault queue, the address translation cache, the staging lines and
the lift unit's pop count. -/
structure Cluster where
  fq   : List FqEnt
  atc  : List (BitVec 20 × Page)
  stg  : List StgLine
  pops : Nat
  deriving DecidableEq, Repr

/-- A rink set (R206, R207): rows and tags are sets of lanes, held as numbers whose bit L stands for lane L. -/
structure RinkSet where
  handle : Nat
  live   : Bool
  off    : Bool
  wm     : BitVec 8
  slices : List (Fin 128)
  rows   : List Nat
  tags   : Nat
  key    : BitVec 16
  mask   : BitVec 16
  kbase  : Nat
  deriving DecidableEq, Repr

/-- A group in the group unit (R320): member cores and arrived cores as sets, the phase and the broken flag. -/
structure Group where
  members : BitVec 4096
  arrived : BitVec 4096
  phase   : BitVec 32
  broken  : Bool
  deriving DecidableEq, Repr

/-- A page request to the host (R336, R266, R295). -/
structure PriReq where
  uid   : Nat
  pasid : BitVec 20
  page  : Nat
  write : Bool
  code  : Option PriCode
  deriving DecidableEq, Repr

/-- An ATS invalidation request (R338) and whether its watchdog has expired. -/
structure Inval where
  num   : Nat
  pasid : BitVec 20
  lo    : Nat
  hi    : Nat
  fired : Bool
  deriving DecidableEq, Repr

/-- A page that the device management core moves (R261, R371); `told` is the number of the next invalidation to arrive after
the host was told. -/
structure Migr where
  old   : Nat
  new   : Nat
  pasid : BitVec 20
  vpage : Nat
  moved : List (Fin 32)
  told  : Option Nat
  sent  : Bool
  ended : List (Fin 32)
  deriving DecidableEq, Repr

/-- How a launch ended (R367 END). -/
inductive EndKind where
  | root | halt | trap | fault
  deriving DecidableEq, Repr

/-- STATE of CSTAT (R367). -/
inductive LaunchSt where
  | idle | running | ended | rejected
  deriving DecidableEq, Repr

/-- The launch and its completion record (R316 to R319, R367). The steps of R330 are left while `clearing`,
and the checks of R318 while `checking`; `fault` names the detected fault that firmware is to report, with its context and class (R363). -/
structure Launch where
  st      : LaunchSt
  clearing: Bool
  checking: Bool
  fault   : Option (Cid × Word)
  pasid   : BitVec 20
  sv      : Word
  gtab    : Word
  uarg    : Word
  rootj   : Word
  liftb   : Word
  liftcap : Nat
  ncores  : Nat
  seqno   : Word
  lwb     : Bool
  jerr    : Bool
  rej     : Nat
  fin     : EndKind
  cause   : Nat
  devcore : Nat
  ctx     : Nat
  ccode   : Word
  deriving DecidableEq, Repr

/-- The host's registers with no other home (R366); `req` holds the eight words of the request that the last MBDB write
started (R370). -/
structure HostRegs where
  lpasid : BitVec 20
  tlogb  : Word
  tlogw  : Word
  mbreq  : Word
  req    : List Word
  busy   : Bool
  result : BitVec 8
  msix   : Vector Nat 8
  xlatErr: Nat
  dbg    : Bool
  deriving DecidableEq, Repr

/-- A Uzolar port (R343, R372, R373); `first` says that this end initiates its key exchanges. -/
structure Port where
  up    : Bool
  peer  : BitVec 8
  first : Bool
  epoch : BitVec 32
  txKey : BitVec 256
  rxKey : BitVec 256
  txCtr : Nat
  rxSeq : Nat
  retry : Nat
  deriving DecidableEq, Repr

/-- Fuses, flash and what boot has derived (R342, R344 to R346). -/
structure Boot where
  powered  : Bool
  recovery : Bool
  keyHash  : BitVec 256
  minSvn   : BitVec 32
  secret   : BitVec 256
  locked   : Bool
  debug    : Bool
  fuses    : List Byte
  slotA    : List Byte
  slotB    : List Byte
  svn      : BitVec 32
  mdmc     : BitVec 256
  mcsc     : BitVec 256
  idPub    : List Byte
  idCert   : List Byte
  aliasPub : List Byte
  aliasSeed: BitVec 256
  memKeys  : BitVec 512
  draws    : Nat
  deriving DecidableEq, Repr

/-- Power and clock (R376). -/
structure Power where
  mw  : Nat
  mhz : Nat
  deriving DecidableEq, Repr

end Sys2Proof.Machine
end

