-- ==== Sys2Proof/Machine/State.lean ====
section
/-! DEFINITION. The state of the whole device, why a step can stop, and the state after reset (spec/01_machine.md R12,
R13; INVENTORY.md lists every field with its rule). Plain data. -/

namespace Sys2Proof.Machine

/-- Why the machine stops. -/
inductive Fault where
  /-- Raised by every meaning of a bundle (`issueWith`) when the context named by `cur` cannot issue: it holds no
  record, is halted, or has ended. The hardware issues nothing there (R300). Safe: the hardware takes no such step. -/
  | notIssuing
  deriving DecidableEq, Repr

/-- Why an instruction has no meaning. -/
inductive Refusal where
  /-- Raised by an arm of `exec` whose meaning has not been written. Safe. -/
  | notModelled (mnemonic : String)
  deriving DecidableEq, Repr

/-- One entry of the schedule: a core issues, or a part or the host acts (log entry 5). -/
inductive Sched where
  | issue (core : Fin 4112)
  | ev (i : Instr) (a : Act)
  deriving DecidableEq, Repr, Inhabited

/-- The device. -/
structure State where
  cores   : List (Nat × Core)
  cur     : Cid
  ir      : Nat
  act     : Act
  sched   : List Sched
  tick    : Nat
  time    : Word
  mem     : Mem
  own     : List (Nat × Nat)
  flight  : List Flight
  clus    : Vector Cluster 16
  cmds    : List Cmd
  nextUid : Nat
  engines : List (Nat × List Item)
  sets    : List RinkSet
  groups  : List (Nat × Group)
  arrivals: List (Nat × Nat)
  rings   : List (List LRec)
  pushes  : Nat
  launch  : Launch
  host    : HostRegs
  pages   : List (BitVec 20 × Page)
  pri     : List PriReq
  invals  : List Inval
  invNext : Nat
  migrs   : List Migr
  ports   : Vector Port 48
  devnum  : BitVec 8
  boot    : Boot
  power   : Power
  deriving DecidableEq, Repr

/-- The latch width of R49: whether `.o1` of unit `u` is 1024 bits wide. -/
def wideO1 (u : Nat) : Bool := u == 2 || u == 3 || u == 4 || u == 5 || u == 6 || u == 8

/-- Whether `.o2` of unit `u` is 1024 bits wide (R49: as `.o1`, but MU's is 64). -/
def wideO2 (u : Nat) : Bool := u == 2 || u == 3 || u == 4 || u == 5 || u == 8

/-- Whether `.r` of unit `u` is 1024 bits wide (R49). -/
def wideR (u : Nat) : Bool := wideO1 u

/-- Whether `.q` of unit `u` is 1024 bits wide (R49: UP alone). -/
def wideQ (u : Nat) : Bool := u == 4

/-- A zero result latch of the given width. -/
def Val.zero (wide : Bool) : Val := if wide then .vc 0 else .sc 0

/-- The latches of unit `u` at launch: zero (R12). -/
def Latch.fresh (u : Nat) : Latch :=
  { o1 := .sc 0, o2 := .sc 0, o3 := 0, r := Val.zero (wideR u), q := Val.zero (wideQ u) }

/-- A k-register at launch (R152): count 0, tag F32, sorted flag 0, zero store. -/
def KReg.empty : KReg := { st := 0, n := 0, tag := .f32, sorted := false }

/-- The identity map of an x register (R154): entry i, at bits [8i+7:8i], holds i. -/
def xIdentity : BitVec 2048 := BitVec.ofNat 2048 ((List.range 256).foldr (fun i a => i + 256 * a) 0)

/-- A context before any launch: the values that R12 gives at launch where it gives them; the program counter and the
CSRs of the launch contract hold zero, which is the model's choice (log entry 3). -/
def Ctx.fresh : Ctx :=
  { st := .out, pc := 0, s := Vector.replicate 64 0, v := Vector.replicate 32 0,
    m := Vector.replicate 8 (BitVec.allOnes 64), c := Vector.replicate 4 false, psP := 0, psB := 0,
    k := Vector.replicate 16 KReg.empty, x := Vector.replicate 4 xIdentity, kOld := [],
    w := Vector.replicate 8 none, lat := Vector.ofFn (fun u : Fin 15 => Latch.fresh u),
    bsWin := Vector.replicate 32 0, bsCnt := Vector.replicate 32 0,
    fpc := 8, stat := 0, kpol := 0, ixpol := 0, lc := 0, ecCnt := 0, gmem := Vector.replicate 4 none, dbg := 0,
    rbseed := 0, rbn := 0, rbq := [], cwm := 0, nextId := 1, joinp := 0, pasid := 0, savea := 0,
    ld := 0, stc := 0, cp := 0, tl := 0, pendS := 0, pendV := 0, pendC := 0, pend := [], stores := [],
    xfer := none, loop := [], applies := [], sb := [], post := [], seq := 0,
    lastSeq := 0, recent := Vector.replicate 4 [], waited := [], issued := [], landed := [], bits := [],
    gbar := Vector.replicate 4 none, probe := none, qpt := none, tw := none, ack := 0, due := [], trap := none,
    assist := [], preempt := false, heldKb := [], heldMx := [], dbgHold := false, haltAt := none,
    blocked := false, quiet := false }

/-- A tile at launch (R188). -/
def Tile.fresh : Tile :=
  { acc := List.replicate 1024 0, rs := List.replicate 32 0, int := false, status := 0, qen := false,
    sc := List.replicate 32 0, zp := List.replicate 32 0, drain := none }

/-- An empty pair buffer (R155). -/
def Pair.empty : Pair := { holder := none, st := .none, na := 0, nb := 0, p := [] }

/-- A core before any launch. -/
def Core.fresh : Core :=
  { ctx := Vector.replicate 4 Ctx.fresh, running := 0, stalled := true, gated := false, icache := [],
    wins := Vector.replicate 8 none, pair := Pair.empty, kbq := [], kbRun := none,
    tiles := Vector.replicate 8 Tile.fresh, mxCfg := Vector.replicate 4 { fmt := 0, lda := 0, ldb := 0 },
    mxq := [], mxRun := none }

/-- A cluster before any launch. -/
def Cluster.fresh : Cluster := { fq := [], atc := [], stg := [], pops := 0 }

/-- The device right after reset, before the boot ROM runs (R342, R344, R366, R373): no launch, every control-BAR
register 0, no page known, the device number 0. -/
def State.reset : State :=
  { cores := [], cur := { core := 0, ctx := 0 }, ir := 0, act := {}, sched := [], tick := 0, time := 0, mem := { cells := [] },
    own := [], flight := [], clus := Vector.replicate 16 Cluster.fresh, cmds := [], nextUid := 0, engines := [], sets := [],
    groups := [], arrivals := [], rings := [], pushes := 0,
    launch := { st := .idle, clearing := false, checking := false, fault := none, pasid := 0, sv := 0, gtab := 0, uarg := 0, rootj := 0, liftb := 0,
                liftcap := 0, ncores := 0, seqno := 0, lwb := false, jerr := false, rej := 0, fin := .root,
                cause := 0, devcore := 0, ctx := 0, ccode := 0 },
    host := { lpasid := 0, tlogb := 0, tlogw := 0, mbreq := 0, req := [], busy := false, result := 0,
              msix := Vector.replicate 8 0, xlatErr := 0, dbg := false },
    pages := [], pri := [], invals := [], invNext := 0, migrs := [],
    ports := Vector.replicate 48 { up := false, peer := 0, first := false, epoch := 0, txKey := 0, rxKey := 0, txCtr := 0,
                                   rxSeq := 0, retry := 0 },
    devnum := 0,
    boot := { powered := true, recovery := true, keyHash := 0, minSvn := 0, secret := 0, locked := false,
              debug := false, fuses := [], slotA := [], slotB := [], svn := 0, mdmc := 0, mcsc := 0, idPub := [],
              idCert := [], aliasPub := [], aliasSeed := 0, memKeys := 0, draws := 0 },
    power := { mw := 0, mhz := 2700 } }

end Sys2Proof.Machine
end

