-- ==== Sys2Proof/Config.lean ====
section
/-! DEFINITION. The free values of the model: what the spec leaves to an implementation, to chance or to a choice of the
L9's. Every constant is opaque and has no body, so no proof can see its value. -/

namespace Sys2Proof

/-- Which step comes next where the schedule names none, and what the outside world gives it (log entry 5). -/
opaque Config.next : Nat → Machine.Sched

/-- How many nanoseconds have passed since TIME was read last (R84, log entry 10). -/
opaque Config.elapse : Nat → Nat

/-- The bus address of the device's second BAR, which the host sets (R365, R370, log entry 27). -/
opaque Config.bar2 : Nat

/-- A draw of the device management core's entropy source (R342, log entry 11). -/
opaque Config.entropy : Nat → BitVec 256

/-- SHA3-256 (R342 to R346, log entry 11). -/
opaque Config.sha3 : List Byte → BitVec 256

/-- The ML-DSA-44 public key of a 32-byte seed (R345, log entry 11). -/
opaque Config.dsaPublic : BitVec 256 → List Byte

/-- The ML-DSA-44 signature, 2420 bytes long, of a digest under the key of a seed (R346, log entry 11). -/
opaque Config.dsaSign : BitVec 256 → BitVec 256 → BitVec 19360

/-- Whether an ML-DSA-44 signature over a digest verifies under a public key (R344, log entry 11). -/
opaque Config.dsaVerify : List Byte → BitVec 256 → List Byte → Bool

/-- The public key in the header of a firmware image (R344, log entry 11). -/
opaque Config.imgKey : List Byte → List Byte

/-- The signature of a firmware image (R344, log entry 11). -/
opaque Config.imgSig : List Byte → List Byte

/-- The security version of a firmware image (R344, log entry 11). -/
opaque Config.imgSvn : List Byte → BitVec 32

/-- The part of a firmware image that holds the device management core's firmware (R344, log entry 11). -/
opaque Config.imgDmc : List Byte → List Byte

/-- The part of a firmware image that holds the CSC firmware (R344, log entry 11). -/
opaque Config.imgCsc : List Byte → List Byte

/-- The certificate that the device identity key gives an alias public key (R345, log entry 11). -/
opaque Config.aliasCert : BitVec 256 → List Byte → List Byte

/-- The shared secret and the transcript digest of a port's ML-KEM-768 exchange (R343, log entry 11). -/
opaque Config.kemSecret : Nat → Nat → BitVec 512

/-- Whether the certificate chain that a peer sends certifies its device identity key and its alias key (R343, R345, log entry
11). -/
opaque Config.chainOk : List Byte → List Byte → List Byte → Bool

/-- The GCM tag of a frame under a key and a nonce (R343, log entry 11). -/
opaque Config.gcmTag : BitVec 256 → BitVec 96 → Nat → List Byte → BitVec 128

/-- The rounding of a special function's value where the model's interval does not decide it: the pattern of the
result (R122, log entry 17). -/
opaque Config.special : Nat → Nat → BitVec 32 → BitVec 32

/-- The set of an L2 slice in which a line of device memory lies, by the line's number (R20; log entry 34). -/
opaque Config.lineSet : Nat → BitVec 11

/-- The way of its slice in which a line is kept while something holds it, by the line's number and a number of the occasion
(R198, R210; log entry 34). -/
opaque Config.lineWay : Nat → Nat → BitVec 4

/-- The 32 bytes that a program which breaks R303 finds where the record pushed in a given place of the order of pushes lies
(log entry 14). -/
opaque Config.ringRecord : Nat → BitVec 256

/-- A value that the spec leaves open after an instruction, by a count of such values (each use names its log entry). -/
opaque Config.free : Nat → BitVec 1024

end Sys2Proof
end

