-- ==== Sys2Proof/Machine/Memory.lean ====
section
/-! DEFINITION. Memory: one canonical list of bytes, the keys that place the spaces of R14 and R18 side by side, and the
effect of a step: a state and the bytes it writes. -/

namespace Sys2Proof.Machine

/-! ### Cells -/

/-- The byte that a list of cells holds at a key: zero where the key is not listed (log entry 4). -/
def cellsGet : List Host.Cell → Nat → Byte
  | [], _ => 0
  | (a, b) :: r, k => if a = k then b else cellsGet r k

/-- A list of cells with one byte written; a zero byte is not listed. -/
def cellsSet : List Host.Cell → Nat → Byte → List Host.Cell
  | [], k, b => if b = 0 then [] else [(k, b)]
  | (a, c) :: r, k, b =>
    if k < a then (if b = 0 then (a, c) :: r else (k, b) :: (a, c) :: r)
    else if k = a then (if b = 0 then r else (k, b) :: r)
    else (a, c) :: cellsSet r k b

/-- A list of cells with the keys from `lo` up to but not `hi` set to zero. -/
def cellsClear (cs : List Host.Cell) (lo hi : Nat) : List Host.Cell :=
  cs.filter (fun c => !(lo ≤ c.1 && c.1 < hi))

/-- The canonical form: keys strictly rising, no zero byte listed. -/
def cellsWf : List Host.Cell → Bool
  | [] => true
  | [c] => c.2 != 0
  | c :: d :: r => c.1 < d.1 && c.2 != 0 && cellsWf (d :: r)

/-- The canonical form of memory. -/
def Mem.wf (m : Mem) : Bool := cellsWf m.cells

/-- One byte of memory. -/
def Mem.get (m : Mem) (k : Nat) : Byte := cellsGet m.cells k

/-- Memory after one write. -/
def Mem.apply (m : Mem) : Wr → Mem
  | .byte k b => ⟨cellsSet m.cells k b⟩
  | .clear lo hi => ⟨cellsClear m.cells lo hi⟩

/-- Memory after some writes, the first one first. -/
def Mem.applyAll (m : Mem) : List Wr → Mem
  | [] => m
  | w :: ws => (m.apply w).applyAll ws

/-- `n` bytes from a key, in rising order. -/
def Mem.bytes (m : Mem) (k : Nat) : Nat → List Byte
  | 0 => []
  | n + 1 => m.get k :: m.bytes (k + 1) n

/-! ### Bytes and words: little-endian (R1) -/

/-- The number that some bytes hold, least significant first. -/
def leNat : List Byte → Nat
  | [] => 0
  | b :: bs => b.toNat + 256 * leNat bs

/-- The `n` bytes of a number, least significant first. -/
def leBytes : Nat → Nat → List Byte
  | 0, _ => []
  | n + 1, x => BitVec.ofNat 8 x :: leBytes n (x / 256)

/-- `n` bytes of memory as a number. -/
def Mem.nat (m : Mem) (k n : Nat) : Nat := leNat (m.bytes k n)

/-- A 64-bit word of memory. -/
def Mem.word (m : Mem) (k : Nat) : Word := BitVec.ofNat 64 (m.nat k 8)

/-- The writes that lay bytes from a key upward. -/
def wrBytes (k : Nat) : List Byte → List Wr
  | [] => []
  | b :: bs => .byte k b :: wrBytes (k + 1) bs

/-- The writes that lay a number of `n` bytes from a key upward. -/
def wrNat (k n x : Nat) : List Wr := wrBytes k (leBytes n x)

/-- The bytes that a number of `n` bytes puts at a key, as pairs. -/
def pairsAt (k : Nat) : List Byte → List (Nat × Byte)
  | [] => []
  | b :: bs => (k, b) :: pairsAt (k + 1) bs

/-- Pairs as writes. -/
def wrPairs (ps : List (Nat × Byte)) : List Wr := ps.map (fun p => .byte p.1 p.2)

/-! ### Keys -/

/-- Byte `off` of core `n`'s scratchpad (of a CSC's private SRAM for `n` from 4096: log entry 19). -/
def coreKey (n off : Nat) : Nat := 0x1000000000000 + n * 0x40000 + off

/-- Byte `off` of core `n`'s cluster-shared slice. -/
def sliceKey (n off : Nat) : Nat := 0x2000000000000 + n * 0x10000 + off

/-- Byte `off` of chip scratchpad, by chip-scratchpad offset (R17). -/
def chipKey (off : Nat) : Nat := 0x3000000000000 + off

/-- Byte `off` of a lane slice of core `n`. -/
def laneKey (n lane off : Nat) : Nat := 0x4000000000000 + n * 0x8000 + lane * 0x400 + off

/-- Byte `a` of a peer device's memory (R373). -/
def peerKey (dev a : Nat) : Nat := 0x6000000000000 + dev * 0x10000000000 + a

/-- Byte `a` of the memory that the host lets the device reach as a bus master (R370). -/
def busKey (a : Nat) : Nat := 0x100000000000000000 + a

/-- The owner granule of a key (R19, R97): 1 KiB. -/
def granuleOf (k : Nat) : Nat := k / 1024

/-! ### The effect of a step -/

/-- A state and the bytes that the step has written so far: `st.mem` shows them. -/
structure Eff where
  st : State
  wr : List Wr

/-- No effect yet. -/
def Eff.start (s : State) : Eff := { st := s, wr := [] }

/-- Write bytes. -/
def Eff.put (e : Eff) (ws : List Wr) : Eff :=
  { st := { e.st with mem := e.st.mem.applyAll ws }, wr := e.wr ++ ws }

/-- Change the state beside memory. -/
def Eff.on (e : Eff) (f : State → State) : Eff := { e with st := f e.st }

/-- The state that a step leaves: memory is the old memory with the step's writes, and nothing else changes it. -/
def commit (s : State) (e : Eff) : State := { e.st with mem := s.mem.applyAll e.wr }

/-- The step that leaves an effect. -/
def done (s : State) (e : Eff) : Host.Outcome State Fault Refusal := .next (commit s e)

/-- A step that cannot be taken now leaves the state as it is (log entry 6). -/
def stutter (s : State) : Host.Outcome State Fault Refusal := .next s

end Sys2Proof.Machine
end

