-- ==== Sys2Proof/Machine/Ops.lean ====
section
/-! DEFINITION. The named operations over contexts, registers, addresses, translations, owner bits and traps that the
meanings share (spec/01_machine.md, spec/05_local_memory.md, spec/21_isolation.md, spec/22_recovery.md). -/

namespace Sys2Proof.Machine

/-! ### Cores and contexts -/

/-- The core that a list holds under a number; a core not listed is as before any launch. -/
def coresGet : List (Nat × Core) → Nat → Core
  | [], _ => Core.fresh
  | (a, c) :: r, n => if a = n then c else coresGet r n

/-- A list of cores with one core set, in rising order of numbers. -/
def coresSet : List (Nat × Core) → Nat → Core → List (Nat × Core)
  | [], n, c => [(n, c)]
  | (a, d) :: r, n, c =>
    if n < a then (n, c) :: (a, d) :: r
    else if n = a then (n, c) :: r
    else (a, d) :: coresSet r n c

/-- Core `n` (R8; a CSC for `n` from 4096). -/
def State.core (s : State) (n : Fin 4112) : Core := coresGet s.cores n.val

/-- The state with a core set. -/
def State.setCore (s : State) (n : Fin 4112) (c : Core) : State := { s with cores := coresSet s.cores n.val c }

/-- The state with a core changed. -/
def State.modCore (s : State) (n : Fin 4112) (f : Core → Core) : State := s.setCore n (f (s.core n))

/-- A context of a core. -/
def Core.at (c : Core) (i : Fin 4) : Ctx := c.ctx.get i

/-- A core with a context set. -/
def Core.setAt (c : Core) (i : Fin 4) (x : Ctx) : Core := { c with ctx := c.ctx.set i.val x i.isLt }

/-- A context of the device. -/
def State.ctx (s : State) (c : Cid) : Ctx := (s.core c.core).at c.ctx

/-- The state with a context set. -/
def State.setCtx (s : State) (c : Cid) (x : Ctx) : State := s.setCore c.core ((s.core c.core).setAt c.ctx x)

/-- The state with a context changed. -/
def State.modCtx (s : State) (c : Cid) (f : Ctx → Ctx) : State := s.setCtx c (f (s.ctx c))

/-- The effect with a context changed. -/
def Eff.ctx (e : Eff) (c : Cid) (f : Ctx → Ctx) : Eff := e.on (fun s => s.modCtx c f)

/-- The cluster of a core; a CSC belongs to the cluster whose number it bears (R8, R9). -/
def clusterOf (n : Fin 4112) : Fin 16 := if n.val < 4096 then Fin.ofNat 16 (n.val / 256) else Fin.ofNat 16 (n.val - 4096)

/-- The core index in the cluster (R8). -/
def coreIx (n : Fin 4112) : Nat := n.val % 256

/-- Whether a context runs at firmware privilege (R331): a CSC's. -/
def isCsc (c : Cid) : Bool := 4096 ≤ c.core.val

/-- The cluster state. -/
def State.clu (s : State) (c : Fin 16) : Cluster := s.clus.get c

/-- The state with a cluster changed. -/
def State.modClu (s : State) (c : Fin 16) (f : Cluster → Cluster) : State :=
  { s with clus := s.clus.set c.val (f (s.clus.get c)) c.isLt }

/-! ### Registers -/

/-- s registers: s0 reads zero (R12). -/
def Ctx.readS (c : Ctx) (i : Fin 64) : Word := if i = 0 then 0 else c.s.get i

/-- s registers: a write to s0 is discarded (R12, R31). -/
def Ctx.writeS (c : Ctx) (i : Fin 64) (x : Word) : Ctx :=
  if i = 0 then c else { c with s := c.s.set i.val x i.isLt }

/-- Write a v register. -/
def Ctx.writeV (c : Ctx) (i : Fin 32) (x : Vec) : Ctx := { c with v := c.v.set i.val x i.isLt }

/-- Write a lane mask. -/
def Ctx.writeM (c : Ctx) (i : Fin 8) (x : Word) : Ctx := { c with m := c.m.set i.val x i.isLt }

/-- Write a predicate. -/
def Ctx.writeC (c : Ctx) (i : Fin 4) (x : Bool) : Ctx := { c with c := c.c.set i.val x i.isLt }

/-- Stage predicate psi is P[(i + B) mod 8] (R71). -/
def Ctx.ps (c : Ctx) (i : Nat) : Bool := c.psP.getLsbD ((i + c.psB.toNat) % 8)

/-- The window ps7..ps0 as eight bits (R71). -/
def Ctx.window (c : Ctx) : BitVec 8 := BitVec.ofNat 8 (((List.range 8).map (fun i => (c.ps i).toNat * 2 ^ i)).sum)

/-- The physical bits that show a window `w` from base `b` (R71). -/
def physOf (w : BitVec 8) (b : BitVec 3) : BitVec 8 :=
  BitVec.ofNat 8 (((List.range 8).map (fun i => (w.getLsbD i).toNat * 2 ^ ((i + b.toNat) % 8))).sum)

/-- PSW (R71): the window in bits 7 to 0, the base in bits 10 to 8. -/
def Ctx.psw (c : Ctx) : Word := (c.psB ++ c.window).setWidth 64

/-- The latches of a unit. -/
def Ctx.latch (c : Ctx) (u : Fin 15) : Latch := c.lat.get u

/-- A context with a unit's latches changed. -/
def Ctx.modLatch (c : Ctx) (u : Fin 15) (f : Latch → Latch) : Ctx :=
  { c with lat := c.lat.set u.val (f (c.lat.get u)) u.isLt }

/-- Mark an s register pending or not; s0 never is (R75). -/
def Ctx.pendingS (c : Ctx) (i : Fin 64) (b : Bool) : Ctx :=
  if i = 0 then c
  else { c with pendS := if b then c.pendS ||| ((1 : BitVec 64) <<< i.val) else c.pendS &&& ~~~((1 : BitVec 64) <<< i.val) }

/-- Mark a v register pending or not. -/
def Ctx.pendingV (c : Ctx) (i : Fin 32) (b : Bool) : Ctx :=
  { c with pendV := if b then c.pendV ||| ((1 : BitVec 32) <<< i.val) else c.pendV &&& ~~~((1 : BitVec 32) <<< i.val) }

/-- Mark a predicate pending or not (R159). -/
def Ctx.pendingC (c : Ctx) (i : Fin 4) (b : Bool) : Ctx :=
  { c with pendC := if b then c.pendC ||| ((1 : BitVec 4) <<< i.val) else c.pendC &&& ~~~((1 : BitVec 4) <<< i.val) }

/-- Set sticky flags (R83). -/
def Ctx.flag (c : Ctx) (f : BitVec 9) : Ctx := { c with stat := c.stat ||| f }

/-- Record a result that becomes visible `lat` bundles on (R34). -/
def Ctx.result (c : Ctx) (u : Fin 15) (lat : Nat) (r q : Option Val) (fl : BitVec 9) : Ctx :=
  { c with pend := c.pend ++ [{ u := u, r := r, q := q, fl := fl, rem := lat - 1 }] }

/-- An operation counted in ld, st, cp or tl (0 to 3) takes the next place in the context's trigger order: the last
sixteen places of each count are kept, as many as a field of WAIT can tell apart (R229). -/
def Ctx.note (c : Ctx) (cls : Fin 4) : Ctx :=
  { c with recent := c.recent.set cls.val ((c.seq :: c.recent.get cls).take 16) cls.isLt }

/-- Record a fixed-latency store of alias class `a` that performs `lat` bundles on (R89). -/
def Ctx.store (c : Ctx) (lat : Nat) (a : Fin 4) (wr : List (Nat × Byte)) : Ctx :=
  { c with stores := c.stores ++ [{ seq := c.seq, a := a, wr := wr, rem := lat - 1 }], seq := c.seq + 1 }

/-- A value lands in an s register, which is then no longer pending (R75, R94). -/
def Ctx.landS (c : Ctx) (i : Fin 64) (x : Word) : Ctx := (c.writeS i x).pendingS i false

/-- A value lands in a v register. -/
def Ctx.landV (c : Ctx) (i : Fin 32) (x : Vec) : Ctx := (c.writeV i x).pendingV i false

/-- A value that the spec leaves open, fresh for this step (each use names its log entry). -/
def State.freeWord (s : State) : Word := (Config.free s.tick).setWidth 64

/-! ### Values of latches and moves (R32) -/

/-- The low 64 bits of a value. -/
def Val.word : Val → Word
  | .sc x => x
  | .vc x => x.setWidth 64

/-- A value as a v register takes it: a 64-bit value fills bits 63 to 0 and clears the rest. -/
def Val.vec : Val → Vec
  | .sc x => x.setWidth 1024
  | .vc x => x

/-- `n` copies of a lane. -/
def replicateLane (w : Nat) (x : Nat) : Nat → Nat
  | 0 => 0
  | n + 1 => x + 2 ^ w * replicateLane w x n

/-- A value as an operation with lanes of `w` bits reads it: a scalar broadcast gives each lane its low `w` bits. -/
def Val.lanes (w : Nat) : Val → Vec
  | .sc x => BitVec.ofNat 1024 (replicateLane w (x.toNat % 2 ^ w) (1024 / w))
  | .vc x => x

/-- A value as a 64-bit latch or a 1024-bit one holds it. -/
def Val.held (wide : Bool) (v : Val) : Val := if wide then v else .sc v.word

/-! ### Addresses (R15, R16) -/

/-- Where an address leads. -/
def classify (a : Word) : Loc :=
  let top := a.toNat / 2 ^ 56
  let low := a.toNat % 2 ^ 56
  if top = 0x80 then (if low ≤ 0x27FFF then .own low else .bad)
  else if top = 0x81 then
    (if low < 2 ^ 26 ∧ low % 2 ^ 18 ≤ 0x27FFF then .peer (low / 2 ^ 18) (low % 2 ^ 18) else .bad)
  else if top = 0x82 then (if low < 2 ^ 24 then .slice (low / 2 ^ 16) (low % 2 ^ 16) else .bad)
  else if top = 0x83 then (if low ≤ 0x3FFFFFF then .chip low else .bad)
  else if a.toNat / 2 ^ 56 = 0 ∨ a.toNat / 2 ^ 56 = 0xFF then .glob a.toNat
  else .bad

/-- Whether an address is a canonical global one (R15): bits 63 to 57 all equal bit 56. -/
def canonical (a : Word) : Bool := match classify a with | .glob _ => true | _ => false

/-- The key of a byte in a local window, for a core that names it. A CSC has no scratchpad and no cluster-shared slice of
its own, and no address reaches its private SRAM (R9, R331; log entry 19). -/
def localKey (n : Fin 4112) : Loc → Option Nat
  | .own off => if n.val < 4096 then some (coreKey n.val off) else none
  | .peer i off => some (coreKey (256 * (clusterOf n).val + i) off)
  | .slice i off => some (sliceKey (256 * (clusterOf n).val + i) off)
  | .chip off => some (chipKey off)
  | .glob _ => none
  | .bad => none

/-- Where an address leads for a core that names it: window 0x80 holds nothing for a CSC, which has no scratchpad (R9, R331;
log entry 19). -/
def locOf (n : Fin 4112) (a : Word) : Loc :=
  match classify a with
  | .own off => if n.val < 4096 then .own off else .bad
  | l => l

/-- The bytes from an address to the end of its window class (R244): how many may follow it, itself included. -/
def roomOf : Loc → Nat
  | .own off => 0x28000 - off
  | .peer _ off => 0x28000 - off
  | .slice _ off => 0x10000 - off
  | .chip off => 0x4000000 - off
  | .glob va => if va < 2 ^ 56 then 2 ^ 56 - va else 2 ^ 64 - va
  | .bad => 0

/-- Whether `n` bytes from an address lie in the window class of the address. -/
def extentOk (a : Word) (n : Nat) : Bool :=
  match classify a with
  | .bad => false
  | l => n ≤ roomOf l

/-- The same for a core that names the address: a CSC names none in window 0x80. -/
def extentIn (n : Fin 4112) (a : Word) (len : Nat) : Bool := extentOk a len && locOf n a != .bad

/-- Whether an address lies in an active or dying window's backing of its core (R99, R101). -/
def backing (c : Core) (off : Nat) : Bool :=
  c.wins.toList.any (fun w => match w with
    | some w => w.boff ≤ off && off < w.boff + 2 ^ w.slog
    | none => false)

/-- The key of a byte that a fixed-latency operation reaches (R88): own scratchpad outside window backing, or the own
cluster-shared slice. -/
def fixedKey (s : State) (n : Fin 4112) (a : Word) : Option Nat :=
  match classify a with
  | .own off => if n.val < 4096 ∧ backing (s.core n) off = false then some (coreKey n.val off) else none
  | .slice i off => if n.val < 4096 ∧ i = coreIx n then some (sliceKey n.val off) else none
  | _ => none

/-! ### Lines at the slices (R18, R20, R21) -/

/-- The home slice of a line of device memory (R18). -/
def homeSlice (p : Nat) : Nat := (p / 2 ^ 12 ^^^ p / 2 ^ 19 ^^^ p / 2 ^ 26 ^^^ p / 2 ^ 33) % 128

/-- Whether a way of a slice is in rink mode: it belongs to a set, and the RKON of the set is not still to switch the slice
(R21, R210). -/
def State.rinkWay (s : State) (i way : Nat) : Bool :=
  8 ≤ way && s.sets.any (fun r => r.wm.getLsbD (way - 8) && r.slices.any (fun x => x.val == i) &&
    !s.cmds.any (fun c => c.bus == 14 && c.t == 0 && c.st == .started && c.prog == r.handle &&
      c.slices.any (fun x => x.val == i)))

/-- The way in which the home slice of a line of device memory keeps it on an occasion: any that is not in rink mode (R21,
R210; log entry 34). -/
def State.wayFor (s : State) (k occasion : Nat) : Nat :=
  let ways := (List.range 16).filter (fun w => !s.rinkWay (homeSlice k) w)
  ways.getD ((Config.lineWay (k / 128) occasion).toNat % ways.length) 0

/-! ### Translation (R333, R334, R373, R374) -/

/-- The page of a list that holds an address under a PASID. -/
def pageFind (pasid : BitVec 20) (va : Nat) : List (BitVec 20 × Page) → Option Page
  | [] => none
  | (p, g) :: r => if p = pasid ∧ g.va ≤ va ∧ va < g.va + 2 ^ g.lg then some g else pageFind pasid va r

/-- Whether a port reaches a peer device (R373). -/
def reaches (s : State) (dev : Nat) : Bool := s.ports.toList.any (fun p => p.up && p.peer.toNat == dev)

/-- The new home of a line that a migration has moved (R261). -/
def forwarded (s : State) (p : Nat) : Nat :=
  match s.migrs.find? (fun m => m.old ≤ p && p < m.old + 4096 && m.moved.any (fun l => l.val == (p - m.old) / 128)) with
  | some m => m.new + (p - m.old)
  | none => p

/-- A translated address as a memory key (R332, R373). -/
def physKey (s : State) (a : Nat) : Xl :=
  let gib := 2 ^ 30
  if a < 768 * gib then (if a < 766 * gib then .ok (forwarded s a) else .absent)
  else if a / 2 ^ 56 = 0xC0 ∧ a / 2 ^ 40 % 256 = 0 ∧ a % 2 ^ 40 < 766 * gib then
    let dev := a / 2 ^ 48 % 256
    if dev = s.devnum.toNat then .ok (forwarded s (a % 2 ^ 40))
    else if reaches s dev then .ok (peerKey dev (a % 2 ^ 40)) else .noPort
  else .absent

/-- The page that translates an address: a cached translation of the cluster, or else the host's latest reply, which may
be that the page is not present. -/
def findPage (s : State) (clu : Fin 16) (pasid : BitVec 20) (va : Nat) : Option Page :=
  match pageFind pasid va (s.clu clu).atc with
  | some g => some g
  | none => pageFind pasid va s.pages

/-- A translation for reading, or for writing where `wr` (R333): a reply that the page is not present permits neither;
while no reply is known the requester waits. -/
def translate (s : State) (clu : Fin 16) (pasid : BitVec 20) (va : Nat) (wr : Bool) : Xl :=
  match findPage s clu pasid va with
  | none => .wait
  | some g => if (if wr then g.wr else g.rd) then physKey s (g.pa + (va - g.va)) else .absent

/-- A translation for instruction fetch (R27): reading, and execution where the host reports it. -/
def translateX (s : State) (clu : Fin 16) (pasid : BitVec 20) (va : Nat) : Xl :=
  match findPage s clu pasid va with
  | none => .wait
  | some g => if g.rd && g.ex.getD true then physKey s (g.pa + (va - g.va)) else .absent

/-- The key of a byte of an engine's, MX's or a rink command's access (R190, R244): a local window, or memory through
the cluster's ATC. -/
def accessKey (s : State) (n : Fin 4112) (pasid : BitVec 20) (a : Word) (wr : Bool) : Xl :=
  match classify a with
  | .glob va => translate s (clusterOf n) pasid va wr
  | l => match localKey n l with
    | some k => .ok k
    | none => .absent

/-- Whether a context counts as having acknowledged an invalidation request (R338). -/
def Ctx.acked (c : Ctx) (num : Nat) : Bool :=
  num < c.ack || c.st == .out || c.st == .idle || c.st == .joining || c.st == .halted || c.st == .resuming

/-- Whether an outstanding invalidation that the context has acknowledged names a global extent: the context does not use
the old translation any more, so its accesses there wait until the invalidation completes (R339, R340). -/
def State.turned (s : State) (cid : Cid) (a : Word) (len : Nat) : Bool :=
  match classify a with
  | .glob va => !isCsc cid && s.invals.any (fun q => q.pasid == (s.ctx cid).pasid && (s.ctx cid).acked q.num &&
      decide (va < q.hi) && decide (q.lo < va + len))
  | _ => false

/-- The addresses of an extent at which a page or the extent begins: one for each 4 KiB page touched. -/
def pageStarts (a : Word) (n : Nat) : List Word :=
  if n = 0 then []
  else a :: ((List.range ((a.toNat % 4096 + n - 1) / 4096)).map
    (fun i => BitVec.ofNat 64 ((a.toNat / 4096 + i + 1) * 4096)))

/-- The first address of an extent that does not translate, with the answer there. -/
def firstBad (s : State) (n : Fin 4112) (pasid : BitVec 20) (a : Word) (len : Nat) (wr : Bool) : Option (Word × Xl) :=
  (pageStarts a len).findSome? (fun p => match accessKey s n pasid p wr with
    | .ok _ => none
    | x => some (p, x))

/-- Bytes that an access path reads: zero where an address does not translate (the callers check first). -/
def readBytes (s : State) (n : Fin 4112) (pasid : BitVec 20) (a : Word) (len : Nat) : List Byte :=
  (List.range len).map (fun i =>
    match accessKey s n pasid (a + BitVec.ofNat 64 i) false with
    | .ok k => s.mem.get k
    | _ => 0)

/-- The writes of an access path that lays bytes from an address upward. -/
def writeBytes (s : State) (n : Fin 4112) (pasid : BitVec 20) (a : Word) (bs : List Byte) : List Wr :=
  (bs.zipIdx).filterMap (fun p =>
    match accessKey s n pasid (a + BitVec.ofNat 64 p.2) true with
    | .ok k => some (.byte k p.1)
    | _ => none)

/-- The words of a structure that an access path reads. -/
def readWords (s : State) (n : Fin 4112) (pasid : BitVec 20) (a : Word) (count : Nat) : List Word :=
  (List.range count).map (fun i =>
    BitVec.ofNat 64 (leNat (readBytes s n pasid (a + BitVec.ofNat 64 (8 * i)) 8)))

/-! ### Owner bits (R97) -/

/-- The release count of a granule: 0 in state C. -/
def ownGet : List (Nat × Nat) → Nat → Nat
  | [], _ => 0
  | (a, k) :: r, g => if a = g then k else ownGet r g

/-- A granule's count set; a granule in state C is not listed. -/
def ownSet : List (Nat × Nat) → Nat → Nat → List (Nat × Nat)
  | [], g, k => if k = 0 then [] else [(g, k)]
  | (a, j) :: r, g, k =>
    if g < a then (if k = 0 then (a, j) :: r else (g, k) :: (a, j) :: r)
    else if g = a then (if k = 0 then r else (g, k) :: r)
    else (a, j) :: ownSet r g k

/-- Whether an engine access is performing on a granule: a sector in flight of an engine command lies in it (R97). -/
def State.granuleBusy (s : State) (g : Nat) : Bool :=
  s.flight.any (fun f => (match f.of with | .cmd _ => true | _ => false) &&
    (f.wr.any (fun p => granuleOf p.1 == g) || f.src.any (fun k => k.any (fun k => granuleOf k == g))))

/-- Whether engine work that reaches a granule finds it in state E (R97). -/
def State.engineMay (s : State) (g : Nat) : Bool := ownGet s.own g != 0

/-- Whether a granule is in state E for the contexts: its change to C becomes visible once the engine accesses that are
performing on it have performed (R97). -/
def State.engineOwns (s : State) (g : Nat) : Bool := s.engineMay g || s.granuleBusy g

/-- The key ranges that owner bits cover (R19): scratchpads of stream cores, cluster-shared slices, chip scratchpad. -/
def hasOwner (k : Nat) : Bool :=
  (0x1000000000000 ≤ k && k < 0x4000000000000) && !(coreKey 4096 0 ≤ k && k < 0x2000000000000)

/-- The granules of an extent of keys. -/
def granulesOf (k n : Nat) : List Nat :=
  if n = 0 then [] else (List.range ((k + n - 1) / 1024 - k / 1024 + 1)).map (fun i => k / 1024 + i)

/-- Whether any byte of an extent of keys lies in the backing of a window of the core that holds it, active or dying
(R334): only accesses through the window reach it. -/
def backed (s : State) (k n : Nat) : Bool :=
  if coreKey 0 0 ≤ k ∧ k < coreKey 4096 0 then
    let c := coresGet s.cores ((k - coreKey 0 0) / 0x40000)
    let off := (k - coreKey 0 0) % 0x40000
    c.wins.toList.any (fun w => match w with
      | some w => decide (n ≠ 0) && decide (w.boff < off + n) && decide (off < w.boff + 2 ^ w.slog)
      | none => false)
  else false

/-- Whether any byte of an extent of keys lies in an engine-owned granule. -/
def heldByEngine (s : State) (k n : Nat) : Bool := hasOwner k && (granulesOf k n).any s.engineOwns

/-- Whether an access that is not made through a window must wait at an extent of keys: an engine owns a granule of it
(R94, R237), or it lies in a window's backing (R334, log entry 63). -/
def keyHeld (s : State) (k n : Nat) : Bool := heldByEngine s k n || backed s k n

/-- The grant that an engine command brings (R97): E with count 1, or one more, at most 255. -/
def grantOne (o : List (Nat × Nat)) (g : Nat) : List (Nat × Nat) := ownSet o g (min 255 (ownGet o g + 1))

/-- The release at an engine command's completion (R97): one less, down to C. -/
def releaseOne (o : List (Nat × Nat)) (g : Nat) : List (Nat × Nat) := ownSet o g (ownGet o g - 1)

/-- The granules of an extent of `n` bytes that the command of core `c` names, where the core holds them: own
scratchpad and own cluster-shared slice (R97). -/
def ownGranules (c : Fin 4112) (a : Word) (n : Nat) : List Nat :=
  match classify a with
  | .own _ | .slice _ _ | .peer _ _ =>
    match localKey c (classify a) with
    | some k =>
      if k / 0x40000 = (coreKey c.val 0) / 0x40000 ∨ (sliceKey c.val 0 ≤ k ∧ k < sliceKey c.val 0x10000) then granulesOf k n
      else []
    | none => []
  | _ => []

/-- All the granules of an extent in memories that have owner bits. -/
def allGranules (c : Fin 4112) (a : Word) (n : Nat) : List Nat :=
  match localKey c (classify a) with
  | some k => granulesOf k n
  | none => []

/-- Granules without repeats. -/
def dedup : List Nat → List Nat
  | [] => []
  | g :: r => if r.contains g then dedup r else g :: dedup r

/-! ### Sectors in flight (R240; log entry 9) -/

/-- Whether an accepted atomic that has not performed holds a byte of an extent of keys (R242). -/
def atomicHeld (s : State) (k n : Nat) : Bool :=
  s.cmds.any (fun c => c.st == .accepted && k / 32 ≤ c.key / 32 && c.key / 32 ≤ (k + n - 1) / 32)

/-- A byte written joins the group of its sector. -/
def groupSector (k : Nat) (b : Byte) : List (List (Nat × Byte)) → List (List (Nat × Byte))
  | [] => [[(k, b)]]
  | g :: r => if (g.headD (k, b)).1 / 32 = k / 32 then (g ++ [(k, b)]) :: r else g :: groupSector k b r

/-- Bytes written, sector by sector. -/
def sectorGroups (ws : List Wr) : List (List (Nat × Byte)) :=
  ws.foldl (fun a w => match w with | .byte k b => groupSector k b a | .clear _ _ => a) []

/-- The sectors in flight of one command, MX or windows. -/
def State.flightsOf (s : State) (of : FlightOf) : List Flight := s.flight.filter (fun f => f.of == of)

/-- What a sector in flight writes when it performs. -/
def Flight.writes (f : Flight) (m : Mem) : List Wr :=
  if f.src.isEmpty then wrPairs f.wr else (f.wr.zip f.src).map (fun p => .byte p.1.1 ((p.2.map m.get).getD p.1.2))

/-- A sector in flight of the unit of work of `f`, once every sector from which `f` reads has been read: whole, and once (R240,
R267). -/
def Flight.fix (m : Mem) (f g : Flight) : Flight :=
  if g.of = f.of ∧ g.grp = f.grp then
    let now (k : Option Nat) : Bool := k.any (fun k => f.src.any (fun j => j.any (fun j => j / 32 == k / 32)))
    { g with wr := if g.src.isEmpty then g.wr else (g.wr.zip g.src).map (fun p => if now p.2 then (p.1.1, (p.2.map m.get).getD 0) else p.1)
             src := g.src.map (fun k => if now k then none else k) }
  else g

/-- Some sectors in flight perform, in the order given, and are in flight no more. -/
def Eff.performFlights (e : Eff) (fs : List Flight) : Eff :=
  (e.put (fs.flatMap (fun f => f.writes e.st.mem))).on (fun s => { s with flight := fs.foldl (fun a f => a.erase f) s.flight })

/-- Everything that is in flight of one command, MX or windows performs. -/
def Eff.landFlights (e : Eff) (of : FlightOf) : Eff := e.performFlights (e.st.flightsOf of)

/-- Writes of an engine command, of MX or of a window: they perform in this step, after what is still in flight of the same
one, or, where the step says so, each sector of them performs in a later one. -/
def Eff.lay (e : Eff) (of : FlightOf) (ws : List Wr) : Eff :=
  if e.st.act.later then
    e.on (fun s => { s with flight := s.flight ++ (sectorGroups ws).map (fun g => { of := of, wr := g, src := [], grp := 0 }) })
  else (e.landFlights of).put ws

/-- The sectors written by bytes that are copied from one key to another, each with the keys that it reads. -/
def sectorCopies (ps : List (Nat × Nat)) : List (List (Nat × Nat)) :=
  (dedup (ps.map (fun p => p.2 / 32))).map (fun z => ps.filter (fun p => p.2 / 32 == z))

/-- Bytes that an engine command copies unchanged in the unit of work `grp`, as pairs of the key read and the key written: now,
or, where the step says so, each sector written in a later one, with each sector read whole as the first that needs it
performs (R267). -/
def Eff.layCopy (e : Eff) (of : FlightOf) (grp : Nat) (pieces : List (List (Nat × Nat))) : Eff :=
  if e.st.act.later then
    e.on (fun s => { s with flight := s.flight ++ (sectorCopies pieces.flatten).map (fun g =>
      { of := of, wr := g.map (fun p => (p.2, 0)), src := g.map (fun p => some p.1), grp := grp }) })
  else
    let e := e.landFlights of
    pieces.foldl (fun e g => e.put (g.map (fun p => .byte p.2 (e.st.mem.get p.1)))) e

/-- Whether a sector in flight may perform: none of the same command, MX or windows before it writes the same sector
(R268). -/
def flightMay (fs : List Flight) (j : Nat) : Bool :=
  match fs[j]? with
  | some f => (fs.take j).all (fun g => g.wr.all (fun p => f.wr.all (fun q => q.1 / 32 != p.1 / 32)))
  | none => false

/-- The sectors that one in flight reads are read, for the whole of its unit of work. -/
def Eff.readFlight (e : Eff) (of : FlightOf) (j : Nat) : Eff :=
  match (e.st.flightsOf of)[j]? with
  | some f => if f.src.isEmpty then e else e.on (fun s => { s with flight := s.flight.map (Flight.fix s.mem f) })
  | none => e

/-- One sector in flight performs, after the sectors that it reads have been read. -/
def Eff.landFlight (e : Eff) (of : FlightOf) (j : Nat) : Eff :=
  let e := e.readFlight of j
  e.performFlights (((e.st.flightsOf of)[j]?).toList)

/-- One sector in flight of a command, of MX or of a window performs, where none before it holds it back (R240). -/
def State.landOne (s : State) (of : FlightOf) (j : Nat) : Host.Outcome State Fault Refusal :=
  if flightMay (s.flightsOf of) j then done s ((Eff.start s).landFlight of j) else stutter s

/-- What tree operations have read ahead is given up: one has written nodes, or a translation has gone (R243, R340). -/
def Eff.dropSeen (e : Eff) : Eff := e.on (fun s => { s with cmds := s.cmds.map (fun m => if m.bus = 11 then { m with seen := [] } else m) })

/-! ### TIME (R84) -/

/-- The state with TIME brought up to date: it never decreases, and stands still at its largest value (log entry 10). -/
def State.clock (s : State) : State :=
  { s with time := BitVec.ofNat 64 (min (2 ^ 64 - 1) (s.time.toNat + Config.elapse s.tick)), tick := s.tick + 1 }

/-- Raise an MSI-X vector (R365). -/
def State.msi (s : State) (v : Fin 8) : State :=
  { s with host := { s.host with msix := s.host.msix.set v.val (s.host.msix.get v + 1) v.isLt } }

/-! ### The causes of traps (R347) -/

/-- The cause numbers of R347. -/
def causeIlleg : Nat := 1
/-- PRIV. -/
def causePriv : Nat := 2
/-- ADDRCLASS. -/
def causeAddr : Nat := 3
/-- ASSIST. -/
def causeAssist : Nat := 4
/-- FATAL_UNMAPPED. -/
def causeUnmapped : Nat := 5
/-- FATAL_UNPROBED. -/
def causeUnprobed : Nat := 6
/-- OWNER_DBG. -/
def causeOwner : Nat := 7
/-- PEND_DBG. -/
def causePend : Nat := 8
/-- GROUP_BROKEN. -/
def causeGroup : Nat := 9
/-- RAS_CTX. -/
def causeRas : Nat := 10
/-- TRAP_SW. -/
def causeSw : Nat := 11

/-! ### The end of a launch (R78, R319, R347) -/

/-- Stop a context at a bundle boundary and discard its state: its streams and its claims are released. -/
def Ctx.stop (c : Ctx) : Ctx := { c with st := .out, w := Vector.replicate 8 none }

/-- Whether a fault-queue entry is the launch's: it names no command of a CSC. -/
def State.launchEntry (s : State) (f : FqEnt) : Bool := s.cmds.all (fun m => m.uid != f.uid || !isCsc m.cid)

/-- Every context of every stream core stopped, and the work that has not started dropped; the entries of the fault
queues are discarded (R78, R319, R361). Started work finishes as it does under pre-emption, before the steps of R330. -/
def State.stopAll (s : State) : State :=
  { s with
    clus := s.clus.map (fun c => { c with fq := c.fq.filter (fun f => !s.launchEntry f) })
    cores := s.cores.map (fun p =>
      if p.1 < 4096 then
        (p.1, { p.2 with ctx := p.2.ctx.map Ctx.stop, kbq := [], mxq := [], pair := { p.2.pair with holder := none } })
      else p)
    cmds := s.cmds.filter (fun c => isCsc c.cid || (c.st != .queued && c.st != .held))
    rings := [], arrivals := [] }

/-- End the running launch with a report (R319, R347, R367); the steps of R330 are then left. A detected fault that
firmware has already acted on is what is reported (R363). -/
def State.endLaunch (s : State) (k : EndKind) (cause : Nat) (cid : Cid) (code : Word) : State :=
  if s.launch.st = .running ∧ !s.launch.clearing then
    let k := if s.launch.fault.isSome then .fault else k
    let cause := if s.launch.fault.isSome then causeRas else cause
    let cid := (s.launch.fault.map (·.1)).getD cid
    let code := (s.launch.fault.map (·.2)).getD code
    { s.stopAll with
      launch := { s.launch with
        clearing := true, checking := false, fault := none, fin := k, ccode := code,
        cause := if k = .trap ∨ k = .fault then cause else 0,
        devcore := if k = .root then 0 else cid.core.val,
        ctx := if k = .root ∨ cid.core.val = 0 then 0 else cid.ctx.val } }
  else s

/-- A detected fault is kept for the launch's report, with the context that is to take it (0 of core 0 for none); the first
one is reported (R363, R367). -/
def State.launchFault (s : State) (cid : Cid) (code : Word) : State :=
  if s.launch.st = .running ∧ !s.launch.clearing ∧ s.launch.fault.isNone then
    { s with launch := { s.launch with fault := some (cid, code) } }
  else s

/-! ### Taking a trap (R347, R348) and returning from it (R350) -/

/-- Where a bus address leads (R370): an address inside the device's own second BAR is device physical memory below
766 GiB, forwarded where a migration has moved the line (R371); every other is memory that the host lets the device reach. -/
def busPlace (s : State) (a : Nat) : Option Nat :=
  if Config.bar2 ≤ a ∧ a < Config.bar2 + 2 ^ 40 then
    (if a - Config.bar2 < 766 * 2 ^ 30 then some (forwarded s (a - Config.bar2)) else none)
  else some (busKey a)

/-- The writes of the device management core, as a bus master, at a bus address. -/
def busWrites (s : State) (a : Nat) (bs : List Byte) : List Wr :=
  bs.zipIdx.filterMap (fun p => (busPlace s (a + p.2)).map (fun k => .byte k p.1))

/-- The host trap log (R369): one entry in the ring at TLOGB, TLOGW, and vector 1; nothing while TLOGB is 0. -/
def Eff.logTrap (e : Eff) (cid : Cid) (cause : Nat) (arg : Word) : Eff :=
  let h := e.st.host
  if h.tlogb.toNat / 4096 = 0 then e
  else
    let n := if h.tlogb.toNat % 16 < 4 then 4 else h.tlogb.toNat % 16
    let e := e.on State.clock
    let a := h.tlogb.toNat / 4096 * 4096 + 32 * (h.tlogw.toNat % 2 ^ n)
    let w0 := cause % 256 + cid.ctx.val * 256 + cid.core.val % 4096 * 65536
    (e.put (busWrites e.st a (leBytes 8 w0 ++ leBytes 8 e.st.launch.seqno.toNat ++ leBytes 8 arg.toNat
      ++ leBytes 8 e.st.time.toNat))).on
      (fun s => ({ s with host := { s.host with tlogw := s.host.tlogw + 1 } } : State).msi 1)

/-- The RAS_CTX of the context that the launch's report is to name is in the trap log too, where another context's trap reaches
firmware before it (R347, R363). -/
def Eff.logReported (e : Eff) (cid : Cid) : Eff :=
  match e.st.launch.fault with
  | some (f, code) =>
    if f ≠ cid ∧ (e.st.ctx f).st = .halting ∧ (e.st.ctx f).trap.any (fun t => t.cause == causeRas && t.arg == code) then
      e.logTrap f causeRas code
    else e
  | none => e

/-- What firmware does with a trap that reaches it, once the context is saved (R347, R348): log it, unless it is an
ASSIST; hold the context for an attached debugger; or end the launch, where the boundary traps that were due beside it
are logged too. Pre-emption (cause 0) is no trap. -/
def Eff.firmware (e : Eff) (cid : Cid) (cause : Nat) (arg : Word) : Eff :=
  let e := if cause = 0 ∨ cause = causeAssist then e else e.logTrap cid cause arg
  if cause = 0 ∨ cause = causeAssist ∨ cause = causeSw then e
  else if (cause = causeOwner ∨ cause = causePend) ∧ e.st.host.dbg then e.ctx cid (fun c => { c with dbgHold := true })
  else
    let e := (e.st.ctx cid).due.foldl (fun e x => e.logTrap cid x.1 x.2) e
    (e.logReported cid).on (fun s => s.endLaunch (if cause = causeRas then .fault else .trap) cause cid arg)

/-- A context halts at a bundle boundary (R348, R356): `pc` holds the resume address, the cause (0 for pre-emption) and
the argument are recorded, and a pending transfer stays with its bundles left. -/
def Ctx.halt (c : Ctx) (cause : Nat) (arg : Word) : Ctx :=
  { c with st := .halting, trap := some ⟨cause, arg, none⟩, blocked := false, quiet := false, preempt := false }

/-- TAKING A TRAP: the context halts, and its save sequence is left, after which the trap reaches firmware (R348). -/
def Eff.takeTrap (e : Eff) (cid : Cid) (cause : Nat) (arg : Word) : Eff := e.ctx cid (fun c => c.halt cause arg)

/-- RETURN FROM A TRAP (R350): a context that is halted by a trap or by pre-emption, whose launch has not ended and that
no debugger holds, starts its resume sequence; otherwise nothing. -/
def State.eret (s : State) (cid : Cid) : State :=
  if (s.ctx cid).st = .halted ∧ s.launch.st = .running ∧ !s.launch.clearing ∧ !(s.ctx cid).dbgHold then
    s.modCtx cid (fun c => { c with st := .resuming })
  else s

/-- A boundary trap becomes due (R348). -/
def Ctx.addDue (c : Ctx) (cause : Nat) (arg : Word) : Ctx := { c with due := c.due ++ [(cause, arg)] }

end Sys2Proof.Machine
end

