-- ==== Sys2Proof/Machine/Operands.lean ====
section
/-! DEFINITION. Every operand form of a move (spec/02_bundles.md R28 to R32): guards, sources, pops and destinations. -/

namespace Sys2Proof.Machine

/-- A guard's value before the bundle (R28). -/
def Ctx.guard (c : Ctx) : Guard → Bool
  | .always => true
  | .ps i => c.ps i.val
  | .c i => c.c.get i
  | .nc i => !(c.c.get ⟨i.val, by omega⟩)

/-- Whether a guard names a pending predicate (R28, R35). -/
def Ctx.guardPending (c : Ctx) : Guard → Bool
  | .c i => c.pendC.getLsbD i.val
  | .nc i => c.pendC.getLsbD i.val
  | _ => false

/-- Stochastic rounding is enabled (R82 SRE). -/
def Ctx.sre (c : Ctx) : Bool := c.fpc.getLsbD 3

/-- The random word that a pop delivers: zero while SRE is 0 (R82). -/
def Ctx.rndWord (c : Ctx) : Word := if c.sre then c.rbq.headD 0 else 0

/-- Take one word from the random-bit queue; N names the next one (R84). -/
def Ctx.rndTake (c : Ctx) : Ctx := if c.sre then { c with rbq := c.rbq.tail, rbn := c.rbn + 1 } else c

/-- Whether the next vector of a stream is one that it has still to produce (R183). A stream whose position a WSKIP has moved
to the total counts as such while it is ACTIVE (log entry 68). -/
def Strm.owes (st : Strm) : Bool := st.vecs.isEmpty && (st.st == .active || st.popped < st.made)

/-- Whether a pop of wn must wait (R183): the next vector is not yet produced, and no fill for it has failed. -/
def Ctx.popWaits (c : Ctx) (n : Fin 8) : Bool :=
  match c.w.get n with
  | some st => st.owes && st.miss.isNone
  | none => false

/-- The address of a pop's FATAL_UNPROBED (R183): its vector cannot be filled, since a window fill found a page that is
not present. -/
def Ctx.popMiss (c : Ctx) : Src → Option Word
  | .pop n => match c.w.get n with
    | some st => if st.owes then st.miss else none
    | none => none
  | _ => none

/-- The vector that a pop of wn delivers (R183): zero where the stream is unbound or has none left. -/
def Ctx.popValue (c : Ctx) (n : Fin 8) : Vec :=
  match c.w.get n with
  | some st => st.vecs.headD 0
  | none => 0

/-- The flag of a pop (R183): SERR for an unbound stream. It is set after a CSRWR of STAT in the same bundle (R83). -/
def Ctx.popFlag (c : Ctx) : Src → BitVec 9
  | .pop n => if (c.w.get n).isNone then 0x80 else 0
  | _ => 0

/-- What a pop of wn changes (R183): POPPED for a vector, OVER past the end. -/
def Ctx.popTake (c : Ctx) (n : Fin 8) : Ctx :=
  match c.w.get n with
  | none => c
  | some st =>
    let st' := match st.vecs with
      | _ :: r => { st with vecs := r, marks := st.marks.tail, popped := st.popped + 1 }
      | [] => { st with ovr := min 63 (st.ovr + 1) }
    { c with w := c.w.set n.val (some st') n.isLt }

/-- A source as it stood before the bundle (R29). -/
def Ctx.source (c : Ctx) : Src → Val
  | .s i => .sc (c.readS i)
  | .v i => .vc (c.v.get i)
  | .pop n => .vc (c.popValue n)
  | .m i => .sc (c.m.get i)
  | .c i => .sc (BitVec.ofNat 64 (c.c.get i).toNat)
  | .psw => .sc c.psw
  | .latR u => (c.latch u).r
  | .latQ u => (c.latch u).q
  | .rnd => .sc c.rndWord
  | .l0 x => .sc (x.signExtend 64)
  | .l1 x => .sc (x.signExtend 64)
  | .l2 x => .sc x
  | .imm x => .sc (x.signExtend 64)

/-- Whether a source names a register whose write or token has not landed (R35), or an empty queue (R36, R183). -/
def Ctx.sourceWaits (c : Ctx) : Src → Bool
  | .s i => c.pendS.getLsbD i.val
  | .v i => c.pendV.getLsbD i.val
  | .c i => c.pendC.getLsbD i.val
  | .pop n => c.popWaits n
  | .rnd => c.sre && c.rbq.isEmpty
  | _ => false

/-- Whether a destination names a register whose write or token has not landed (R35). -/
def Ctx.destWaits (c : Ctx) : Dst → Bool
  | .s i => c.pendS.getLsbD i.val
  | .v i => c.pendV.getLsbD i.val
  | .c i => c.pendC.getLsbD i.val
  | _ => false

/-- What a source takes as it is read: a word of the queue or a vector of a stream. -/
def Ctx.sourceTake (c : Ctx) : Src → Ctx
  | .pop n => c.popTake n
  | .rnd => c.rndTake
  | _ => c

/-- Write a value to a register or an operand latch (R31, R32); a trigger is the matter of its unit. -/
def Ctx.dest (c : Ctx) (d : Dst) (v : Val) : Ctx :=
  match d with
  | .s i => c.writeS i v.word
  | .v i => c.writeV i v.vec
  | .m i => c.writeM i v.word
  | .c i => c.writeC i (v.word.getLsbD 0)
  | .latch u j =>
    match j.val with
    | 0 => c.modLatch u (fun l => { l with o1 := v.held (wideO1 u.val) })
    | 1 => c.modLatch u (fun l => { l with o2 := v.held (wideO2 u.val) })
    | _ => c.modLatch u (fun l => { l with o3 := v.word })
  | .trig _ => c

end Sys2Proof.Machine
end

