-- ==== Sys2Proof/Decode.lean ====
section
/-! DEFINITION. The decoder, total on any bytes, and the encoder (spec/02_bundles.md R24 to R38, spec/03_portmap.md
R53 to R66). -/

namespace Sys2Proof

/-! ### Trigger codes, class by class (R54 to R66): code `t` to instruction; `none` where the code is reserved (R53) -/

/-- The type field of class V (R55). -/
def vtyOf : Nat → Option VTy
  | 0 => some .f32 | 1 => some .bf16 | 2 => some .f16 | 3 => some .i32 | 4 => some .i16 | 5 => some .n32
  | 6 => some .n16 | _ => none

/-- The code of a class V type. -/
def vtyCode : VTy → Nat
  | .f32 => 0 | .bf16 => 1 | .f16 => 2 | .i32 => 3 | .i16 => 4 | .n32 => 5 | .n16 => 6

/-- Whether a class V type is in the group F, I or N. -/
def vtyF : VTy → Bool | .f32 | .bf16 | .f16 => true | _ => false
/-- Group I. -/
def vtyI : VTy → Bool | .i32 | .i16 => true | _ => false
/-- Group N. -/
def vtyN : VTy → Bool | .n32 | .n16 => true | _ => false

/-- The type field of class X (R56). -/
def xtyOf : Nat → Option XTy
  | 0 => some .f32 | 1 => some .bf16 | 2 => some .f16 | _ => none

/-- The code of a class X type. -/
def xtyCode : XTy → Nat
  | .f32 => 0 | .bf16 => 1 | .f16 => 2

/-- The rounding field of a floating class P code (R58). -/
def prmOf : Nat → PRm
  | 0 => .rne | 1 => .rtz | 2 => .sr | _ => .rnes

/-- The code of a rounding field. -/
def prmCode : PRm → Nat
  | .rne => 0 | .rtz => 1 | .sr => 2 | .rnes => 3

/-- The types that are legal for operation `n` of class V (R55). -/
def vLegal (n : Nat) (ty : VTy) : Bool :=
  if n ≤ 7 then true
  else if n ≤ 9 then vtyF ty || vtyI ty
  else if n ≤ 12 then true
  else if n = 13 then vtyF ty
  else if n ≤ 18 then vtyI ty || vtyN ty
  else if n = 19 then vtyI ty
  else if n ≤ 22 then true
  else if n = 23 then vtyF ty
  else if n ≤ 29 then true
  else if n = 30 then vtyI ty || vtyN ty
  else if n = 31 then ty == .bf16 || ty == .f16 || ty == .i16
  else if n = 32 then true
  else if n = 33 then vtyI ty
  else false

/-- A number below 4 as a field value. -/
def fin4 (n : Nat) : Fin 4 := Fin.ofNat 4 n
/-- A number below 8 as a field value. -/
def fin8 (n : Nat) : Fin 8 := Fin.ofNat 8 n

/-- Class S (R54): t = 2n + W. -/
def trigS (u : Fin 2) (t : Nat) (g : Guard) (s : Src) : Option Instr :=
  match t / 2 with
  | 0 => some (.add u g s (t % 2 == 1))
  | 1 => some (.sub u g s (t % 2 == 1))
  | 2 => some (.mul u g s (t % 2 == 1))
  | 3 => some (.mulh u g s (t % 2 == 1))
  | 4 => some (.mulhu u g s (t % 2 == 1))
  | 5 => some (.div u g s (t % 2 == 1))
  | 6 => some (.divu u g s (t % 2 == 1))
  | 7 => some (.rem u g s (t % 2 == 1))
  | 8 => some (.remu u g s (t % 2 == 1))
  | 9 => some (.and u g s (t % 2 == 1))
  | 10 => some (.or u g s (t % 2 == 1))
  | 11 => some (.xor u g s (t % 2 == 1))
  | 12 => some (.andn u g s (t % 2 == 1))
  | 13 => some (.shl u g s (t % 2 == 1))
  | 14 => some (.shr u g s (t % 2 == 1))
  | 15 => some (.sar u g s (t % 2 == 1))
  | 16 => some (.rol u g s (t % 2 == 1))
  | 17 => some (.clz u g s (t % 2 == 1))
  | 18 => some (.ctz u g s (t % 2 == 1))
  | 19 => some (.popc u g s (t % 2 == 1))
  | 20 => some (.min u g s (t % 2 == 1))
  | 21 => some (.max u g s (t % 2 == 1))
  | 22 => some (.minu u g s (t % 2 == 1))
  | 23 => some (.maxu u g s (t % 2 == 1))
  | 24 => some (.cmpeq u g s (t % 2 == 1))
  | 25 => some (.cmpne u g s (t % 2 == 1))
  | 26 => some (.cmplt u g s (t % 2 == 1))
  | 27 => some (.cmpltu u g s (t % 2 == 1))
  | 28 => some (.cmple u g s (t % 2 == 1))
  | 29 => some (.cmpleu u g s (t % 2 == 1))
  | 30 => if t % 2 = 0 then some (.sel u g s) else none
  | 31 => some (.extb u g s (t % 2 == 1))
  | 32 => some (.insb u g s (t % 2 == 1))
  | 33 => if t % 2 = 0 then some (.sext u g s) else none
  | 34 => if t % 2 = 0 then some (.zext u g s) else none
  | 35 => some (.mov u g s (t % 2 == 1))
  | 36 => if t % 2 = 0 then some (.lea u g s) else none
  | 37 => some (.bswap u g s (t % 2 == 1))
  | _ => none

/-- Class V (R55): t = 8n + ty. -/
def trigV (u : Fin 2) (t : Nat) (g : Guard) (s : Src) : Option Instr :=
  match vtyOf (t % 8) with
  | none => none
  | some y => if vLegal (t / 8) y then
    match t / 8 with
    | 0 => some (.vadd u g s y)
    | 1 => some (.vsub u g s y)
    | 2 => some (.vmul u g s y)
    | 3 => some (.vfma u g s y)
    | 4 => some (.vfms u g s y)
    | 5 => some (.vnfma u g s y)
    | 6 => some (.vmin u g s y)
    | 7 => some (.vmax u g s y)
    | 8 => some (.vabs u g s y)
    | 9 => some (.vneg u g s y)
    | 10 => some (.vcmpeq u g s y)
    | 11 => some (.vcmplt u g s y)
    | 12 => some (.vcmple u g s y)
    | 13 => some (.vcmpun u g s y)
    | 14 => some (.vand u g s y)
    | 15 => some (.vor u g s y)
    | 16 => some (.vxor u g s y)
    | 17 => some (.vshl u g s y)
    | 18 => some (.vshr u g s y)
    | 19 => some (.vsar u g s y)
    | 20 => some (.vsel u g s y)
    | 21 => some (.vbcast u g s y)
    | 22 => some (.vperm u g s y)
    | 23 => some (.vtbl u g s y)
    | 24 => some (.vredadd u g s y)
    | 25 => some (.vredmax u g s y)
    | 26 => some (.vredmin u g s y)
    | 27 => some (.vscan u g s y)
    | 28 => some (.vtopk u g s y)
    | 29 => some (.vcvt u g s y)
    | 30 => some (.vmulh u g s y)
    | 31 => some (.vdot2 u g s y)
    | 32 => some (.vclamp u g s y)
    | 33 => some (.vcntm u g s y)
    | _ => none
    else none

/-- Class X (R56): t = 8n + ty. -/
def trigX (t : Nat) (g : Guard) (s : Src) : Option Instr :=
  match xtyOf (t % 8) with
  | none => none
  | some y =>
    match t / 8 with
    | 0 => some (.xrcp g s y)
    | 1 => some (.xrsq g s y)
    | 2 => some (.xsqrt g s y)
    | 3 => some (.xexp2 g s y)
    | 4 => some (.xlog2 g s y)
    | 5 => some (.xexp g s y)
    | 6 => some (.xsin g s y)
    | 7 => some (.xcos g s y)
    | 8 => some (.xtanh g s y)
    | 9 => some (.xsigm g s y)
    | 10 => some (.xgelu g s y)
    | 11 => some (.xsilu g s y)
    | 12 => some (.xdiv g s y)
    | _ => none

/-- Class U (R57): t = n. -/
def trigU (t : Nat) (g : Guard) (s : Src) : Option Instr :=
  match t with
  | 0 => some (.unpk4s g s)
  | 1 => some (.unpk4z g s)
  | 2 => some (.unpk6s g s)
  | 3 => some (.unpk6z g s)
  | 4 => some (.unpk8s g s)
  | 5 => some (.unpk8z g s)
  | 6 => some (.unpke4 g s)
  | 7 => some (.unpke5 g s)
  | 8 => some (.unpksn4 g s)
  | 9 => some (.bsread g s)
  | 10 => some (.bsinit g s)
  | 11 => some (.unpkix g s)
  | _ => none

/-- Class Y (R62): t = n. -/
def trigY (t : Nat) (g : Guard) (s : Src) : Option Instr :=
  match t with
  | 0 => some (.cpy g s)
  | 1 => some (.cpy2d g s)
  | 2 => some (.cpy3d g s)
  | 3 => some (.fill g s)
  | 4 => some (.cpst g s)
  | 5 => some (.atom g s)
  | 6 => some (.atomnr g s)
  | 7 => some (.afence g s)
  | _ => none

/-- Class G (R63): t = n. -/
def trigG (t : Nat) (g : Guard) (s : Src) : Option Instr :=
  match t with
  | 0 => some (.gathr g s)
  | 1 => some (.scatr g s)
  | 2 => some (.binput g s)
  | 3 => some (.binflush g s)
  | 4 => some (.binplay g s)
  | 5 => some (.fqcnt g s)
  | 6 => some (.tdecl g s)
  | 7 => some (.tld g s)
  | 8 => some (.tst g s)
  | 9 => some (.tadd g s)
  | 10 => some (.tscan g s)
  | 11 => some (.tnext g s)
  | 12 => some (.tclose g s)
  | 13 => some (.tdense g s)
  | 14 => some (.tcount g s)
  | 15 => some (.tpool g s)
  | _ => none

/-- Class L (R64): t = n. -/
def trigL (t : Nat) (g : Guard) (s : Src) : Option Instr :=
  match t with
  | 0 => some (.rkon g s)
  | 1 => some (.rkoff g s)
  | 2 => some (.rkldt g s)
  | 3 => some (.rkstt g s)
  | 4 => some (.rkkey g s)
  | 5 => some (.rkcmp g s)
  | 6 => some (.rkwr g s)
  | 7 => some (.rktt g s)
  | 8 => some (.rkcnt g s)
  | 9 => some (.rkfind g s)
  | 10 => some (.rkmapi g s)
  | _ => none

/-- Class P (R58): t = 4n + rm. -/
def trigP (t : Nat) (g : Guard) (s : Src) : Option Instr :=
  match t / 4 with
  | 0 => if t % 4 < 2 then some (.pack4s g s (t % 4 == 1)) else none
  | 1 => if t % 4 < 2 then some (.pack4z g s (t % 4 == 1)) else none
  | 2 => if t % 4 < 2 then some (.pack6s g s (t % 4 == 1)) else none
  | 3 => if t % 4 < 2 then some (.pack6z g s (t % 4 == 1)) else none
  | 4 => if t % 4 < 2 then some (.pack8s g s (t % 4 == 1)) else none
  | 5 => if t % 4 < 2 then some (.pack8z g s (t % 4 == 1)) else none
  | 6 => some (.packe4 g s (prmOf (t % 4)))
  | 7 => some (.packe5 g s (prmOf (t % 4)))
  | 8 => some (.packb16 g s (prmOf (t % 4)))
  | 9 => some (.packh16 g s (prmOf (t % 4)))
  | 10 => if t % 4 < 2 then some (.packix g s (t % 4 == 1)) else none
  | _ => none

/-- Class M (R59): t = 4n + a. -/
def trigM (t : Nat) (g : Guard) (s : Src) : Option Instr :=
  match t / 4 with
  | 0 => some (.ld8s g s (fin4 t))
  | 1 => some (.ld8z g s (fin4 t))
  | 2 => some (.ld16s g s (fin4 t))
  | 3 => some (.ld16z g s (fin4 t))
  | 4 => some (.ld32s g s (fin4 t))
  | 5 => some (.ld32z g s (fin4 t))
  | 6 => some (.ld64 g s (fin4 t))
  | 7 => some (.st8 g s (fin4 t))
  | 8 => some (.st16 g s (fin4 t))
  | 9 => some (.st32 g s (fin4 t))
  | 10 => some (.st64 g s (fin4 t))
  | 11 => some (.vld g s (fin4 t))
  | 12 => some (.vst g s (fin4 t))
  | 13 => some (.vldl g s (fin4 t))
  | 14 => some (.vstl g s (fin4 t))
  | 15 => some (.vgath g s (fin4 t))
  | 16 => some (.vscat g s (fin4 t))
  | 17 => some (.ldx g s (fin4 t))
  | 18 => some (.vldx g s (fin4 t))
  | 19 => some (.stx g s (fin4 t))
  | 20 => some (.vstx g s (fin4 t))
  | 21 => some (.amoadd g s (fin4 t))
  | 22 => some (.amomin g s (fin4 t))
  | 23 => some (.amomax g s (fin4 t))
  | 24 => some (.amoswap g s (fin4 t))
  | 25 => some (.amocas g s (fin4 t))
  | 26 => some (.amofadd g s (fin4 t))
  | 27 => some (.drain g s (fin4 t))
  | 28 => if t % 4 = 0 then some (.map g s) else none
  | 29 => if t % 4 = 0 then some (.unmap g s) else none
  | 30 => if t % 4 = 0 then some (.ownset g s) else none
  | _ => none

/-- Class C (R60): t = 4n + sub. -/
def trigC (t : Nat) (g : Guard) (s : Src) : Option Instr :=
  match t / 4 with
  | 0 => if t % 4 = 0 then some (.br g s) else none
  | 1 => some (.brc g s (fin4 t))
  | 2 => some (.brnc g s (fin4 t))
  | 3 => if t % 4 = 0 then some (.call g s) else none
  | 4 => if t % 4 = 0 then some (.ret g s) else none
  | 5 => if t % 4 = 0 then some (.loop g s) else none
  | 6 => if t % 4 = 0 then some (.loopi g s) else none
  | 7 => if t % 4 = 0 then some (.exit g s) else none
  | 8 => if t % 4 = 0 then some (.wait g s) else none
  | 9 => if t % 4 = 0 then some (.csrrd g s) else none
  | 10 => if t % 4 = 0 then some (.csrwr g s) else none
  | 11 => if t % 4 = 0 then some (.trap g s) else none
  | 12 => if t % 4 = 0 then some (.qpt g s) else none
  | 13 => if t % 4 = 0 then some (.probe g s) else none
  | 14 => some (.spawn g s (fin4 t))
  | 15 => if t % 4 = 0 then some (.joini g s) else none
  | 16 => some (.gbar g s (fin4 t))
  | 17 => if t % 4 = 0 then some (.tdone g s) else none
  | 18 => if t % 4 = 0 then some (.twaitb g s) else none
  | 19 => if t % 4 = 0 then some (.eret g s) else none
  | 20 => if t % 4 = 0 then some (.halt g s) else none
  | _ => none

/-- Class T (R61): t = 16n + sub. -/
def trigT (t : Nat) (g : Guard) (s : Src) : Option Instr :=
  match t / 16 with
  | 0 => if t % 16 < 4 then some (.mma g s (t / 2 % 2 == 1) (t % 2 == 1)) else none
  | 1 => if t % 16 < 2 then some (.mzero g s (t % 2 == 1)) else none
  | 2 => if t % 16 < 2 then some (.mdrain g s (t % 2 == 1)) else none
  | 3 => if t % 16 < 2 then some (.mload g s (t % 2 == 1)) else none
  | 4 => if t % 16 = 0 then some (.msetq g s) else none
  | 5 => if t % 16 = 0 then some (.msetd g s) else none
  | 6 => if t % 16 = 0 then some (.mcfg g s) else none
  | _ => none

/-- Class W (R65): t = 8n + w. -/
def trigW (t : Nat) (g : Guard) (s : Src) : Option Instr :=
  match t / 8 with
  | 0 => some (.wset g s (fin8 t))
  | 1 => some (.wrel g s (fin8 t))
  | 2 => some (.wstat g s (fin8 t))
  | 3 => some (.wskip g s (fin8 t))
  | _ => none

/-- Class B (R66): t = 16n + sub. -/
def trigB (t : Nat) (g : Guard) (s : Src) : Option Instr :=
  match t / 16 with
  | 0 => if t % 16 = 0 then some (.kld g s) else none
  | 1 => if t % 16 = 0 then some (.kst g s) else none
  | 2 => if t % 16 < 16 then some (.kmap g s (Fin.ofNat 16 (t % 16))) else none
  | 3 => if t % 16 < 6 then some (.kpair g s (Fin.ofNat 6 (t % 16))) else none
  | 4 => if t % 16 = 0 then some (.kcmp g s) else none
  | 5 => if t % 16 = 0 then some (.ksort g s) else none
  | 6 => if t % 16 < 3 then some (.reclu g s (Fin.ofNat 3 (t % 16))) else none
  | 7 => if t % 16 = 0 then some (.kremap g s) else none
  | 8 => if t % 16 = 0 then some (.kget g s) else none
  | 9 => if t % 16 = 0 then some (.kset g s) else none
  | 10 => if t % 16 = 0 then some (.kcnt g s) else none
  | 11 => if t % 16 = 0 then some (.kxld g s) else none
  | 12 => if t % 16 = 0 then some (.kxst g s) else none
  | 13 => if t % 16 = 0 then some (.kfmt g s) else none
  | _ => none

/-- The instruction that trigger code `t` names on a bus (R11); every code of bus 15 is reserved. -/
def trigOn (bus : Fin 16) (t : Nat) (g : Guard) (s : Src) : Option Instr :=
  match bus.val with
  | 0 => trigS 0 t g s
  | 1 => trigS 1 t g s
  | 2 => trigV 0 t g s
  | 3 => trigV 1 t g s
  | 4 => trigU t g s
  | 5 => trigP t g s
  | 6 => trigM t g s
  | 7 => trigC t g s
  | 8 => trigX t g s
  | 9 => trigT t g s
  | 10 => trigY t g s
  | 11 => trigG t g s
  | 12 => trigW t g s
  | 13 => trigB t g s
  | 14 => trigL t g s
  | _ => none

/-- What a trigger instruction is as a move: its bus, code, guard and source; `none` for every other instruction. -/
def trigOf : Instr → Option (Fin 16 × Nat × Guard × Src)
  | .add u g src w => some (⟨u.val, by omega⟩, 0 + w.toNat, g, src)
  | .sub u g src w => some (⟨u.val, by omega⟩, 2 + w.toNat, g, src)
  | .mul u g src w => some (⟨u.val, by omega⟩, 4 + w.toNat, g, src)
  | .mulh u g src w => some (⟨u.val, by omega⟩, 6 + w.toNat, g, src)
  | .mulhu u g src w => some (⟨u.val, by omega⟩, 8 + w.toNat, g, src)
  | .div u g src w => some (⟨u.val, by omega⟩, 10 + w.toNat, g, src)
  | .divu u g src w => some (⟨u.val, by omega⟩, 12 + w.toNat, g, src)
  | .rem u g src w => some (⟨u.val, by omega⟩, 14 + w.toNat, g, src)
  | .remu u g src w => some (⟨u.val, by omega⟩, 16 + w.toNat, g, src)
  | .and u g src w => some (⟨u.val, by omega⟩, 18 + w.toNat, g, src)
  | .or u g src w => some (⟨u.val, by omega⟩, 20 + w.toNat, g, src)
  | .xor u g src w => some (⟨u.val, by omega⟩, 22 + w.toNat, g, src)
  | .andn u g src w => some (⟨u.val, by omega⟩, 24 + w.toNat, g, src)
  | .shl u g src w => some (⟨u.val, by omega⟩, 26 + w.toNat, g, src)
  | .shr u g src w => some (⟨u.val, by omega⟩, 28 + w.toNat, g, src)
  | .sar u g src w => some (⟨u.val, by omega⟩, 30 + w.toNat, g, src)
  | .rol u g src w => some (⟨u.val, by omega⟩, 32 + w.toNat, g, src)
  | .clz u g src w => some (⟨u.val, by omega⟩, 34 + w.toNat, g, src)
  | .ctz u g src w => some (⟨u.val, by omega⟩, 36 + w.toNat, g, src)
  | .popc u g src w => some (⟨u.val, by omega⟩, 38 + w.toNat, g, src)
  | .min u g src w => some (⟨u.val, by omega⟩, 40 + w.toNat, g, src)
  | .max u g src w => some (⟨u.val, by omega⟩, 42 + w.toNat, g, src)
  | .minu u g src w => some (⟨u.val, by omega⟩, 44 + w.toNat, g, src)
  | .maxu u g src w => some (⟨u.val, by omega⟩, 46 + w.toNat, g, src)
  | .cmpeq u g src w => some (⟨u.val, by omega⟩, 48 + w.toNat, g, src)
  | .cmpne u g src w => some (⟨u.val, by omega⟩, 50 + w.toNat, g, src)
  | .cmplt u g src w => some (⟨u.val, by omega⟩, 52 + w.toNat, g, src)
  | .cmpltu u g src w => some (⟨u.val, by omega⟩, 54 + w.toNat, g, src)
  | .cmple u g src w => some (⟨u.val, by omega⟩, 56 + w.toNat, g, src)
  | .cmpleu u g src w => some (⟨u.val, by omega⟩, 58 + w.toNat, g, src)
  | .sel u g src => some (⟨u.val, by omega⟩, 60, g, src)
  | .extb u g src w => some (⟨u.val, by omega⟩, 62 + w.toNat, g, src)
  | .insb u g src w => some (⟨u.val, by omega⟩, 64 + w.toNat, g, src)
  | .sext u g src => some (⟨u.val, by omega⟩, 66, g, src)
  | .zext u g src => some (⟨u.val, by omega⟩, 68, g, src)
  | .mov u g src w => some (⟨u.val, by omega⟩, 70 + w.toNat, g, src)
  | .lea u g src => some (⟨u.val, by omega⟩, 72, g, src)
  | .bswap u g src w => some (⟨u.val, by omega⟩, 74 + w.toNat, g, src)
  | .vadd u g src ty => some (⟨2 + u.val, by omega⟩, 0 + vtyCode ty, g, src)
  | .vsub u g src ty => some (⟨2 + u.val, by omega⟩, 8 + vtyCode ty, g, src)
  | .vmul u g src ty => some (⟨2 + u.val, by omega⟩, 16 + vtyCode ty, g, src)
  | .vfma u g src ty => some (⟨2 + u.val, by omega⟩, 24 + vtyCode ty, g, src)
  | .vfms u g src ty => some (⟨2 + u.val, by omega⟩, 32 + vtyCode ty, g, src)
  | .vnfma u g src ty => some (⟨2 + u.val, by omega⟩, 40 + vtyCode ty, g, src)
  | .vmin u g src ty => some (⟨2 + u.val, by omega⟩, 48 + vtyCode ty, g, src)
  | .vmax u g src ty => some (⟨2 + u.val, by omega⟩, 56 + vtyCode ty, g, src)
  | .vabs u g src ty => some (⟨2 + u.val, by omega⟩, 64 + vtyCode ty, g, src)
  | .vneg u g src ty => some (⟨2 + u.val, by omega⟩, 72 + vtyCode ty, g, src)
  | .vcmpeq u g src ty => some (⟨2 + u.val, by omega⟩, 80 + vtyCode ty, g, src)
  | .vcmplt u g src ty => some (⟨2 + u.val, by omega⟩, 88 + vtyCode ty, g, src)
  | .vcmple u g src ty => some (⟨2 + u.val, by omega⟩, 96 + vtyCode ty, g, src)
  | .vcmpun u g src ty => some (⟨2 + u.val, by omega⟩, 104 + vtyCode ty, g, src)
  | .vand u g src ty => some (⟨2 + u.val, by omega⟩, 112 + vtyCode ty, g, src)
  | .vor u g src ty => some (⟨2 + u.val, by omega⟩, 120 + vtyCode ty, g, src)
  | .vxor u g src ty => some (⟨2 + u.val, by omega⟩, 128 + vtyCode ty, g, src)
  | .vshl u g src ty => some (⟨2 + u.val, by omega⟩, 136 + vtyCode ty, g, src)
  | .vshr u g src ty => some (⟨2 + u.val, by omega⟩, 144 + vtyCode ty, g, src)
  | .vsar u g src ty => some (⟨2 + u.val, by omega⟩, 152 + vtyCode ty, g, src)
  | .vsel u g src ty => some (⟨2 + u.val, by omega⟩, 160 + vtyCode ty, g, src)
  | .vbcast u g src ty => some (⟨2 + u.val, by omega⟩, 168 + vtyCode ty, g, src)
  | .vperm u g src ty => some (⟨2 + u.val, by omega⟩, 176 + vtyCode ty, g, src)
  | .vtbl u g src ty => some (⟨2 + u.val, by omega⟩, 184 + vtyCode ty, g, src)
  | .vredadd u g src ty => some (⟨2 + u.val, by omega⟩, 192 + vtyCode ty, g, src)
  | .vredmax u g src ty => some (⟨2 + u.val, by omega⟩, 200 + vtyCode ty, g, src)
  | .vredmin u g src ty => some (⟨2 + u.val, by omega⟩, 208 + vtyCode ty, g, src)
  | .vscan u g src ty => some (⟨2 + u.val, by omega⟩, 216 + vtyCode ty, g, src)
  | .vtopk u g src ty => some (⟨2 + u.val, by omega⟩, 224 + vtyCode ty, g, src)
  | .vcvt u g src ty => some (⟨2 + u.val, by omega⟩, 232 + vtyCode ty, g, src)
  | .vmulh u g src ty => some (⟨2 + u.val, by omega⟩, 240 + vtyCode ty, g, src)
  | .vdot2 u g src ty => some (⟨2 + u.val, by omega⟩, 248 + vtyCode ty, g, src)
  | .vclamp u g src ty => some (⟨2 + u.val, by omega⟩, 256 + vtyCode ty, g, src)
  | .vcntm u g src ty => some (⟨2 + u.val, by omega⟩, 264 + vtyCode ty, g, src)
  | .xrcp g src ty => some (8, 0 + xtyCode ty, g, src)
  | .xrsq g src ty => some (8, 8 + xtyCode ty, g, src)
  | .xsqrt g src ty => some (8, 16 + xtyCode ty, g, src)
  | .xexp2 g src ty => some (8, 24 + xtyCode ty, g, src)
  | .xlog2 g src ty => some (8, 32 + xtyCode ty, g, src)
  | .xexp g src ty => some (8, 40 + xtyCode ty, g, src)
  | .xsin g src ty => some (8, 48 + xtyCode ty, g, src)
  | .xcos g src ty => some (8, 56 + xtyCode ty, g, src)
  | .xtanh g src ty => some (8, 64 + xtyCode ty, g, src)
  | .xsigm g src ty => some (8, 72 + xtyCode ty, g, src)
  | .xgelu g src ty => some (8, 80 + xtyCode ty, g, src)
  | .xsilu g src ty => some (8, 88 + xtyCode ty, g, src)
  | .xdiv g src ty => some (8, 96 + xtyCode ty, g, src)
  | .unpk4s g src => some (4, 0, g, src)
  | .unpk4z g src => some (4, 1, g, src)
  | .unpk6s g src => some (4, 2, g, src)
  | .unpk6z g src => some (4, 3, g, src)
  | .unpk8s g src => some (4, 4, g, src)
  | .unpk8z g src => some (4, 5, g, src)
  | .unpke4 g src => some (4, 6, g, src)
  | .unpke5 g src => some (4, 7, g, src)
  | .unpksn4 g src => some (4, 8, g, src)
  | .bsread g src => some (4, 9, g, src)
  | .bsinit g src => some (4, 10, g, src)
  | .unpkix g src => some (4, 11, g, src)
  | .pack4s g src wrap => some (5, 0 + wrap.toNat, g, src)
  | .pack4z g src wrap => some (5, 4 + wrap.toNat, g, src)
  | .pack6s g src wrap => some (5, 8 + wrap.toNat, g, src)
  | .pack6z g src wrap => some (5, 12 + wrap.toNat, g, src)
  | .pack8s g src wrap => some (5, 16 + wrap.toNat, g, src)
  | .pack8z g src wrap => some (5, 20 + wrap.toNat, g, src)
  | .packe4 g src rm => some (5, 24 + prmCode rm, g, src)
  | .packe5 g src rm => some (5, 28 + prmCode rm, g, src)
  | .packb16 g src rm => some (5, 32 + prmCode rm, g, src)
  | .packh16 g src rm => some (5, 36 + prmCode rm, g, src)
  | .packix g src wrap => some (5, 40 + wrap.toNat, g, src)
  | .ld8s g src a => some (6, 0 + a.val, g, src)
  | .ld8z g src a => some (6, 4 + a.val, g, src)
  | .ld16s g src a => some (6, 8 + a.val, g, src)
  | .ld16z g src a => some (6, 12 + a.val, g, src)
  | .ld32s g src a => some (6, 16 + a.val, g, src)
  | .ld32z g src a => some (6, 20 + a.val, g, src)
  | .ld64 g src a => some (6, 24 + a.val, g, src)
  | .st8 g src a => some (6, 28 + a.val, g, src)
  | .st16 g src a => some (6, 32 + a.val, g, src)
  | .st32 g src a => some (6, 36 + a.val, g, src)
  | .st64 g src a => some (6, 40 + a.val, g, src)
  | .vld g src a => some (6, 44 + a.val, g, src)
  | .vst g src a => some (6, 48 + a.val, g, src)
  | .vldl g src a => some (6, 52 + a.val, g, src)
  | .vstl g src a => some (6, 56 + a.val, g, src)
  | .vgath g src a => some (6, 60 + a.val, g, src)
  | .vscat g src a => some (6, 64 + a.val, g, src)
  | .ldx g src a => some (6, 68 + a.val, g, src)
  | .vldx g src a => some (6, 72 + a.val, g, src)
  | .stx g src a => some (6, 76 + a.val, g, src)
  | .vstx g src a => some (6, 80 + a.val, g, src)
  | .amoadd g src a => some (6, 84 + a.val, g, src)
  | .amomin g src a => some (6, 88 + a.val, g, src)
  | .amomax g src a => some (6, 92 + a.val, g, src)
  | .amoswap g src a => some (6, 96 + a.val, g, src)
  | .amocas g src a => some (6, 100 + a.val, g, src)
  | .amofadd g src a => some (6, 104 + a.val, g, src)
  | .drain g src sc => some (6, 108 + sc.val, g, src)
  | .map g src => some (6, 112, g, src)
  | .unmap g src => some (6, 116, g, src)
  | .ownset g src => some (6, 120, g, src)
  | .br g src => some (7, 0, g, src)
  | .brc g src j => some (7, 4 + j.val, g, src)
  | .brnc g src j => some (7, 8 + j.val, g, src)
  | .call g src => some (7, 12, g, src)
  | .ret g src => some (7, 16, g, src)
  | .loop g src => some (7, 20, g, src)
  | .loopi g src => some (7, 24, g, src)
  | .exit g src => some (7, 28, g, src)
  | .wait g src => some (7, 32, g, src)
  | .csrrd g src => some (7, 36, g, src)
  | .csrwr g src => some (7, 40, g, src)
  | .trap g src => some (7, 44, g, src)
  | .qpt g src => some (7, 48, g, src)
  | .probe g src => some (7, 52, g, src)
  | .spawn g src pri => some (7, 56 + pri.val, g, src)
  | .joini g src => some (7, 60, g, src)
  | .gbar g src j => some (7, 64 + j.val, g, src)
  | .tdone g src => some (7, 68, g, src)
  | .twaitb g src => some (7, 72, g, src)
  | .eret g src => some (7, 76, g, src)
  | .halt g src => some (7, 80, g, src)
  | .mma g src sp h => some (9, 0 + 2 * sp.toNat + h.toNat, g, src)
  | .mzero g src h => some (9, 16 + h.toNat, g, src)
  | .mdrain g src h => some (9, 32 + h.toNat, g, src)
  | .mload g src h => some (9, 48 + h.toNat, g, src)
  | .msetq g src => some (9, 64, g, src)
  | .msetd g src => some (9, 80, g, src)
  | .mcfg g src => some (9, 96, g, src)
  | .cpy g src => some (10, 0, g, src)
  | .cpy2d g src => some (10, 1, g, src)
  | .cpy3d g src => some (10, 2, g, src)
  | .fill g src => some (10, 3, g, src)
  | .cpst g src => some (10, 4, g, src)
  | .atom g src => some (10, 5, g, src)
  | .atomnr g src => some (10, 6, g, src)
  | .afence g src => some (10, 7, g, src)
  | .gathr g src => some (11, 0, g, src)
  | .scatr g src => some (11, 1, g, src)
  | .binput g src => some (11, 2, g, src)
  | .binflush g src => some (11, 3, g, src)
  | .binplay g src => some (11, 4, g, src)
  | .fqcnt g src => some (11, 5, g, src)
  | .tdecl g src => some (11, 6, g, src)
  | .tld g src => some (11, 7, g, src)
  | .tst g src => some (11, 8, g, src)
  | .tadd g src => some (11, 9, g, src)
  | .tscan g src => some (11, 10, g, src)
  | .tnext g src => some (11, 11, g, src)
  | .tclose g src => some (11, 12, g, src)
  | .tdense g src => some (11, 13, g, src)
  | .tcount g src => some (11, 14, g, src)
  | .tpool g src => some (11, 15, g, src)
  | .rkon g src => some (14, 0, g, src)
  | .rkoff g src => some (14, 1, g, src)
  | .rkldt g src => some (14, 2, g, src)
  | .rkstt g src => some (14, 3, g, src)
  | .rkkey g src => some (14, 4, g, src)
  | .rkcmp g src => some (14, 5, g, src)
  | .rkwr g src => some (14, 6, g, src)
  | .rktt g src => some (14, 7, g, src)
  | .rkcnt g src => some (14, 8, g, src)
  | .rkfind g src => some (14, 9, g, src)
  | .rkmapi g src => some (14, 10, g, src)
  | .wset g src n => some (12, 0 + n.val, g, src)
  | .wrel g src n => some (12, 8 + n.val, g, src)
  | .wstat g src n => some (12, 16 + n.val, g, src)
  | .wskip g src n => some (12, 24 + n.val, g, src)
  | .kld g src => some (13, 0, g, src)
  | .kst g src => some (13, 16, g, src)
  | .kmap g src f => some (13, 32 + f.val, g, src)
  | .kpair g src o => some (13, 48 + o.val, g, src)
  | .kcmp g src => some (13, 64, g, src)
  | .ksort g src => some (13, 80, g, src)
  | .reclu g src m => some (13, 96 + m.val, g, src)
  | .kremap g src => some (13, 112, g, src)
  | .kget g src => some (13, 128, g, src)
  | .kset g src => some (13, 144, g, src)
  | .kcnt g src => some (13, 160, g, src)
  | .kxld g src => some (13, 176, g, src)
  | .kxst g src => some (13, 192, g, src)
  | .kfmt g src => some (13, 208, g, src)
  | _ => none

/-! ### Fields of a move (R28 to R31) -/

/-- The GUARD field (R28). -/
def guardOf (x : Nat) : Guard :=
  if x = 0 then .always
  else if x ≤ 8 then .ps (fin8 (x - 1))
  else if x ≤ 12 then .c (fin4 (x - 9))
  else .nc (Fin.ofNat 3 (x - 13))

/-- The code of a guard. -/
def guardCode : Guard → Nat
  | .always => 0
  | .ps i => 1 + i.val
  | .c i => 9 + i.val
  | .nc i => 13 + i.val

/-- The value of the long-immediate words `L0`, `L1:L0` or `L2[15:0]:L1:L0` (R29, R30). -/
def longVal (ws : List (BitVec 24)) : BitVec 72 :=
  (ws.getD 2 0) ++ (ws.getD 1 0) ++ (ws.getD 0 0)

/-- The SRC field beside the packet's long words (R29, R30). -/
def srcOf (x : Nat) (ws : List (BitVec 24)) : Except Illegal Src :=
  if x < 0x40 then .ok (.s (Fin.ofNat 64 x))
  else if x < 0x60 then .ok (.v (Fin.ofNat 32 (x - 0x40)))
  else if x < 0x68 then .ok (.pop (fin8 (x - 0x60)))
  else if x < 0x70 then .ok (.m (fin8 (x - 0x68)))
  else if x < 0x74 then .ok (.c (fin4 (x - 0x70)))
  else if x = 0x74 then .ok .psw
  else if x < 0x80 then .error .src
  else if x < 0xF8 then
    if (x - 0x80) % 8 = 0 then .ok (.latR (Fin.ofNat 15 ((x - 0x80) / 8)))
    else if (x - 0x80) % 8 = 1 then .ok (.latQ (Fin.ofNat 15 ((x - 0x80) / 8)))
    else .error .src
  else if x = 0x1F0 then .ok .rnd
  else if x = 0x1F8 then
    if 1 ≤ ws.length then .ok (.l0 ((longVal ws).setWidth 24)) else .error .longWord
  else if x = 0x1F9 then
    if 2 ≤ ws.length then .ok (.l1 ((longVal ws).setWidth 48)) else .error .longWord
  else if x = 0x1FA then
    if 3 ≤ ws.length ∧ (longVal ws).extractLsb' 64 8 = 0 then .ok (.l2 ((longVal ws).setWidth 64))
    else .error .longWord
  else if 0x200 ≤ x then .ok (.imm (BitVec.ofNat 9 x))
  else .error .src

/-- The code of a source. -/
def srcCode : Src → Nat
  | .s i => i.val
  | .v i => 0x40 + i.val
  | .pop i => 0x60 + i.val
  | .m i => 0x68 + i.val
  | .c i => 0x70 + i.val
  | .psw => 0x74
  | .latR u => 0x80 + 8 * u.val
  | .latQ u => 0x81 + 8 * u.val
  | .rnd => 0x1F0
  | .l0 _ => 0x1F8
  | .l1 _ => 0x1F9
  | .l2 _ => 0x1FA
  | .imm x => 0x200 + x.toNat

/-- The DST field (R31). -/
def dstOf (x : Nat) : Except Illegal Dst :=
  if x < 0x40 then .ok (.s (Fin.ofNat 64 x))
  else if x < 0x60 then .ok (.v (Fin.ofNat 32 (x - 0x40)))
  else if x < 0x68 then .error .dst
  else if x < 0x70 then .ok (.m (fin8 (x - 0x68)))
  else if x < 0x74 then .ok (.c (fin4 (x - 0x70)))
  else if x < 0x80 then .error .dst
  else if x < 0xF8 then
    if (x - 0x80) % 8 < 3 then .ok (.latch (Fin.ofNat 15 ((x - 0x80) / 8)) (Fin.ofNat 3 ((x - 0x80) % 8)))
    else .error .dst
  else if x < 0x100 then .error .dst
  else .ok (.trig (Fin.ofNat 768 (x - 0x100)))

/-- The code of a destination. -/
def dstCode : Dst → Nat
  | .s i => i.val
  | .v i => 0x40 + i.val
  | .m i => 0x68 + i.val
  | .c i => 0x70 + i.val
  | .latch u j => 0x80 + 8 * u.val + j.val
  | .trig t => 0x100 + t.val

/-- One move word on a bus (R28): every reserved code is refused by name (R38). -/
def moveOf (bus : Fin 16) (w : BitVec 24) (ws : List (BitVec 24)) : Except Illegal Move :=
  match srcOf (w.toNat / 1024 % 1024) ws with
  | .error e => .error e
  | .ok s =>
    match dstOf (w.toNat % 1024) with
    | .error e => .error e
    | .ok d =>
      let g := guardOf (w.toNat / 1048576)
      match d with
      | .trig t => if (trigOn bus t.val g s).isSome then .ok ⟨bus, g, s, d⟩ else .error .trigger
      | _ => .ok ⟨bus, g, s, d⟩

/-- The move word of a move. -/
def moveCode (m : Move) : BitVec 24 :=
  BitVec.ofNat 24 (guardCode m.guard * 1048576 + srcCode m.src * 1024 + dstCode m.dst)

/-! ### Packets and bundles (R24, R25) -/

/-- A 16-bit header from its two bytes (R1). -/
def hdrOf (b0 b1 : Byte) : Nat := b0.toNat + 256 * b1.toNat

/-- The buses that a header's MASK names, in ascending order (R24). -/
def maskBuses (bank mask : Nat) : List (Fin 16) :=
  ((List.range 8).filter (fun i => mask.testBit i)).map (fun i => Fin.ofNat 16 (8 * bank + i))

/-- The first `n` 24-bit words of a list of bytes, and the rest. -/
def takeWords : Nat → List Byte → Option (List (BitVec 24) × List Byte)
  | 0, bs => some ([], bs)
  | n + 1, b0 :: b1 :: b2 :: bs =>
    match takeWords n bs with
    | none => none
    | some (ws, rest) => some ((b2 ++ b1 ++ b0) :: ws, rest)
  | _ + 1, _ => none

/-- The moves of a packet: one word for each bus. -/
def movesOf (ws : List (BitVec 24)) : List (Fin 16) → List (BitVec 24) → Except Illegal (List Move)
  | b :: bs, w :: rest =>
    match moveOf b w ws with
    | .error e => .error e
    | .ok m =>
      match movesOf ws bs rest with
      | .error e => .error e
      | .ok ms => .ok (m :: ms)
  | _, _ => .ok []

/-- One packet (R24): its bank, whether it ends the bundle, its moves, and the bytes after it. MASK 0 is legal only in
the header 0x0200 (R25). -/
def packetOf (bs : List Byte) : Except Illegal (Nat × Bool × List Move × List Byte) :=
  match bs with
  | b0 :: b1 :: rest =>
    let h := hdrOf b0 b1
    let bank := h / 256 % 2
    let lic := h / 1024 % 4
    if h / 4096 ≠ 0 then .error .header
    else if h % 256 = 0 then
      if h = 0x0200 then .ok (0, true, [], rest) else .error .mask
    else
      let buses := maskBuses bank (h % 256)
      match takeWords buses.length rest with
      | none => .error .short
      | some (mw, rest1) =>
        match takeWords lic rest1 with
        | none => .error .short
        | some (ws, rest2) =>
          match movesOf ws buses mw with
          | .error e => .error e
          | .ok ms => .ok (bank, h / 512 % 2 == 1, ms, rest2)
  | _ => .error .short

/-! ### The limits of R36 and the same-destination rule of R37 -/

/-- How many moves meet a test. -/
def countMoves (f : Move → Bool) (ms : List Move) : Nat := (ms.filter f).length

/-- Whether a move pops the random-bit queue by R36: SRC 0x1F0, or a class P trigger with rm = 2. -/
def Move.popsRnd (m : Move) : Nat :=
  (if m.src = .rnd then 1 else 0) +
  (match m.dst with
   | .trig t => if m.bus.val = 5 ∧ t.val % 4 = 2 then 1 else 0
   | _ => 0)

/-- The stream registers that the moves pop. -/
def popsOf (ms : List Move) : List (Fin 8) :=
  ms.filterMap (fun m => match m.src with | .pop i => some i | _ => none)

/-- R36: no resource is used more often than its limit, whatever the guards. -/
def limitsOk (ms : List Move) : Bool :=
  countMoves (fun m => match m.src with | .s _ => true | _ => false) ms ≤ 8
  && countMoves (fun m => match m.dst with | .s _ => true | _ => false) ms ≤ 4
  && countMoves (fun m => match m.src with | .v _ => true | _ => false) ms ≤ 6
  && countMoves (fun m => match m.dst with | .v _ => true | _ => false) ms ≤ 4
  && (popsOf ms).length ≤ 2 && (popsOf ms).Nodup
  && countMoves (fun m => match m.src with | .m _ => true | _ => false) ms ≤ 4
  && countMoves (fun m => match m.dst with | .m _ => true | _ => false) ms ≤ 2
  && (ms.map Move.popsRnd).sum ≤ 1

/-- Two guards of which exactly one holds: cj and !cj for j from 0 to 2 (R37). -/
def Guard.opposite : Guard → Guard → Bool
  | .c i, .nc j => i.val == j.val
  | .nc j, .c i => i.val == j.val
  | _, _ => false

/-- Whether two moves name the same destination (R37): a trigger port is that of the move's own bus. -/
def sameDst (m n : Move) : Bool :=
  match m.dst, n.dst with
  | .trig _, .trig _ => m.bus == n.bus
  | d, e => d == e

/-- R37: no two moves name one destination, but for a pair guarded by cj and !cj. -/
def dstsOk : List Move → Bool
  | [] => true
  | m :: ms => ms.all (fun n => !sameDst m n || m.guard.opposite n.guard) && dstsOk ms

/-- The checks that a bundle must pass beside the codes of its moves (R36, R37). -/
def bundleCheck (ms : List Move) : Except Illegal (List Move) :=
  if !limitsOk ms then .error .limit
  else if !dstsOk ms then .error .sameDst
  else .ok ms

/-- A bundle at the head of a list of bytes (R25): its moves and its length. -/
def bundleOf (bs : List Byte) : Except Illegal (List Move × Nat) :=
  match packetOf bs with
  | .error e => .error e
  | .ok (bank, stop, ms, rest) =>
    if stop then
      match bundleCheck ms with
      | .error e => .error e
      | .ok ms => .ok (ms, bs.length - rest.length)
    else if bank = 1 then .error .bank
    else
      match packetOf rest with
      | .error e => .error e
      | .ok (bank2, stop2, ms2, rest2) =>
        if bank2 = 0 ∨ !stop2 then .error .bank
        else
          match bundleCheck (ms ++ ms2) with
          | .error e => .error e
          | .ok ms => .ok (ms, bs.length - rest2.length)

/-- The instruction of a legal bundle: a trigger's own constructor where its one move carries a trigger. -/
def instrOf (ms : List Move) : Instr :=
  match ms with
  | [⟨bus, g, s, .trig t⟩] => (trigOn bus t.val g s).getD (.bundleIssue ms)
  | _ => .bundleIssue ms

/-- The decoder: the instruction at the head of a list of bytes and its length in bytes. -/
def decode (bs : List Byte) : Except Illegal (Instr × Nat) :=
  match bundleOf bs with
  | .error e => .error e
  | .ok (ms, n) => .ok (instrOf ms, n)

/-- How many bytes of a bundle must be at hand, as far as the bytes given tell (R24, R25). -/
def bundleNeed (bs : List Byte) : Nat :=
  let pk (b0 b1 : Byte) : Nat :=
    let h := hdrOf b0 b1
    2 + 3 * ((maskBuses 0 (h % 256)).length + h / 1024 % 4)
  match bs with
  | b0 :: b1 :: _ =>
    let h := hdrOf b0 b1
    if h / 4096 ≠ 0 ∨ h % 256 = 0 then 2
    else
      let n := pk b0 b1
      if h / 256 % 4 ≠ 0 then n
      else
        match bs.drop n with
        | c0 :: c1 :: _ =>
          let k := hdrOf c0 c1
          if k / 4096 ≠ 0 ∨ k % 256 = 0 ∨ k / 256 % 4 ≠ 3 then n + 2 else n + pk c0 c1
        | _ => n + 2
  | _ => 2

/-! ### The encoder -/

/-- How many long words a source needs (R30). -/
def Src.lic : Src → Nat
  | .l0 _ => 1 | .l1 _ => 2 | .l2 _ => 3 | _ => 0

/-- The long words that hold a source's value, 24 bits each. -/
def Src.words : Src → List (BitVec 24)
  | .l0 x => [x]
  | .l1 x => [x.setWidth 24, x.extractLsb' 24 24]
  | .l2 x => [x.setWidth 24, x.extractLsb' 24 24, (x.extractLsb' 48 16).setWidth 24]
  | _ => []

/-- The long words of a packet: those of the move that needs most (R43). -/
def packetWords (ms : List Move) : List (BitVec 24) :=
  ms.foldl (fun acc m => if acc.length < m.src.lic then m.src.words else acc) []

/-- The three bytes of a 24-bit word, least significant first (R1). -/
def bytes24 (w : BitVec 24) : List Byte := [w.setWidth 8, w.extractLsb' 8 8, w.extractLsb' 16 8]

/-- A header (R24). -/
def hdrBytes (lic : Nat) (stop : Bool) (bank mask : Nat) : List Byte :=
  [BitVec.ofNat 8 mask, BitVec.ofNat 8 (4 * lic + 2 * stop.toNat + bank)]

/-- The MASK of some moves. -/
def maskOf (ms : List Move) : Nat := (ms.map (fun m => 2 ^ (m.bus.val % 8))).sum

/-- A packet (R24). -/
def packetBytes (bank : Nat) (stop : Bool) (ms : List Move) : List Byte :=
  let ws := packetWords ms
  hdrBytes ws.length stop bank (maskOf ms)
    ++ (ms.map (fun m => bytes24 (moveCode m))).flatten ++ (ws.map bytes24).flatten

/-- The moves of a bank. -/
def bankMoves (bank : Nat) (ms : List Move) : List Move := ms.filter (fun m => m.bus.val / 8 == bank)

/-- A bundle (R25, R43): a bank-0 packet only where a move stands on buses 0 to 7. -/
def bundleBytes (ms : List Move) : List Byte :=
  match bankMoves 0 ms, bankMoves 1 ms with
  | [], [] => [0x00, 0x02]
  | m0, [] => packetBytes 0 true m0
  | [], m1 => packetBytes 1 true m1
  | m0, m1 => packetBytes 0 false m0 ++ packetBytes 1 true m1

/-- The moves of an instruction that is a bundle; `none` for a step of another part of the device. -/
def movesOfInstr (i : Instr) : Option (List Move) :=
  match i with
  | .bundleIssue ms => some ms
  | i =>
    match trigOf i with
    | some (bus, t, g, s) => some [⟨bus, g, s, .trig (Fin.ofNat 768 t)⟩]
    | none => none

/-- The encoder: the bytes of an instruction that is a bundle; nothing for the steps that have no encoding. -/
def encode (i : Instr) : List Byte :=
  match movesOfInstr i with
  | some ms => bundleBytes ms
  | none => []

/-! ### The table's words -/

/-- The buses that stand for the classes, in the order in which a table word is tried: the word does not say its bus
(log entry 1). -/
def tableBuses : List (Fin 16) := [0, 2, 4, 5, 6, 7, 8, 9, 10, 11, 12, 13, 14]

/-- The bytes of a one-move bundle: the move word on a bus, with zero long words where its source names them. -/
def tableBytes (bus : Fin 16) (w : Nat) : List Byte :=
  let sc := w / 1024 % 1024
  let lic := if sc = 0x1F8 then 1 else if sc = 0x1F9 then 2 else if sc = 0x1FA then 3 else 0
  hdrBytes lic true (bus.val / 8) (2 ^ (bus.val % 8)) ++ bytes24 (BitVec.ofNat 24 w) ++ List.replicate (3 * lic) 0

/-- The first bus of a list on which a table word is a trigger. -/
def tableBus (w : Nat) : List (Fin 16) → Option (Fin 16)
  | [] => none
  | b :: bs =>
    match decode (tableBytes b w) with
    | .ok (.bundleIssue _, _) => tableBus w bs
    | .ok _ => some b
    | .error _ => tableBus w bs

/-- The instruction that the decoder reads from a 24-bit move word of spec/opcode_table.json, as the one move of a
bundle. -/
def decodeTableWord (nbits w : Nat) : Option Instr :=
  if nbits = 24 then
    match tableBus w tableBuses with
    | none => none
    | some b =>
      match decode (tableBytes b w) with
      | .ok (i, _) => some i
      | .error _ => none
  else none

end Sys2Proof
end

