-- ==== Sys2Proof/WellFormed.lean ====
section
/-! DEFINITION. Which instructions the encodings can express: the legal types of class V (R55), and the bundles that
pass the checks of R38. -/

namespace Sys2Proof

/-- The types that R55 leaves to a class V operation; every other instruction has only legal fields. -/
def Instr.typesOk : Instr → Bool
  | .vabs _ _ _ ty | .vneg _ _ _ ty => vtyF ty || vtyI ty
  | .vcmpun _ _ _ ty | .vtbl _ _ _ ty => vtyF ty
  | .vand _ _ _ ty | .vor _ _ _ ty | .vxor _ _ _ ty | .vshl _ _ _ ty | .vshr _ _ _ ty
  | .vmulh _ _ _ ty => vtyI ty || vtyN ty
  | .vsar _ _ _ ty | .vcntm _ _ _ ty => vtyI ty
  | .vdot2 _ _ _ ty => ty == .bf16 || ty == .f16 || ty == .i16
  | _ => true

/-- The moves stand in ascending bus order, at most one on a bus (R24). -/
def busesAscend : List Move → Bool
  | m :: n :: ms => m.bus.val < n.bus.val && busesAscend (n :: ms)
  | _ => true

/-- Every trigger code is one that its bus class defines (R53). -/
def codesOk (ms : List Move) : Bool :=
  ms.all (fun m => match m.dst with
    | .trig t => (trigOn m.bus t.val m.guard m.src).isSome
    | _ => true)

/-- The moves of a packet agree on its long words (R30). -/
def longsOk (ms : List Move) : Bool :=
  ms.all (fun m => m.src.words == (packetWords ms).take m.src.lic)

/-- A bundle of one move that carries a trigger has its own constructor. -/
def loneTrigger : List Move → Bool
  | [⟨_, _, _, .trig _⟩] => true
  | _ => false

/-- A bundle that bytes can express and that R38 does not reject. -/
def bundleOk (ms : List Move) : Bool :=
  busesAscend ms && codesOk ms && longsOk (bankMoves 0 ms) && longsOk (bankMoves 1 ms) && limitsOk ms && dstsOk ms

/-- Well-formed instructions: bundles that bytes can express; a trigger alone has a legal type and keeps to R36 (a
class P trigger that pops a random word may not take the random-bit queue as its source too). -/
def Instr.wf : Instr → Bool
  | .bundleIssue ms => bundleOk ms && !loneTrigger ms
  | i => i.typesOk && limitsOk ((movesOfInstr i).getD [])

end Sys2Proof
end

