-- ==== Sys2Proof/Machine/Issue.lean ====
section
/-! DEFINITION. The issue of one bundle (spec/02_bundles.md R33 to R39, spec/05_local_memory.md R89,
spec/22_recovery.md R348): what is due before it, the checks in their order, blocking, and the effect of its moves and
triggers. Every meaning of a bundle is this one operation over the moves and the operations of their triggers. -/

namespace Sys2Proof.Machine

/-! ### What a trigger's operation is -/

/-- What an operation reads as its bundle issues (R33): the issuing context, the state before the bundle, the trigger
value, the unit's operand latches, and the random word at the head of the queue. -/
structure In where
  cid : Cid
  s   : State
  b   : Val
  o1  : Val
  o2  : Val
  o3  : Word
  rnd : Word

/-- The issuing context as it stood before the bundle. -/
def In.c (i : In) : Ctx := i.s.ctx i.cid

/-- An operation of a unit: its bus and trigger code; whether it needs firmware privilege (R52), or its
operands do (R80); whether it writes a result latch at a fixed latency (R353) or pops a random word (R58); whether it ends the sequential flow (R39); the trap it raises at
issue (R347); whether it blocks its bundle (R35) and what happens while it waits; its effect; the assist record it
needs (R360) and the result that firmware then computes; the argument of the trap it raises after issue (R79); whether it
is an access or a command, which a WAIT can hold back; and the operations that this WAIT leaves outstanding although the
program observes them complete (R229). -/
structure Op where
  bus  : Fin 15
  t    : Nat
  priv : Bool := false
  pv   : In → Bool := fun _ => false
  res  : Bool := false
  rnd  : Bool := false
  xf   : In → Bool := fun _ => false
  chk  : In → Option (Nat × Word) := fun _ => none
  blk  : In → Bool := fun _ => false
  wait : In → State → State := fun _ s => s
  eff  : In → State → State
  asst : In → Option AssistRec := fun _ => none
  full : In → Option Pend := fun _ => none
  sw   : In → Option Word := fun _ => none
  acc  : Bool := false
  left : In → List Nat := fun _ => []

/-- A move, with the operation of the trigger that it carries, if it carries one. -/
structure Slot where
  mv : Move
  op : Option Op

/-! ### What is due at a bundle boundary -/

/-- A result becomes visible: the latches it names and its flags (R34, R83). -/
def Ctx.land (c : Ctx) (p : Pend) : Ctx :=
  (c.modLatch p.u (fun l => { l with r := p.r.getD l.r, q := p.q.getD l.q })).flag p.fl

/-- An earlier result that a visible one of the same unit replaces before it was ever seen (R34). -/
def Pend.kill (v p : Pend) : Pend :=
  if p.u = v.u then
    { p with r := if v.r.isSome then none else p.r, q := if v.q.isSome then none else p.q }
  else p

/-- The results that are due, in trigger order; the others are kept (`kept` holds those already passed). -/
def landDue (c : Ctx) (kept : List Pend) : List Pend → Ctx
  | [] => { c with pend := kept }
  | p :: ps => if p.rem = 0 then landDue (c.land p) (kept.map p.kill) ps else landDue c (kept ++ [p]) ps

/-- The results that have become visible by this boundary (R34). -/
def Ctx.landResults (c : Ctx) : Ctx := landDue c [] c.pend

/-- The decided state of a LOOP or LOOPI takes effect; what it does not change keeps its value (R72). -/
def Ctx.takeLoop (c : Ctx) (l : LoopSt) : Ctx :=
  { c with lc := l.lc.getD c.lc, ecCnt := l.cnt.getD c.ecCnt,
           psP := (l.win.getD (c.psP, c.psB)).1, psB := (l.win.getD (c.psP, c.psB)).2 }

/-- The loop state that takes effect at this boundary (R72). -/
def Ctx.commitLoop (c : Ctx) : Ctx :=
  { (c.loop.filter (fun l => l.rem == 0)).foldl Ctx.takeLoop c with loop := c.loop.filter (fun l => l.rem != 0) }

/-- A taken control transfer redirects the context (R39). -/
def Ctx.redirect (c : Ctx) : Ctx :=
  match c.xfer with
  | some x => if x.kind = .transfer ∧ x.left = 0 then { c with pc := x.target, xfer := none } else c
  | none => c

/-- Whether the context's EXIT or HALT has run its two bundles (R77, R78). -/
def Ctx.ended (c : Ctx) : Bool :=
  match c.xfer with
  | some x => x.kind != .transfer && x.left == 0
  | none => false

/-- A MAP comes into force (R99). -/
def Core.applyMap (c : Core) : ApplyKind → Core
  | .map slot g0 glog slog boff shared =>
    let w : Win :=
      { g0 := g0, glog := glog, slog := slog, boff := boff, shared := shared, dying := false, lines := [], parts := [] }
    { c with wins := c.wins.set slot.val (some w) slot.isLt }
  | .own _ _ _ => c

/-- An OWNSET comes into force (R97, R98): the new owner states, and the granules whose count would exceed 255, which do
not change. -/
def applyOwn (o : List (Nat × Nat)) : ApplyKind → List (Nat × Nat) × List Nat
  | .map _ _ _ _ _ _ => (o, [])
  | .own gs grant cnt =>
    gs.foldl (fun p g =>
      if !grant then (ownSet p.1 g 0, p.2)
      else if ownGet p.1 g + cnt ≤ 255 then (ownSet p.1 g (ownGet p.1 g + cnt), p.2)
      else (p.1, p.2 ++ [g])) (o, [])

/-- The address by which a core names a granule that it holds, or one of chip scratchpad (R15). -/
def granuleName (n : Fin 4112) (g : Nat) : Word :=
  let k := 1024 * g
  BitVec.ofNat 64 (if k < sliceKey 0 0 then 0x80 * 2 ^ 56 + (k - coreKey n.val 0)
    else if k < chipKey 0 then 0x82 * 2 ^ 56 + coreIx n * 2 ^ 16 + (k - sliceKey n.val 0)
    else 0x83 * 2 ^ 56 + (k - chipKey 0))

/-- Whether a pending operation is a MAP. -/
def ApplyKind.isMap : ApplyKind → Bool
  | .map _ _ _ _ _ _ => true
  | .own _ _ _ => false

/-- The MAPs of a context that are due come into force. -/
def State.applyMaps (s : State) (cid : Cid) : State :=
  let due := (s.ctx cid).applies.filter (fun (a : Apply) => a.rem == 0 && a.kind.isMap)
  let s := s.modCore cid.core (fun k => due.foldl (fun k a => k.applyMap (Apply.kind a)) k)
  s.modCtx cid (fun c => { c with applies := c.applies.filter (fun (a : Apply) =>
    !(a.rem == 0 && a.kind.isMap)) })

/-- The OWNSETs of a context that are due come into force, in their order; a grant that would exceed 255 makes ADDRCLASS due,
with the granule's address (R97, log entry 64). -/
def State.applyOwns (s : State) (cid : Cid) : State :=
  let due := (s.ctx cid).applies.filter (fun (a : Apply) => a.rem == 0 && !a.kind.isMap)
  let r := due.foldl (fun (r : List (Nat × Nat) × List Nat) a =>
    ((applyOwn r.1 (Apply.kind a)).1, r.2 ++ (applyOwn r.1 (Apply.kind a)).2)) (s.own, [])
  ({ s with own := r.1 } : State).modCtx cid (fun c =>
    { c with applies := c.applies.filter (fun (a : Apply) => !(a.rem == 0 && !a.kind.isMap)), due := c.due ++ r.2.map (fun g => (causeAddr, granuleName cid.core g)) })

/-- The MAPs and OWNSETs of a context whose bundle g + 3 has issued come into force (R98, R99). -/
def State.applyDue (s : State) (cid : Cid) : State := (s.applyMaps cid).applyOwns cid

/-- Stores perform, in trigger order (R89). -/
def Eff.stores (e : Eff) (cid : Cid) (which : PStore → Bool) : Eff :=
  let c := e.st.ctx cid
  (e.put ((c.stores.filter which).map (fun p => wrPairs p.wr)).flatten).ctx cid
    (fun c => { c with stores := c.stores.filter (fun p => !which p) })

/-- Whether a fill at an address would still find its page not present: a window covers it, and the host's latest answer
says so (R183). -/
def State.stillGone (s : State) (cid : Cid) (a : Word) : Bool :=
  (s.core cid.core).wins.toList.any (fun w => w.any (fun w =>
    !w.dying && decide (w.g0.toNat ≤ a.toNat) && decide (a.toNat < w.g0.toNat + 2 ^ w.glog))) &&
  translate s (clusterOf cid.core) (s.ctx cid).pasid a.toNat false == .absent

/-- A stream keeps that a fill failed only while it would fail again (R183). -/
def Strm.look (st : Strm) (s : State) (cid : Cid) : Strm := { st with miss := st.miss.filter (s.stillGone cid) }

/-- Everything of a context that is due at a bundle boundary before its next bundle issues. -/
def Eff.settle (e : Eff) (cid : Cid) : Eff :=
  let e := e.stores cid (fun p => p.rem == 0)
  e.ctx cid (fun c =>
    let c := (c.landResults.commitLoop).redirect
    { c with kOld := c.kOld.filter (fun k => k.rem != 0), w := c.w.map (fun o => o.map (fun st => st.look e.st cid)) })

/-- The order in which boundary traps are taken (R348): RAS_CTX, FATAL_UNPROBED, ADDRCLASS. -/
def firstDue (due : List (Nat × Word)) : Option (Nat × Word) :=
  (due.find? (fun d => d.1 == causeRas)).or
    ((due.find? (fun d => d.1 == causeUnprobed)).or (due.find? (fun d => d.1 == causeAddr)))

/-- A context halts at a bundle boundary: for the first boundary trap that is due, or for a pre-emption request (R348,
R349, R356). The other boundary traps stay due. -/
def Eff.boundary (e : Eff) (cid : Cid) : Option Eff :=
  let c := e.st.ctx cid
  match firstDue c.due with
  | some d =>
    some ((e.ctx cid (fun c => { c with due := c.due.erase d })).takeTrap cid d.1 d.2)
  | none => if c.preempt then some (e.takeTrap cid 0 0) else none

/-! ### Issue -/

/-- The tl-counted KB operations of a context that are outstanding (R158). -/
def State.kbOps (s : State) (cid : Cid) : List KbOp :=
  let k := s.core cid.core
  ((k.kbRun.map (·.1)).toList ++ k.kbq).filter (fun o => o.ctx == cid.ctx)

/-- Whether a context has issued no bundle, and tried none, since the one that triggered the operation at a place of its
trigger order: its value then takes longer to arrive (R300). -/
def Ctx.young (c : Ctx) (seq : Nat) : Bool := c.st == .live && !c.ended && c.lastSeq ≤ seq

/-- Whether a scoreboarded operation is counted in ld; else it is counted in st (R73). -/
def SbKind.isLd : SbKind → Bool
  | .stx _ _ | .vstx _ _ | .drain _ | .unmap _ => false
  | _ => true

/-- The places, in the context's trigger order, of the operations of a count (0 ld, 1 st, 2 cp, 3 tl) that are
outstanding (R73). -/
def State.outstanding (s : State) (cid : Cid) (cls : Fin 4) : List Nat :=
  let k := s.core cid.core
  match cls.val with
  | 0 => ((s.ctx cid).sb.filter (fun o => o.kind.isLd)).map (·.seq)
  | 1 => ((s.ctx cid).sb.filter (fun o => !o.kind.isLd)).map (·.seq)
  | 2 => (s.cmds.filter (fun m => m.cid == cid)).map (·.seq)
  | _ => (s.kbOps cid).map (·.seq) ++
    (((k.mxRun.map (·.op)).toList ++ k.mxq).filter (fun o => o.ctx == cid.ctx)).map (·.seq)

/-- The operations that a WAIT of field `n` for a count leaves outstanding although the count has fallen below the number
of operations triggered since (R229). -/
def State.leftBehind (s : State) (cid : Cid) (cls : Fin 4) (n : Nat) : List Nat :=
  (s.outstanding cid cls).filter (fun q => n < (((s.ctx cid).recent.get cls).filter (fun r => q < r)).length)

/-- Whether an operation is outstanding that the context has observed complete by a WAIT: its later accesses and commands
perform after it, so they are not triggered yet (R229, log entry 65). -/
def State.fenced (s : State) (cid : Cid) : Bool :=
  (s.ctx cid).waited.any (fun q => (List.finRange 4).any (fun k => (s.outstanding cid k).contains q))

/-- Whether a RECLU of the context is outstanding, which writes KB.r (R159). -/
def State.recluOut (s : State) (cid : Cid) : Bool := (s.kbOps cid).any (fun o => o.t / 16 == 6)

/-- Whether a move must wait: a source or destination that has not landed (R35), or KB.r while a RECLU is outstanding
(R159). -/
def moveWaits (s : State) (cid : Cid) (m : Move) : Bool :=
  let c := s.ctx cid
  c.sourceWaits m.src || c.destWaits m.dst || (m.src == .latR 13 && s.recluOut cid)

/-- What a slot's operation reads. -/
def inOf (s : State) (cid : Cid) (m : Move) (o : Op) : In :=
  let c := s.ctx cid
  let l := c.latch o.bus
  { cid := cid, s := s, b := c.source m.src, o1 := l.o1, o2 := l.o2, o3 := l.o3, rnd := c.rndWord }

/-- A bundle is legal (R36, R37, R53): every trigger has an operation of its bus. -/
def slotsLegal (sl : List Slot) : Bool :=
  limitsOk (sl.map (·.mv)) && dstsOk (sl.map (·.mv)) &&
    sl.all (fun x => match x.mv.dst with | .trig _ => x.op.isSome | _ => true)

/-- The slots whose guard is true. -/
def active (c : Ctx) (sl : List Slot) : List Slot := sl.filter (fun x => c.guard x.mv.guard)

/-- The operations of some slots with what they read. -/
def opsOf (s : State) (cid : Cid) (sl : List Slot) : List (Op × In) :=
  sl.filterMap (fun x => x.op.map (fun o => (o, inOf s cid x.mv o)))

/-- The bundle counts down what is pending in its context (R34, R39, R72, R89, R98, R99, R162). -/
def Ctx.countDown (c : Ctx) : Ctx :=
  { c with pend := c.pend.map (fun p => { p with rem := p.rem - 1 })
           stores := c.stores.map (fun p => { p with rem := p.rem - 1 })
           applies := c.applies.map (fun p => { p with rem := p.rem - 1 })
           kOld := c.kOld.map (fun p => { p with rem := p.rem - 1 })
           loop := c.loop.map (fun p => { p with rem := p.rem - 1 })
           xfer := c.xfer.map (fun p => { p with left := p.left - 1 }) }

/-- The moves of a bundle in its context (R33): sources and guards as they stood before (`c0`), all writes together,
and the program counter past the bundle (R26). -/
def Ctx.doMoves (c0 : Ctx) (ir : Nat) (act : List Slot) : Ctx :=
  let c := act.foldl (fun c x => c.sourceTake x.mv.src) c0.countDown
  let c := act.foldl (fun c x => c.dest x.mv.dst (c0.source x.mv.src)) c
  let c := if act.any (fun x => match x.op with | some o => o.rnd | none => false) then c.rndTake else c
  { c with pc := c0.pc + BitVec.ofNat 64 ir, lastSeq := c0.seq, blocked := false, quiet := false }

/-- The flags that the pops of a bundle set (R83, R183). -/
def Ctx.popFlags (c : Ctx) (act : List Slot) : BitVec 9 := act.foldl (fun f x => f ||| c.popFlag x.mv.src) 0

/-- The trap of a pop whose vector cannot be filled (R183), on the lowest bus. -/
def popTrap (c : Ctx) (act : List Slot) : Option (Nat × Word) :=
  (act.findSome? (fun x => c.popMiss x.mv.src)).map (fun a => (causeUnprobed, a))

/-- The streams of a context forget the fills that failed, so that they are tried again (R183). -/
def Ctx.forgetMiss (c : Ctx) : Ctx := { c with w := c.w.map (fun o => o.map (fun st => { st with miss := none })) }

/-- The first trap that an operation of the bundle raises at issue, on the lowest bus (R348). -/
def issueTrap (ops : List (Op × In)) : Option (Nat × Word) := ops.findSome? (fun p => p.1.chk p.2)

/-- Whether an operation of the bundle blocks it (R35), the bundle would exceed 16 results not yet visible (R353), or an
access or command of it must perform after an operation that a WAIT, of this bundle or an earlier one, left outstanding
(R229). -/
def opsBlock (s : State) (cid : Cid) (ops : List (Op × In)) : Bool :=
  ops.any (fun p => p.1.blk p.2) || 16 < (s.ctx cid).pend.length + (ops.filter (fun p => p.1.res)).length ||
  (ops.any (fun p => p.1.acc) && (s.fenced cid || ops.any (fun p => !(p.1.left p.2).isEmpty)))

/-- The bundle blocks (R35): no move takes effect, the context's stores perform (R89), in the step in which the bundle blocks
(log entry 73), and what an operation does while it waits goes on. -/
def Eff.block (e : Eff) (cid : Cid) (ops : List (Op × In)) : Eff :=
  let e := e.stores cid (fun _ => true)
  (e.on (fun s => ops.foldl (fun s p => p.1.wait p.2 s) s)).ctx cid (fun c =>
    { c with blocked := true, lastSeq := c.seq })

/-- The effect of a bundle that issues: its moves, then its operations in bus order, the flags of its pops, and what comes
into force once it has issued. -/
def Eff.issue (e : Eff) (cid : Cid) (act : List Slot) (ops : List (Op × In)) : Eff :=
  let c0 := e.st.ctx cid
  e.on (fun s => ((ops.foldl (fun s p => p.1.eff p.2 s) (s.setCtx cid (c0.doMoves s.ir act))).modCtx cid
    (fun c => c.flag (c0.popFlags act))).applyDue cid)

/-- The traps that follow the issue of a bundle (R348): ASSIST with the TRAP_SW of the same bundle, or TRAP_SW. -/
def Eff.postTrap (e : Eff) (cid : Cid) (ops : List (Op × In)) : Eff :=
  let recs := ops.filterMap (fun p => p.1.asst p.2)
  let sw := ops.findSome? (fun p => p.1.sw p.2)
  match recs with
  | [] => match sw with
    | some a => e.takeTrap cid causeSw a
    | none => e
  | _ =>
    (e.takeTrap cid causeAssist (BitVec.ofNat 64 recs.length)).ctx cid (fun c =>
      { c with assist := recs, trap := some ⟨causeAssist, BitVec.ofNat 64 recs.length, sw⟩ })

/-- The issue of a bundle whose guards are known and which no rule makes illegal or forbids: it waits for its operands,
raises an operation's trap, waits for its operations, or issues. -/
def Eff.attempt (e : Eff) (cid : Cid) (act : List Slot) : Eff :=
  let s := e.st
  let ops := opsOf s cid act
  if act.any (fun x => moveWaits s cid x.mv) || (ops.any (fun p => p.1.rnd) && (s.ctx cid).sourceWaits .rnd) then
    e.block cid []
  else
    if ops.any (fun p => p.1.pv p.2) then e.takeTrap cid causePriv (s.ctx cid).pc
    else
      match (popTrap (s.ctx cid) act).or (issueTrap ops) with
      | some (cause, arg) => (e.ctx cid Ctx.forgetMiss).takeTrap cid cause arg
      | none => if opsBlock s cid ops then e.block cid ops else (e.issue cid act ops).postTrap cid ops

/-- The checks of a bundle that need no operand, in their order: ILLEG (R38), a guard that names a pending predicate
(R28), ILLEG of R39, PRIV (R52); then the attempt to issue. -/
def Eff.bundle (e : Eff) (cid : Cid) (sl : List Slot) : Eff :=
  let s := e.st
  let c := s.ctx cid
  if !slotsLegal sl then e.takeTrap cid causeIlleg c.pc
  else if sl.any (fun x => c.guardPending x.mv.guard) then e.block cid []
  else
    let act := active c sl
    let ops := opsOf s cid act
    if c.xfer.isSome && ops.any (fun p => p.1.xf p.2) then e.takeTrap cid causeIlleg c.pc
    else if !isCsc cid && ops.any (fun p => p.1.priv) then e.takeTrap cid causePriv c.pc
    else e.attempt cid act

/-- BUNDLE ISSUE: the context `cur` issues a bundle, after what is due at the boundary; it takes a boundary trap or
halts for pre-emption instead where one is due. -/
def issueWith (sl : List Slot) (s : State) : Host.Outcome State Fault Refusal :=
  let cid := s.cur
  let c := s.ctx cid
  if c.st = .live ∧ !c.ended then
    let e := (Eff.start s).settle cid
    match e.boundary cid with
    | some e => done s e
    | none => done s (e.bundle cid sl)
  else .fault .notIssuing

/-- The bundle whose one move carries the trigger of an operation. -/
def issueOne (g : Guard) (src : Src) (o : Op) (s : State) : Host.Outcome State Fault Refusal :=
  issueWith [{ mv := ⟨⟨o.bus.val, by omega⟩, g, src, .trig (Fin.ofNat 768 o.t)⟩, op := some o }] s

/-- The same where a type field may name no variant of the operation, which makes the bundle illegal (R53). -/
def issueTyped (legal : Bool) (g : Guard) (src : Src) (o : Op) (s : State) : Host.Outcome State Fault Refusal :=
  issueWith [{ mv := ⟨⟨o.bus.val, by omega⟩, g, src, .trig (Fin.ofNat 768 o.t)⟩,
               op := if legal then some o else none }] s

end Sys2Proof.Machine
end

