-- ==== Sys2Proof/Machine/Fetch.lean ====
section
/-! DEFINITION. Instruction fetch (spec/02_bundles.md R26, R27, R38): the sectors of a core's instruction cache, the
bytes of the bundle at a program counter, and the traps of a fetch that fails. -/

namespace Sys2Proof.Machine

/-- The 32 bytes of a sector that a core's instruction cache holds (log entry 21). -/
def icacheFind (va : Nat) : List (Nat × List Byte) → Option (List Byte)
  | [] => none
  | (a, bs) :: r => if a = va then some bs else icacheFind va r

/-- The sector address of an address (R240). -/
def sectorOf (a : Word) : Nat := a.toNat / 32 * 32

/-- Up to `n` bytes from an address, as far as the cache holds their sectors. -/
def icacheBytes (ic : List (Nat × List Byte)) (a : Word) : Nat → List Byte
  | 0 => []
  | n + 1 =>
    match icacheFind (sectorOf a) ic with
    | some bs => bs.getD (a.toNat % 32) 0 :: icacheBytes ic (a + 1) n
    | none => []

/-- What the cache holds of the bundle at an address: all its bytes, or the address of the first byte missing. All the
bytes that its headers name are wanted before any of it is decoded, so a page that is not present comes before a word
that makes the bundle illegal (log entry 61). -/
def bundleAt (ic : List (Nat × List Byte)) (pc : Word) : List Byte ⊕ Word :=
  let bs := icacheBytes ic pc 70
  if bundleNeed bs ≤ bs.length then .inl (bs.take (bundleNeed bs)) else .inr (pc + BitVec.ofNat 64 bs.length)

/-- Whether an unfinished invalidation that the context has acknowledged names an address (R27). -/
def fetchHeld (s : State) (c : Ctx) (va : Nat) : Bool :=
  s.invals.any (fun q => q.pasid == c.pasid && q.lo ≤ va && va < q.hi && q.num < c.ack)

/-- Whether such an invalidation names a sector of `n` bytes from an address. -/
def rangeHeld (s : State) (c : Ctx) (a : Word) (n : Nat) : Bool :=
  (List.range ((a.toNat % 32 + n + 31) / 32)).any (fun j => fetchHeld s c (sectorOf a + 32 * j))

/-- The 128-byte lines of which a cache holds sectors. -/
def icacheLines (ic : List (Nat × List Byte)) : List Nat := dedup (ic.map (fun p => p.1 / 128))

/-- A cache with one sector filled (R27): it holds 256 lines, and to make room for one more it drops another than that of
the address `pc`, which the L9 chooses (log entry 21). -/
def icacheFill (s : State) (pc : Word) (va : Nat) (bs : List Byte) (ic : List (Nat × List Byte)) : List (Nat × List Byte) :=
  let lines := icacheLines ic
  let others := lines.filter (fun l => l != pc.toNat / 128)
  let ic :=
    if lines.length < 256 ∨ lines.contains (va / 128) then ic
    else ic.filter (fun p => p.1 / 128 != others.getD (s.freeWord.toNat % others.length) 0)
  (va, bs) :: ic.filter (fun p => p.1 != va)

/-- INSTRUCTION FETCH (R27): the sector of a code address is filled from its home; the effect is empty where the address is
not canonical, its page is not present or may not be executed, the host's reply is awaited, an acknowledged invalidation
names it, or an atomic holds the sector (R242). A sector fetched after its bytes were written during the launch holds the
new bytes (log entry 21). -/
def fetchSector (e : Eff) (cid : Cid) (a : Word) : Eff :=
  let s := e.st
  let c := s.ctx cid
  let va := sectorOf a
  if !canonical a || fetchHeld s c va then e
  else
    match translateX s (clusterOf cid.core) c.pasid va with
    | .ok k =>
      if atomicHeld s k 32 then e
      else e.on (fun s => s.modCore cid.core (fun k' =>
        { k' with icache := icacheFill s c.redirect.pc va (s.mem.bytes k 32) k'.icache }))
    | _ => e

/-- The trap of a bundle at `pc` whose fetch fails at an address: ADDRCLASS for a program counter that is not canonical,
else FATAL_UNPROBED, with the program counter as argument (R27); none while an acknowledged invalidation names the
bundle's page or the host's reply is awaited. -/
def fetchTrap (s : State) (cid : Cid) (pc a : Word) : Option Nat :=
  let c := s.ctx cid
  if !canonical pc then some causeAddr
  else if rangeHeld s c pc ((a - pc).toNat + 1) then none
  else if !canonical a then some causeUnprobed
  else match translateX s (clusterOf cid.core) c.pasid (sectorOf a) with
    | .ok _ | .wait => none
    | _ => some causeUnprobed

/-- What the issue of a context comes to. -/
inductive Fetched where
  | run (i : Instr) (n : Nat)
  | trap (cause : Nat)
  | fetch (a : Word)
  deriving DecidableEq, Repr

/-- The bundle at a context's program counter: decoded with its length, a trap (R27, R38), or a sector to fetch, or to wait
for while an acknowledged invalidation names it. -/
def fetched (s : State) (cid : Cid) (pc : Word) : Fetched :=
  match bundleAt (s.core cid.core).icache pc with
  | .inl bs =>
    if !canonical pc then .trap causeAddr
    else if rangeHeld s (s.ctx cid) pc bs.length then .fetch pc
    else
      match decode bs with
      | .ok (i, n) => .run i n
      | .error _ => .trap causeIlleg
  | .inr a =>
    match fetchTrap s cid pc a with
    | some c => .trap c
    | none => .fetch a

/-- A bundle that traps before it is decoded, after what is due at the boundary (R27, R38, R348). -/
def issueFailed (cid : Cid) (cause : Nat) (s : State) : Eff :=
  let e := (Eff.start s).settle cid
  match e.boundary cid with
  | some e => e
  | none => e.takeTrap cid cause (e.st.ctx cid).pc

/-- A context whose next bundle lacks a sector: a boundary trap or pre-emption that is due comes first; else the bundle
blocks (R26) and the sector is fetched. -/
def issueFetch (cid : Cid) (a : Word) (s : State) : Eff :=
  match ((Eff.start s).settle cid).boundary cid with
  | some e => e
  | none => (fetchSector (Eff.start s) cid a).ctx cid (fun c =>
      { c with blocked := true, lastSeq := c.seq })

/-- The program counter at which the context's next bundle stands: the target of a transfer that is due (R39). -/
def Ctx.nextPc (c : Ctx) : Word := c.redirect.pc

/-- INSTRUCTION_FETCH: the next missing sector of the bundle that the context of `act` will issue is filled, or its
fetch fails, which has no effect until that bundle would issue (R27). -/
def execInstructionFetch (s : State) : Host.Outcome State Fault Refusal :=
  let cid := s.act.cid
  match bundleAt (s.core cid.core).icache (s.ctx cid).nextPc with
  | .inl _ => stutter s
  | .inr a => done s (fetchSector (Eff.start s) cid a)

/-! ### A table word where the next step fetches (the host's question) -/

/-- The sectors that hold some bytes from an address, laid over what a cache held. -/
def overlay (ic : List (Nat × List Byte)) (a : Nat) (bs : List Byte) : List (Nat × List Byte) :=
  let first := a / 32
  let count := (a + bs.length + 31) / 32 - first
  let fresh := (List.range count).map (fun j =>
    let va := (first + j) * 32
    (va, (List.range 32).map (fun o =>
      if a ≤ va + o ∧ va + o < a + bs.length then bs.getD (va + o - a) 0
      else ((icacheFind va ic).getD []).getD o 0)))
  fresh ++ ic.filter (fun p => !fresh.any (fun q => q.1 == p.1))

/-- The state in which context 0 of device core 0 issues a bundle whose bytes are given, at its program counter. -/
def placeBytes (s : State) (bs : List Byte) : State :=
  let cid : Cid := ⟨0, 0⟩
  let s := s.modCtx cid (fun c =>
    { c with st := .live, pc := c.nextPc, xfer := none, due := [], preempt := false, blocked := false })
  let s := s.modCore 0 (fun k =>
    { k with running := 0, gated := false, icache := overlay k.icache (k.at 0).pc.toNat bs })
  { s with sched := [.issue 0] }

/-- The bytes of the one-move bundle of a table word; none where no bus defines its trigger. -/
def wordBytes (nbits w : Nat) : List Byte :=
  if nbits = 24 then
    match tableBus w tableBuses with
    | some b => tableBytes b w
    | none => []
  else []

end Sys2Proof.Machine
end

