-- ==== Sys2Proof/Machine/Flags.lean ====
section
/-! DEFINITION. Formats, exact reals, rounding and the flags it sets (spec/06_arithmetic.md R105 to R121). -/

namespace Sys2Proof.Machine

/-! ### The flags of STAT (R83) -/

/-- Invalid. -/
def flNV : BitVec 9 := 0x001
/-- Division by zero. -/
def flDZ : BitVec 9 := 0x002
/-- Overflow. -/
def flOF : BitVec 9 := 0x004
/-- Underflow. -/
def flUF : BitVec 9 := 0x008
/-- Inexact. -/
def flNX : BitVec 9 := 0x010
/-- Saturation. -/
def flSAT : BitVec 9 := 0x020
/-- An index out of range of a codebook. -/
def flKOOR : BitVec 9 := 0x040
/-- A stream error. -/
def flSERR : BitVec 9 := 0x080
/-- An index element zero-filled. -/
def flIXM : BitVec 9 := 0x100

/-! ### Formats (R105) -/

/-- The floating-point formats. -/
inductive Fmt where
  | f32 | bf16 | f16 | e4m3 | e5m2
  deriving DecidableEq, Repr

/-- Bits of a pattern. -/
def Fmt.width : Fmt → Nat | .f32 => 32 | .bf16 => 16 | .f16 => 16 | .e4m3 => 8 | .e5m2 => 8

/-- Bits of the fraction. -/
def Fmt.fbits : Fmt → Nat | .f32 => 23 | .bf16 => 7 | .f16 => 10 | .e4m3 => 3 | .e5m2 => 2

/-- Bits of the exponent. -/
def Fmt.ebits : Fmt → Nat | .f32 => 8 | .bf16 => 8 | .f16 => 5 | .e4m3 => 4 | .e5m2 => 5

/-- The bias. -/
def Fmt.bias : Fmt → Nat | .f32 => 127 | .bf16 => 127 | .f16 => 15 | .e4m3 => 7 | .e5m2 => 15

/-- The pattern of the largest finite magnitude. -/
def Fmt.maxMag : Fmt → Nat | .f32 => 0x7F7FFFFF | .bf16 => 0x7F7F | .f16 => 0x7BFF | .e4m3 => 0x7E | .e5m2 => 0x7B

/-- Whether the format has infinities. -/
def Fmt.hasInf : Fmt → Bool | .e4m3 => false | _ => true

/-- The canonical NaN. -/
def Fmt.qnan : Fmt → Nat | .f32 => 0x7FC00000 | .bf16 => 0x7FC0 | .f16 => 0x7E00 | .e4m3 => 0x7F | .e5m2 => 0x7E

/-- The pattern of +∞, where the format has one. -/
def Fmt.infMag (f : Fmt) : Nat := f.maxMag + 1

/-- The least exponent. -/
def Fmt.emin (f : Fmt) : Int := 1 - (f.bias : Int)

/-- A pattern with its sign bit. -/
def Fmt.signed (f : Fmt) (neg : Bool) (mag : Nat) : Nat := if neg then mag + 2 ^ (f.width - 1) else mag

/-! ### Exact reals -/

/-- NaN, an infinity, or a real: its magnitude is (q + t) × 2^e, where t is 0, or lies strictly between 0 and 1 when
`st` is set. -/
inductive Rl where
  | nan
  | inf (neg : Bool)
  | fin (neg : Bool) (q : Nat) (e : Int) (st : Bool)
  deriving DecidableEq, Repr

/-- The value of a pattern (R105, R107). -/
def Fmt.value (f : Fmt) (p : Nat) : Rl :=
  let neg := p.testBit (f.width - 1)
  let mag := p % 2 ^ (f.width - 1)
  let e := mag / 2 ^ f.fbits
  let fr := mag % 2 ^ f.fbits
  if f.hasInf ∧ mag = f.infMag then .inf neg
  else if f.maxMag < mag then .nan
  else if e = 0 then .fin neg fr (f.emin - f.fbits) false
  else .fin neg (fr + 2 ^ f.fbits) ((e : Int) - f.bias - f.fbits) false

/-- An integer as a real. -/
def rlInt (x : Int) : Rl := .fin (x < 0) x.natAbs 0 false

/-- A zero. -/
def rlZero (neg : Bool) : Rl := .fin neg 0 0 false

/-- Whether a real is NaN. -/
def Rl.isNaN : Rl → Bool | .nan => true | _ => false

/-- Whether a real is an infinity. -/
def Rl.isInf : Rl → Bool | .inf _ => true | _ => false

/-- Whether a real is zero. -/
def Rl.isZero : Rl → Bool | .fin _ q _ st => q == 0 && !st | _ => false

/-- The sign bit of a real (R119): that of a signed zero too. -/
def Rl.neg : Rl → Bool | .nan => false | .inf n => n | .fin n _ _ _ => n

/-- The magnitude with a given sign. -/
def Rl.withSign (n : Bool) : Rl → Rl | .nan => .nan | .inf _ => .inf n | .fin _ q e s => .fin n q e s

/-- The negated value. -/
def Rl.minus (x : Rl) : Rl := x.withSign (!x.neg)

/-- The numerator of a finite real over 2^e0, for e0 not above its exponent. -/
def scaled (neg : Bool) (q : Nat) (e e0 : Int) : Int :=
  let n := (q : Int) * 2 ^ (e - e0).toNat
  if neg then -n else n

/-- The exact sum (R106, R114): a zero sum of zeros of one sign keeps it; every other zero sum is +0, or −0 where `rdn`
says that the mode is RDN. -/
def Rl.add (rdn : Bool) : Rl → Rl → Rl
  | .nan, _ => .nan
  | _, .nan => .nan
  | .inf a, .inf b => if a = b then .inf a else .nan
  | .inf a, _ => .inf a
  | _, .inf b => .inf b
  | .fin n q e s, .fin m r d t =>
    let e0 := min e d
    let x := scaled n q e e0 + scaled m r d e0
    if x = 0 then .fin (if q = 0 ∧ r = 0 ∧ n = m then n else rdn) 0 0 (s || t)
    else .fin (x < 0) x.natAbs e0 (s || t)

/-- The exact product (R106). -/
def Rl.mul : Rl → Rl → Rl
  | .nan, _ => .nan
  | _, .nan => .nan
  | .inf a, .inf b => .inf (a != b)
  | .inf a, .fin m r _ _ => if r = 0 then .nan else .inf (a != m)
  | .fin n q _ _, .inf b => if q = 0 then .nan else .inf (n != b)
  | .fin n q e s, .fin m r d t => .fin (n != m) (q * r) (e + d) (s || t)

/-- The quotient (R106, R122): 66 bits and more of it, and whether anything is left. -/
def Rl.div : Rl → Rl → Rl
  | .nan, _ => .nan
  | _, .nan => .nan
  | .inf _, .inf _ => .nan
  | .inf a, .fin m _ _ _ => .inf (a != m)
  | .fin n _ _ _, .inf b => rlZero (n != b)
  | .fin n q e _, .fin m r d _ =>
    if r = 0 then (if q = 0 then .nan else .inf (n != m))
    else if q = 0 then rlZero (n != m)
    else
      let k := 66 + Nat.log2 r
      .fin (n != m) (q * 2 ^ k / r) (e - d - k) (q * 2 ^ k % r != 0)

/-- The integer square root, one bit at a time from bit `n` − 1 downward. -/
def isqrt (x : Nat) : Nat → Nat → Nat
  | 0, a => a
  | n + 1, a => if (a + 2 ^ n) * (a + 2 ^ n) ≤ x then isqrt x n (a + 2 ^ n) else isqrt x n a

/-- The square root of a non-negative real; NaN below zero, −0 for −0 (R122). -/
def Rl.sqrt : Rl → Rl
  | .nan => .nan
  | .inf n => if n then .nan else .inf false
  | .fin n q e _ =>
    if q = 0 then rlZero n
    else if n then .nan
    else
      -- an even exponent, and at least 140 bits under the root
      let k : Nat := 140 + (e % 2).toNat
      let x := q * 2 ^ k
      let r := isqrt x (Nat.log2 x / 2 + 1) 0
      .fin false r ((e - k) / 2) (r * r != x)

/-- 1/√x (R122): the pole at zero is the caller's. -/
def Rl.rsqrt : Rl → Rl
  | .nan => .nan
  | .inf n => if n then .nan else rlZero false
  | .fin n q e _ =>
    if q = 0 then .inf n
    else if n then .nan
    else
      let odd := (e % 2).toNat
      let y := q * 2 ^ odd
      let k := Nat.log2 y / 2 + 70
      let x := 2 ^ (2 * k) / y
      let r := isqrt x (Nat.log2 x / 2 + 1) 0
      .fin false r (-(e - odd) / 2 - k) (r * r * y != 2 ^ (2 * k))

/-- Whether one real is below another; false where either is NaN. −0 equals +0. -/
def Rl.lt : Rl → Rl → Bool
  | .nan, _ => false
  | _, .nan => false
  | .inf a, .inf b => a && !b
  | .inf a, _ => a
  | _, .inf b => !b
  | .fin n q e _, .fin m r d _ => let e0 := min e d; scaled n q e e0 < scaled m r d e0

/-- Whether two reals are equal; false where either is NaN. -/
def Rl.eq (x y : Rl) : Bool := !x.isNaN && !y.isNaN && !(x.lt y) && !(y.lt x)

/-- Less or equal; false where either is NaN. -/
def Rl.le (x y : Rl) : Bool := !x.isNaN && !y.isNaN && !(y.lt x)

/-! ### Rounding (R114 to R116) -/

/-- The rounding modes; stochastic rounding carries its 16 random bits, `sat` is nearest with saturation. -/
inductive RMode where
  | rne | rtz | rup | rdn
  | sr (rb : Nat)
  | sat
  deriving DecidableEq, Repr

/-- A rounded result: its pattern, the flags of R116, and whether it is subnormal (R120). -/
structure Rounded where
  pat : Nat
  fl  : BitVec 9
  sub : Bool
  deriving DecidableEq, Repr

/-- Whether an overflow gives an infinity in this mode (R115). -/
def overflowsToInf (m : RMode) (neg : Bool) : Bool :=
  match m with
  | .rne => true
  | .sr _ => true
  | .rup => !neg
  | .rdn => neg
  | .rtz => false
  | .sat => false

/-- Overflow(f, x, m) for a finite x, and for an infinite x where `f` has no infinities (R115). -/
def overflow (f : Fmt) (neg finite : Bool) (m : RMode) : Rounded :=
  let big := f.signed neg f.maxMag
  match m with
  | .sat => ⟨big, flSAT ||| (if finite then flOF ||| flNX else 0), false⟩
  | m =>
    if overflowsToInf m neg then
      if f.hasInf then ⟨f.signed neg f.infMag, flOF ||| flNX, false⟩
      else ⟨f.qnan, flNV ||| (if finite then flNX else 0), false⟩
    else ⟨big, flOF ||| flNX, false⟩

/-- Whether the magnitude is rounded up, from the parity of `k`, the discarded part's comparison with one half, whether
it is zero, and its first 16 bits (R114). -/
def roundsUp (m : RMode) (neg : Bool) (k : Nat) (half : Ordering) (exact : Bool) (d16 : Nat) : Bool :=
  match m with
  | .rtz => false
  | .rup => !exact && !neg
  | .rdn => !exact && neg
  | .sr rb => rb < d16
  | _ => half == .gt || (half == .eq && k % 2 == 1)

/-- RoundTo(f, x, m) (R114). -/
def roundTo (f : Fmt) (x : Rl) (m : RMode) : Rounded :=
  match x with
  | .nan => ⟨f.qnan, 0, false⟩
  | .inf n => if f.hasInf then ⟨f.signed n f.infMag, 0, false⟩ else overflow f n false m
  | .fin n q e st =>
    if q = 0 ∧ !st then ⟨f.signed n 0, 0, false⟩
    else
      let top : Int := (Nat.log2 q : Int) + e
      let ex := max top f.emin
      let sh := ex - f.fbits - e
      let k := if sh ≤ 0 then q * 2 ^ (-sh).toNat else q / 2 ^ sh.toNat
      let rest := if sh ≤ 0 then 0 else q % 2 ^ sh.toNat
      let one := 2 ^ sh.toNat
      let exact := rest = 0 ∧ !st
      let half : Ordering :=
        if 2 * rest < one then .lt else if 2 * rest = one ∧ !st then .eq else .gt
      let half := if rest = 0 then (if sh ≤ 0 ∧ st then .lt else if st ∧ one ≤ 1 then .gt else .lt) else half
      let d16 := rest * 65536 / one
      let up := roundsUp m n k half exact d16
      let mag := (ex - f.emin).toNat * 2 ^ f.fbits + k + (if up then 1 else 0)
      if f.maxMag < mag then overflow f n true m
      else
        let nx := !exact
        let uf := nx && top < f.emin
        ⟨f.signed n mag, (if nx then flNX else 0) ||| (if uf then flUF else 0), mag < 2 ^ f.fbits && mag != 0⟩

/-- ConvertInt to a range (R118): the integer and the flags. -/
def convertInt (lo hi : Int) (x : Rl) (m : RMode) : Int × BitVec 9 :=
  match x with
  | .nan => (0, flNV)
  | .inf n => (if n then lo else hi, flSAT ||| flNV)
  | .fin n q e st =>
    let k := if 0 ≤ e then q * 2 ^ e.toNat else q / 2 ^ (-e).toNat
    let rest := if 0 ≤ e then 0 else q % 2 ^ (-e).toNat
    let one := 2 ^ (-e).toNat
    let exact := rest = 0 ∧ !st
    let half : Ordering := if 2 * rest < one then .lt else if 2 * rest = one ∧ !st then .eq else .gt
    let up := roundsUp m n k (if rest = 0 then .lt else half) exact 0
    let r : Int := (k : Int) + (if up then 1 else 0)
    let r := if n then -r else r
    if r < lo then (lo, flSAT ||| flNV)
    else if hi < r then (hi, flSAT ||| flNV)
    else (r, if exact then 0 else flNX)

/-- Canon(f, bits) (R119). -/
def Fmt.canon (f : Fmt) (p : Nat) : Nat :=
  match f.value p with
  | .nan => f.qnan
  | x => if x.isZero then 0 else p

/-- The flags of an operation that computed `x` from operands (R106): NV where a NaN comes from no NaN. -/
def invalid (x : Rl) (ops : List Rl) : BitVec 9 := if x.isNaN && !(ops.any Rl.isNaN) then flNV else 0

/-! ### Generators (R117, R123 to R125) -/

/-- Mix64 (R123). -/
def mix64 (z : Word) : Word :=
  let z := z ^^^ (z >>> 31)
  let z := z * 0x7FB5D329728EA185
  let z := z ^^^ (z >>> 27)
  let z := z * 0x81DADEF4BC2DD44D
  z ^^^ (z >>> 33)

/-- The word RB(n) of the generator sequence (R124). -/
def rbWord (seed : Word) (n : BitVec 48) : Word := mix64 (seed + n.setWidth 64 * 0x9E3779B97F4A7C15)

/-- SRBits(w, i) (R117). -/
def srBits (w : Word) (i : Nat) : Nat := (w.rotateRight (7 * i % 64)).toNat % 65536

/-! ### SN4 (R110, R111) and sparse runs (R113) -/

/-- The levels of SN4, in units of 2^-8 for the exact eighths and 2^-10 in general: L[c] × 1024. -/
def sn4Levels : List Int :=
  [-1024, -712, -536, -404, -292, -188, -92, 0, 80, 164, 252, 344, 448, 576, 744, 1024]

/-- An element of a superblock: its code, scale byte and superscale pattern (R111); the value before rounding. -/
def sn4Exact (c b sc : Nat) : Rl :=
  let l := sn4Levels.getD c 0
  let lv : Rl := .fin (l < 0) l.natAbs (-10) false
  (lv.mul (.fin false b (-8) false)).mul (Fmt.f32.value sc)

/-- The F32 pattern of an SN4 element (R111). -/
def sn4Decode (c b sc : Nat) : Nat := (roundTo .f32 (sn4Exact c b sc) .rne).pat

end Sys2Proof.Machine
end

