-- ==== Sys2Proof/Machine/Lanes.lean ====
section
/-! DEFINITION. Lanes, lane types and the results of lane-wise operations (spec/07_vector.md R129, R130; the assist of
spec/06_arithmetic.md R120), shared by VA, VS, UP and PK. -/

namespace Sys2Proof.Machine

/-! ### Lanes (R129) -/

/-- Lane i of width `w` of a number. -/
def laneOf (w x i : Nat) : Nat := x / 2 ^ (w * i) % 2 ^ w

/-- The first `n` lanes of width `w` of a value of `N` bits, lane 0 first. -/
def lanesOf {N : Nat} (w n : Nat) (x : BitVec N) : List Nat := (List.range n).map (fun i => laneOf w x.toNat i)

/-- The number whose lanes of width `w` are given, lane 0 first. -/
def packLanes (w : Nat) : List Nat → Nat
  | [] => 0
  | x :: xs => x % 2 ^ w + 2 ^ w * packLanes w xs

/-- Lanes as a vector. -/
def vecOf (w : Nat) (l : List Nat) : Vec := BitVec.ofNat 1024 (packLanes w l)

/-- A lane mask or test result as a 64-bit value: bit i is item i. -/
def bitsOf (l : List Bool) : Word := BitVec.ofNat 64 (packLanes 1 (l.map Bool.toNat))

/-- The signed integer of a pattern of `w` bits (R108). -/
def signedOf (w x : Nat) : Int := if x.testBit (w - 1) then (x : Int) - 2 ^ w else x

/-- The pattern of an integer modulo 2^w. -/
def patOf (w : Nat) (x : Int) : Nat := (x % 2 ^ w).toNat

/-- The format of a lane: floating, signed or unsigned of a width (R55). -/
inductive LaneTy where
  | fl (f : Fmt)
  | int (w : Nat)
  | nat (w : Nat)
  deriving DecidableEq, Repr

/-- The lanes of a class V type. -/
def laneTy : VTy → LaneTy
  | .f32 => .fl .f32 | .bf16 => .fl .bf16 | .f16 => .fl .f16
  | .i32 => .int 32 | .i16 => .int 16 | .n32 => .nat 32 | .n16 => .nat 16

/-- The format of a class X type. -/
def xFmt : XTy → Fmt | .f32 => .f32 | .bf16 => .bf16 | .f16 => .f16

/-- The lane width. -/
def LaneTy.w : LaneTy → Nat | .fl f => f.width | .int w => w | .nat w => w

/-- The lane count (R129). -/
def LaneTy.nl (t : LaneTy) : Nat := 1024 / t.w

/-- The F group. -/
def LaneTy.isF : LaneTy → Bool | .fl _ => true | _ => false

/-- The I group. -/
def LaneTy.isI : LaneTy → Bool | .int _ => true | _ => false

/-- The integer that a lane of an I or N type holds; the pattern for a floating one. -/
def LaneTy.toInt (t : LaneTy) (x : Nat) : Int := match t with | .int w => signedOf w x | _ => (x : Int)

/-- The least integer of an I or N type. -/
def LaneTy.lo : LaneTy → Int | .int w => -(2 ^ (w - 1)) | _ => 0

/-- The greatest integer of an I or N type. -/
def LaneTy.hi : LaneTy → Int | .int w => 2 ^ (w - 1) - 1 | .nat w => 2 ^ w - 1 | .fl _ => 0

/-- An order key of a floating pattern that is no NaN: −0 just below +0 (R130). -/
def Fmt.key (f : Fmt) (p : Nat) : Int :=
  let m := p % 2 ^ (f.width - 1)
  if p.testBit (f.width - 1) then -(m : Int) - 1 else m

/-- Whether a pattern is NaN. -/
def Fmt.isNaN (f : Fmt) (p : Nat) : Bool := (f.value p).isNaN

/-- The smaller or larger of two lanes as a value operation gives it (R130, R131). -/
def LaneTy.pickBy (t : LaneTy) (larger : Bool) (x y : Nat) : Nat :=
  let sel (a b : Int) : Nat := if (a < b) = larger then y else x
  match t with
  | .fl f => if f.isNaN x ∨ f.isNaN y then f.qnan else sel (f.key x) (f.key y)
  | t => sel (t.toInt x) (t.toInt y)

/-! ### Rounded lanes -/

/-- The mode of FPC.RM (R82). -/
def modeOf (fpc : Word) : RMode :=
  match fpc.toNat % 4 with | 0 => .rne | 1 => .rtz | 2 => .rup | _ => .rdn

/-- Whether FPC.RM is RDN, in which a zero sum is −0 (R114). -/
def isRdn (fpc : Word) : Bool := fpc.toNat % 4 == 3

/-- Whether FPC.FZW is set (R82). -/
def fzwOf (fpc : Word) : Bool := fpc.getLsbD 2

/-- A rounded lane under R120: flushed where FZW is 1; else its subnormal result asks for the assist. -/
def assistLane (f : Fmt) (fpc : Word) (x : Rounded) : Rounded :=
  if x.sub ∧ fzwOf fpc then
    { pat := f.signed (x.pat.testBit (f.width - 1)) 0, fl := x.fl ||| flUF ||| flNX, sub := false }
  else x

/-- A real rounded to a lane by FPC.RM, with NV where it is NaN and no operand was (R106, R120, R130). -/
def roundLane (f : Fmt) (fpc : Word) (x : Rl) (ops : List Rl) : Rounded :=
  let r := roundTo f x (modeOf fpc)
  assistLane f fpc { r with fl := r.fl ||| invalid x ops }

/-- A lane that needs no rounding. -/
def plainLane (p : Nat) : Rounded := { pat := p, fl := 0, sub := false }

/-! ### Operations over lanes -/

/-- What a lane-wise operation reads: FPC, the random word, .o3, the trigger value, .o1, .o2, and the k-register that
VTBL names. -/
structure VIn where
  fpc : Word
  rnd : Word
  o3  : Word
  b   : Val
  o1  : Val
  o2  : Val
  kr  : KReg

/-- What it gives: .r and .q where it writes them, the flags, and whether a lane asks for the assist. -/
structure VOut where
  r   : Option Vec := none
  q   : Option Val := none
  fl  : BitVec 9 := 0
  sub : Bool := false

/-- The lanes of .o1, b and .o2 side by side at width `w`. -/
def VIn.zip3 (i : VIn) (w : Nat) : List (Nat × Nat × Nat) :=
  let n := 1024 / w
  let a := lanesOf w n (i.o1.lanes w)
  let b := lanesOf w n (i.b.lanes w)
  let c := lanesOf w n (i.o2.lanes w)
  a.zip (b.zip c)

/-- The lanes of b. -/
def VIn.bl (i : VIn) (w : Nat) : List Nat := lanesOf w (1024 / w) (i.b.lanes w)

/-- Whether the mask enables a lane. -/
def VIn.on (i : VIn) (k : Nat) : Bool := i.o3.getLsbD k

/-- Rounded lanes as a result. -/
def ofLanes (w : Nat) (l : List Rounded) : VOut :=
  { r := some (vecOf w (l.map (·.pat))), fl := (l.map (·.fl)).foldl (· ||| ·) 0, sub := l.any (·.sub) }

/-- Plain lanes as a result. -/
def ofPlain (w : Nat) (l : List Nat) : VOut := { r := some (vecOf w l) }

/-- The old value of a k-register that own bundles still see (R162), if a KSET or KFMT on it is under way. -/
def kOldFind (l : List KOld) (isX : Bool) (i : Nat) : Option KOld := l.find? (fun o => o.isX == isX && o.idx == i)

/-- A k-register as the context's bundles see it. -/
def Ctx.kSeen (c : Ctx) (i : Fin 16) : KReg :=
  match kOldFind c.kOld false i.val with
  | some o => o.k
  | none => c.k.get i

/-- The format of a k-register's entries (R152). -/
def KTag.fmt : KTag → Fmt | .f32 => .f32 | .bf16 => .bf16 | .f16 => .f16

/-- Entry `i` of a k-register (R152). -/
def KReg.entry (k : KReg) (i : Nat) : Nat := laneOf k.tag.fmt.width k.st.toNat i

/-- What an operation of a lane-wise unit reads as its bundle issues. -/
def In.v (i : In) : VIn :=
  { fpc := i.c.fpc, rnd := i.rnd, o3 := i.o3, b := i.b, o1 := i.o1, o2 := i.o2,
    kr := i.c.kSeen (Fin.ofNat 16 (i.o2.word.toNat % 16)) }

/-- A lane-wise operation of unit `u` with code `t` and latency `lat`: where a lane asks for the assist, no result is
placed and an assist record is written instead (R120, R360). `wb`, `w` and `w2` are the widths at which b, .o1 and .o2 expand. -/
def laneOp (u : Fin 15) (t lat : Nat) (rnd : Bool) (wb w : VIn → Nat) (f : VIn → VOut) (w2 : VIn → Nat := w) : Op :=
  { bus := u, t := t, res := true, rnd := rnd
    eff := fun i s =>
      let o := f i.v
      if o.sub then s
      else s.modCtx i.cid (fun c => c.result u lat (o.r.map Val.vc) o.q o.fl)
    asst := fun i =>
      let v := i.v
      if (f v).sub then
        some { u := u, t := t, rem := lat - 1, fpc := v.fpc, rnd := if rnd then v.rnd else 0, o3 := v.o3,
               b := v.b.lanes (wb v), o1 := v.o1.lanes (w v), o2 := v.o2.lanes (w2 v), kr := some v.kr }
      else none
    full := fun i =>
      let o := f i.v
      some { u := u, r := o.r.map Val.vc, q := o.q, fl := o.fl, rem := lat - 1 } }

end Sys2Proof.Machine
end

