-- ==== Sys2Proof/Machine/KbRefs.lean ====
section
/-! DEFINITION. Which registers the counted operations of KB read and write, and who waits for whom
(spec/08_codebooks.md R157, R159). -/

namespace Sys2Proof.Machine

/-- Bits `lo` and up, `n` of them, of a word. -/
def field (x : Word) (lo n : Nat) : Nat := x.toNat / 2 ^ lo % 2 ^ n

/-- The place of a KB operation in its class: t = 16n + sub (R66). -/
def KbOp.n (o : KbOp) : Nat := o.t / 16

/-- The k-registers that a counted KB operation reads (R157). -/
def KbOp.readsK (o : KbOp) : List Nat :=
  match o.n with
  | 1 => [field o.o1 0 4]
  | 2 | 4 | 5 => [field o.b 0 4]
  | 3 => [field o.b 0 4, field o.b 4 4]
  | 6 => if o.b.getLsbD 8 then [field o.b 0 4] else []
  | _ => []

/-- The k-registers that it writes. -/
def KbOp.writesK (o : KbOp) : List Nat :=
  match o.n with
  | 0 => [field o.o1 0 4]
  | 2 | 4 | 5 | 6 => [field o.b 4 4]
  | _ => []

/-- The x registers that it reads. -/
def KbOp.readsX (o : KbOp) : List Nat :=
  match o.n with
  | 12 => [field o.o1 0 2]
  | 7 => if o.b.getLsbD 8 then [] else [field o.b 2 2, field o.b 4 2]
  | _ => []

/-- The x registers that it writes. -/
def KbOp.writesX (o : KbOp) : List Nat :=
  match o.n with
  | 11 => [field o.o1 0 2]
  | 4 | 5 => [field o.b 8 2]
  | 6 => if o.b.getLsbD 8 then [field o.b 13 2] else []
  | 7 => [field o.b 0 2]
  | _ => []

/-- The verdict predicate that it writes. -/
def KbOp.verdict (o : KbOp) : Option (Fin 4) :=
  match o.n with
  | 3 => some (Fin.ofNat 4 (field o.b 8 2))
  | 6 => some (Fin.ofNat 4 (field o.b 9 2))
  | _ => none

/-- Whether it works on the pair buffer: a KPAIR, a RECLU of the buffer, a KREMAP of a pair slice. -/
def KbOp.usesPair (o : KbOp) : Bool :=
  o.n == 3 || (o.n == 6 && !o.b.getLsbD 8) || (o.n == 7 && o.b.getLsbD 8)

/-- Whether an outstanding KB operation of the context writes a k-register or an x register. -/
def State.kbWrites (s : State) (cid : Cid) (isX : Bool) (i : Nat) : Bool :=
  (s.kbOps cid).any (fun o => if isX then o.writesX.contains i else o.writesK.contains i)

/-- Whether an outstanding KB operation of the context reads a k-register or an x register. -/
def State.kbReads (s : State) (cid : Cid) (isX : Bool) (i : Nat) : Bool :=
  (s.kbOps cid).any (fun o => if isX then o.readsX.contains i else o.readsK.contains i)

end Sys2Proof.Machine
end

