-- ==== Sys2Proof/Machine/Windows.lean ====
section
/-! DEFINITION. Mapped windows (spec/05_local_memory.md R99 to R101, spec/15_ordering.md R231 to R233): which window
covers an address, its lines, fills and write-backs; and what an access of a context reads and writes at its target. -/

namespace Sys2Proof.Machine

/-- The slots and windows in use of a core. -/
def Core.slots (k : Core) : List (Fin 8 × Win) :=
  (List.finRange 8).filterMap (fun i => (k.wins.get i).map (fun w => (i, w)))

/-- The core with a window slot changed. -/
def Core.modWin (k : Core) (i : Fin 8) (f : Win → Win) : Core :=
  { k with wins := k.wins.set i.val ((k.wins.get i).map f) i.isLt }

/-- Whether a window's range holds an address. -/
def Win.covers (w : Win) (x : Word) : Bool := w.g0.toNat ≤ x.toNat && x.toNat < w.g0.toNat + 2 ^ w.glog

/-- The active window that covers a global address (R99). -/
def Core.coverOf (k : Core) (x : Word) : Option (Fin 8) :=
  (k.slots.find? (fun p => !p.2.dying && p.2.covers x)).map (·.1)

/-- The line number of an address in a window (R100). -/
def Win.lineNo (w : Win) (x : Word) : Nat := (x.toNat - w.g0.toNat) / 128

/-- The place of a line in the backing (R100). -/
def Win.place (w : Win) (l : Nat) : Nat := l % 2 ^ (w.slog - 7)

/-- The valid line at a place. -/
def Win.lineAt (w : Win) (place : Nat) : Option Line := w.lines.find? (fun l => l.slot == place)

/-- The valid line that holds an address: a hit (R100). -/
def Win.hit (w : Win) (x : Word) : Option Line :=
  match w.lineAt (w.place (w.lineNo x)) with
  | some l => if l.tag = w.lineNo x then some l else none
  | none => none

/-- The window with a line put in its place. -/
def Win.putLine (w : Win) (l : Line) : Win :=
  { w with lines := l :: w.lines.filter (fun m => m.slot != l.slot) }

/-- The offset in own scratchpad of byte `x` of a window's range (R100). -/
def Win.offset (w : Win) (x : Word) : Nat := w.boff + 128 * w.place (w.lineNo x) + x.toNat % 128

/-- The address of a line. -/
def Win.lineAddr (w : Win) (l : Line) : Nat := w.g0.toNat + 128 * l.tag

/-- An extent cut at the 4 KiB pages it touches. -/
def pagePieces (a : Word) (n : Nat) : List (Word × Nat) :=
  (pageStarts a n).map (fun p => (p, min (4096 - p.toNat % 4096) (n - (p - a).toNat)))

/-- Whether an access path of a context may touch an extent now: no accepted atomic holds a byte of it (R242), whichever
access its pages permit, no reply of the host is awaited, and no invalidation that the context has acknowledged names it
(R340). -/
def extentQuiet (s : State) (cid : Cid) (pasid : BitVec 20) (a : Word) (len : Nat) : Bool :=
  !s.turned cid a len &&
  (pagePieces a len).all (fun p => match accessKey s cid.core pasid p.1 false, accessKey s cid.core pasid p.1 true with
    | .ok k, _ | _, .ok k => !atomicHeld s k p.2
    | .wait, _ => false
    | _, _ => true)

/-- Whether an access to a local extent must wait: an engine owns a granule of it, or a window's backing holds it (R97,
R334). -/
def localHeld (s : State) (n : Fin 4112) (a : Word) (len : Nat) : Bool :=
  match localKey n (classify a) with
  | some k => keyHeld s k len
  | none => false

/-- The bytes that a line writes back: those that stores wrote since the fill (R231). -/
def lineWrites (s : State) (n : Fin 4112) (pasid : BitVec 20) (w : Win) (l : Line) : List Wr :=
  match translate s (clusterOf n) pasid (w.lineAddr l) true with
  | .ok k => (List.range 128).filterMap (fun j =>
      if l.dirty.getLsbD j then some (.byte (k + j) (s.mem.get (coreKey n.val (w.boff + 128 * l.slot + j)))) else none)
  | _ => []

/-- Whether the home of a line can be reached now, for reading or writing: the host's reply is known, and no pending atomic
holds a sector of it. -/
def lineFree (s : State) (n : Fin 4112) (pasid : BitVec 20) (va : Nat) (wr : Bool) : Bool :=
  match translate s (clusterOf n) pasid va wr with
  | .ok k => !atomicHeld s k 128
  | .wait => false
  | _ => true

/-- Whether a line has a home that it can be written to: its page permits writing, and a port reaches it. -/
def lineHome (s : State) (n : Fin 4112) (pasid : BitVec 20) (w : Win) (l : Line) : Bool :=
  match translate s (clusterOf n) pasid (w.lineAddr l) true with
  | .ok _ => true
  | _ => false

/-- The CORE lines of some windows, with the slots of their windows. -/
def coreLines (s : State) (n : Fin 4112) (which : Fin 8 → Win → Line → Bool) : List (Win × Line) :=
  (s.core n).slots.flatMap (fun p => (p.2.lines.filter (fun l => l.scope == .core && which p.1 p.2 l)).map (fun l => (p.2, l)))

/-- The CORE lines of some windows are written back (R100 to R102, R231); they are then of scope `sc`. A line that has no
home stays as it is (R374). -/
def Eff.writeBack (e : Eff) (n : Fin 4112) (pasid : BitVec 20) (sc : LineScope) (which : Fin 8 → Win → Line → Bool) :
    Eff :=
  let s := e.st
  (e.lay (.win n) ((coreLines s n which).flatMap (fun p => lineWrites s n pasid p.1 p.2))).on (fun t => t.modCore n (fun k =>
    (List.finRange 8).foldl (fun k i => k.modWin i (fun w =>
      { w with lines := w.lines.map (fun l =>
          if l.scope == .core && which i w l && lineHome s n pasid w l then { l with scope := sc } else l) })) k))

/-- Whether the CORE lines of some windows may be written back now. -/
def writeBackFree (s : State) (n : Fin 4112) (pasid : BitVec 20) (which : Fin 8 → Win → Line → Bool) : Bool :=
  (coreLines s n which).all (fun p => lineFree s n pasid (p.1.lineAddr p.2) true)

/-- The same for an operation of a context, which uses no translation that it has given up (R340). -/
def drainFree (s : State) (cid : Cid) (which : Fin 8 → Win → Line → Bool) : Bool :=
  writeBackFree s cid.core (s.ctx cid).pasid which &&
    (coreLines s cid.core which).all (fun p => !s.turned cid (BitVec.ofNat 64 (p.1.lineAddr p.2)) 128)

/-- The address of the first CORE line of some windows that has no home: its write-back raises FATAL_UNPROBED in the
issuing context (R374). -/
def homeless (s : State) (n : Fin 4112) (pasid : BitVec 20) (which : Fin 8 → Win → Line → Bool) : Option Word :=
  ((coreLines s n which).find? (fun p => !lineHome s n pasid p.1 p.2)).map (fun p => BitVec.ofNat 64 (p.1.lineAddr p.2))

/-- A context's FATAL_UNPROBED at its next boundary for an address, once. -/
def Ctx.unprobed (c : Ctx) (x : Word) : Ctx :=
  if c.due.contains (causeUnprobed, x) then c else c.addDue causeUnprobed x

/-- What a fill comes to: what it did, the address of a FATAL_UNPROBED, or a wait. -/
inductive Filled where
  | fill (e : Eff)
  | fault (x : Word)
  | wait

/-- The sectors of line `l` that a fill has copied. -/
def Win.copied (w : Win) (l : Nat) : List Nat := ((w.parts.find? (fun p => p.1 == l)).map (·.2)).getD []

/-- The window with some sectors of line `l` copied: the line is valid, with scope SYS, once all four are (R100). Another
line that was being filled at its place is given up. -/
def Win.copy (w : Win) (l : Nat) (js : List Nat) : Win :=
  let got := dedup (w.copied l ++ js)
  let rest := w.parts.filter (fun p => w.place p.1 != w.place l)
  if [0, 1, 2, 3].all (fun j => got.contains j) then
    { w with parts := rest }.putLine { slot := w.place l, tag := l, scope := .sys, dirty := 0 }
  else
    { w with parts := (l, got) :: rest, lines := w.lines.filter (fun m => m.slot != w.place l) }

/-- A miss (R100): the line in the way is written back where its scope is CORE, and the line of `x` is filled with
scope SYS: all of it in this step, or the one sector that the step picks (R231, R240). A page that is not present, or a
peer that no port reaches, for the one or the other, raises FATAL_UNPROBED, and nothing is filled; the fill waits while
the home holds a pending atomic, for the host's reply to a translation request, and for an invalidation that the context
has acknowledged (R340). -/
def Eff.fill (e : Eff) (cid : Cid) (slot : Fin 8) (x : Word) : Filled :=
  let s := e.st
  let n := cid.core
  let pasid := (s.ctx cid).pasid
  match (s.core n).wins.get slot with
  | none => .wait
  | some w =>
    let la := w.g0.toNat + 128 * w.lineNo x
    let place := w.place (w.lineNo x)
    let old := fun (i : Fin 8) (_ : Win) (l : Line) => i == slot && l.slot == place
    if !drainFree s cid old || !lineFree s n pasid la false || s.turned cid (BitVec.ofNat 64 la) 128 then .wait
    else
      match homeless s n pasid old with
      | some y => .fault y
      | none =>
        match translate s (clusterOf n) pasid la false with
        | .ok k =>
          let e := (e.landFlights (.win n)).writeBack n pasid .sys old
          let js := match s.act.pick with | some j => [j % 4] | none => [0, 1, 2, 3].filter (fun j => !(w.copied (w.lineNo x)).contains j)
          let e := e.put (js.flatMap (fun j =>
            wrBytes (coreKey n.val (w.boff + 128 * place + 32 * j)) (e.st.mem.bytes (k + 32 * j) 32)))
          .fill (e.on (fun s => s.modCore n (fun c => c.modWin slot (fun w => w.copy (w.lineNo x) js))))
        | _ => .fault x

/-- Where an access of a context to an address goes: a memory key, a miss in a window, or a wait for an engine-owned
granule or for a window whose backing holds the address (R94, R100, R334). -/
inductive Target where
  | at (k : Nat)
  | miss
  | wait
  | gone
  deriving DecidableEq, Repr

/-- The target of an access of `n` bytes, aligned so that it lies in one line or window. -/
def targetOf (s : State) (cid : Cid) (win : Option (Fin 8)) (x : Word) (n : Nat) : Target :=
  match classify x with
  | .glob _ =>
    match win.bind (fun i => (s.core cid.core).wins.get i) with
    | some w =>
      let k := coreKey cid.core.val (w.offset x)
      if (w.hit x).isNone then .miss else if heldByEngine s k n then .wait else .at k
    | none => .gone
  | l =>
    match localKey cid.core l with
    | some k => if keyHeld s k n then .wait else .at k
    | none => .gone

/-- Whether an engine owns a granule of an extent otherwise than through the implicit grants of the context's own later
commands, which themselves wait for its earlier stores and AMOs (R97, R237, R238; log entry 25). -/
def heldBesides (s : State) (cid : Cid) (seq : Nat) (k n : Nat) : Bool :=
  (granulesOf k n).any (fun g =>
    hasOwner k && (s.granuleBusy g || decide ((s.cmds.filter (fun c => c.cid == cid && seq < c.seq && c.gran.contains g)).length < ownGet s.own g)))

/-- The target of a store or AMO at a place in its context's order. -/
def storeTarget (s : State) (cid : Cid) (seq : Nat) (win : Option (Fin 8)) (x : Word) (n : Nat) : Target :=
  match targetOf s cid win x n with
  | .wait =>
    match localKey cid.core (classify x), win.bind (fun i => (s.core cid.core).wins.get i) with
    | some k, _ => if heldBesides s cid seq k n || backed s k n then .wait else .at k
    | none, some w =>
      let k := coreKey cid.core.val (w.offset x)
      if heldBesides s cid seq k n then .wait else .at k
    | none, none => .wait
  | t => t

/-- A key under which two accesses of a core overlap when their bytes do (R95). -/
def aliasKey (n : Fin 4112) (x : Word) : Nat :=
  match localKey n (classify x) with
  | some k => k
  | none => 2 ^ 100 + x.toNat

/-- Whether two extents overlap. -/
def meets (k n j m : Nat) : Bool := k < j + m && j < k + n

/-- Whether two alias classes are ordered with one another (R95). -/
def classOrdered (a b : Fin 4) : Bool := a == b || a == 0 || b == 0

/-- The bytes of a scoreboarded operation; 0 for a DRAIN or UNMAP. -/
def SbKind.size : SbKind → Nat
  | .ldx z _ _ => 2 ^ z.val
  | .vldx _ => 128
  | .stx z _ => 2 ^ z.val
  | .vstx _ _ => 128
  | .amoAdd _ _ | .amoMin _ _ | .amoMax _ _ | .amoSwap _ _ | .amoCas _ _ _ => 8
  | .amoFadd _ _ => 4
  | .drain _ | .unmap _ => 0

/-- Whether it is an AMO. -/
def SbKind.isAmo : SbKind → Bool
  | .amoAdd _ _ | .amoMin _ _ | .amoMax _ _ | .amoSwap _ _ | .amoCas _ _ _ | .amoFadd _ _ => true
  | _ => false

/-- Whether it is an LDX, VLDX, STX or VSTX. -/
def SbKind.isAccess : SbKind → Bool
  | .ldx _ _ _ | .vldx _ | .stx _ _ | .vstx _ _ => true
  | _ => false

/-- The extent in memory of a KB operation that loads or stores, which counts as a scoreboarded access of alias class 0
(R160). -/
def KbOp.extent (o : KbOp) : Nat :=
  match o.n with | 0 | 1 => 520 | 11 | 12 => 256 | _ => 0

/-- Whether an access of the context with a place in its trigger order, a class and an extent must wait for an earlier
scoreboarded access, AMO, or KB load or store whose bytes overlap (R95, R160). -/
def behindAccess (s : State) (cid : Cid) (seq : Nat) (a : Fin 4) (k n : Nat) : Bool :=
  (s.ctx cid).sb.any (fun o => o.seq < seq && classOrdered a o.a && meets k n (aliasKey cid.core o.addr) o.kind.size) ||
  (s.kbOps cid).any (fun o => o.seq < seq && meets k n (aliasKey cid.core o.b) o.extent)

/-- The same for an earlier fixed-latency store (R95); an AMO waits whatever the class (R96). -/
def behindStore (s : State) (cid : Cid) (seq : Nat) (a : Fin 4) (anyClass : Bool) (k n : Nat) : Bool :=
  (s.ctx cid).stores.any (fun o => o.seq < seq && (anyClass || classOrdered a o.a) &&
    o.wr.any (fun p => k ≤ p.1 && p.1 < k + n))

end Sys2Proof.Machine
end

