-- ==== Sys2Proof/Machine/LocalMem.lean ====
section
/-! DEFINITION. Class M, fixed latency: loads, stores, lane slices, gather and scatter (spec/05_local_memory.md R88 to
R93, R103; spec/03_portmap.md R59). -/

namespace Sys2Proof.Machine

/-! ### Checks of a fixed-latency access -/

/-- A fixed-latency access of lane `i` of `l`. -/
structure Piece where
  key  : Nat
  addr : Word
  deriving DecidableEq, Repr

/-- DBG.PEND and DBG.OWN (R103). -/
def Ctx.dbgPend (c : Ctx) : Bool := c.dbg.getLsbD 0

/-- DBG.OWN (R103). -/
def Ctx.dbgOwn (c : Ctx) : Bool := c.dbg.getLsbD 1

/-- Whether a word of memory has a pending store of the context (R103). -/
def Ctx.wordPending (c : Ctx) (k : Nat) : Bool := c.stores.any (fun o => o.wr.any (fun p => p.1 / 4 == k / 4))

/-- The address of the granule of an address: windows' bases are multiples of 1 KiB (R19). -/
def granuleAddr (a : Word) : Word := a &&& ~~~0x3FF

/-- The traps of R103 for the pieces of an access in their order: OWNER_DBG in an engine-owned granule while DBG.OWN
is 1; PEND_DBG for a word read whose own store is pending while DBG.PEND is 1. Where an access meets both, OWNER_DBG goes first,
and each reports the first granule or word in ascending address or lane order (log entry 66). -/
def debugTrap (i : In) (isLoad : Bool) (ps : List Piece) : Option (Nat × Word) :=
  let c := i.c
  match (if c.dbgOwn then ps.find? (fun p => hasOwner p.key && i.s.engineOwns (granuleOf p.key)) else none) with
  | some p => some (causeOwner, granuleAddr p.addr)
  | none =>
    match (if isLoad && c.dbgPend then ps.find? (fun p => c.wordPending p.key) else none) with
    | some p => some (causePend, p.addr &&& ~~~3)
    | none => none

/-- Whether R91 blocks the pieces, each of `n` bytes, of an access in alias class `a`. -/
def fixedBlocks (i : In) (a : Fin 4) (n : Nat) (ps : List Piece) : Bool :=
  ps.any (fun p => (!i.c.dbgOwn && hasOwner p.key && i.s.engineOwns (granuleOf p.key)) ||
    behindAccess i.s i.cid i.c.seq a p.key n)

/-! ### Scalar and vector accesses (R89) -/

/-- ADDRCLASS for a misaligned address or one that is not local (R16, R88). -/
def fixedCheck (i : In) (n : Nat) : Option (Nat × Word) :=
  let a := i.b.word
  if a.toNat % n ≠ 0 ∨ (fixedKey i.s i.cid.core a).isNone then some (causeAddr, a) else none

/-- The words of an access of `n` bytes at b: one for each 32-bit word touched. -/
def fixedPieces (i : In) (n : Nat) : List Piece :=
  match fixedKey i.s i.cid.core i.b.word with
  | some k => (List.range ((n + 3) / 4)).map (fun j => ⟨k + 4 * j, i.b.word + BitVec.ofNat 64 (4 * j)⟩)
  | none => []

/-- The key of a local address; 0 where it has none, which the check excludes. -/
def In.fixedAt (i : In) : Nat := (fixedKey i.s i.cid.core i.b.word).getD 0

/-- A value of `n` bytes extended to 64 bits (R88). -/
def extendBytes (n : Nat) (sgn : Bool) (x : Nat) : Word :=
  if sgn then BitVec.ofInt 64 (signedOf (8 * n) x) else BitVec.ofNat 64 x

/-- A fixed-latency load of `n` bytes: memory is read as the bundle issues, the result is visible from g + 4. -/
def loadOp (t n : Nat) (sgn : Bool) (a : Fin 4) : Op :=
  { bus := 6, t := t + a.val, res := true, acc := true
    chk := fun i => (fixedCheck i n).or (debugTrap i true (fixedPieces i n))
    blk := fun i => fixedBlocks i a (min n 4) (fixedPieces i n)
    eff := fun i s =>
      let x := i.s.mem.nat i.fixedAt n
      let r : Vec := if n = 128 then BitVec.ofNat 1024 x else (extendBytes n sgn x).setWidth 1024
      s.modCtx i.cid (fun c => c.result 6 4 (some (.vc r)) none 0) }

/-- A fixed-latency store of `n` bytes of .o1. -/
def storeOp (t n : Nat) (a : Fin 4) : Op :=
  { bus := 6, t := t + a.val, acc := true
    chk := fun i => (fixedCheck i n).or (debugTrap i false (fixedPieces i n))
    blk := fun i => fixedBlocks i a (min n 4) (fixedPieces i n)
    eff := fun i s =>
      s.modCtx i.cid (fun c => c.store 4 a (pairsAt i.fixedAt (leBytes n (i.o1.word.toNat)))) }

/-- The bytes that a masked vector store writes at a key: lane k covers bytes 4k to 4k + 3. -/
def maskedPairs (k : Nat) (data : Vec) (mask : Word) : List (Nat × Byte) :=
  ((List.range 32).filter (fun j => mask.getLsbD j)).flatMap (fun j =>
    pairsAt (k + 4 * j) (leBytes 4 (laneOf 32 data.toNat j)))

/-- The words of a masked vector store. -/
def maskedPieces (i : In) : List Piece :=
  match fixedKey i.s i.cid.core i.b.word with
  | some k => ((List.range 32).filter (fun j => i.o3.getLsbD j)).map
      (fun j => ⟨k + 4 * j, i.b.word + BitVec.ofNat 64 (4 * j)⟩)
  | none => []

/-! ### Lane slices (R92) -/

/-- The offsets of the trigger's lanes. -/
def In.offs (i : In) : List Nat := lanesOf 32 32 (i.b.lanes 32)

/-- ADDRCLASS where a lane's offset is no multiple of 4 below 1024; no address is stated for its argument. -/
def laneCheck (i : In) : Option (Nat × Word) :=
  if i.offs.any (fun o => o % 4 != 0 || 1024 ≤ o) then some (causeAddr, i.s.freeWord) else none

/-- The words of an access to the lane slices, with the code of R103 for an address. -/
def lanePieces (i : In) (on : Nat → Bool) : List Piece :=
  (i.offs.zipIdx.filter (fun p => on p.2)).map (fun p =>
    ⟨laneKey i.cid.core.val p.2 p.1, BitVec.ofNat 64 (0x84 * 2 ^ 56 + 0x400 * p.2 + p.1)⟩)

/-- The PEND_DBG of a lane load (R103); lane slices have no owner bits. -/
def lanePend (i : In) : Option (Nat × Word) :=
  match (if i.c.dbgPend then (lanePieces i (fun _ => true)).find? (fun p => i.c.wordPending p.key) else none) with
  | some p => some (causePend, p.addr)
  | none => none

/-! ### Gather and scatter (R93) -/

/-- The key and room of the window of the base address p in .o2. -/
def In.baseLoc (i : In) : Option (Nat × Nat × Nat) :=
  let p := i.o2.word
  if p.toNat % 4 ≠ 0 ∨ (fixedKey i.s i.cid.core p).isNone then none
  else
    match classify p with
    | .own off => some (coreKey i.cid.core.val 0, off, 0x28000)
    | .slice _ off => some (sliceKey i.cid.core.val 0, off, 0x10000)
    | _ => none

/-- The word that lane offset `o` addresses, where it lies in the window of p, aligned and outside window backing. -/
def In.lanePlace (i : In) (o : Nat) : Option Nat :=
  match i.baseLoc with
  | none => none
  | some (k, off, room) =>
    let q := off + o
    if q % 4 = 0 ∧ q + 4 ≤ room ∧ !(room == 0x28000 && backing (i.s.core i.cid.core) q) then some (k + q) else none

/-- The lanes of a gather, or the enabled lanes of a scatter, that address a word: its piece with its lane. -/
def gatherPieces (i : In) (on : Nat → Bool) : List (Nat × Piece) :=
  i.offs.zipIdx.filterMap (fun p =>
    if on p.2 then (i.lanePlace p.1).map (fun k => (p.2, ⟨k, i.o2.word + BitVec.ofNat 64 p.1⟩)) else none)

/-- ADDRCLASS for a base that is not local or misaligned. -/
def baseCheck (i : In) : Option (Nat × Word) := if i.baseLoc.isNone then some (causeAddr, i.o2.word) else none

/-- ADDRCLASS for the first enabled lane of a scatter that addresses no word. -/
def scatterCheck (i : In) : Option (Nat × Word) :=
  (i.offs.zipIdx.find? (fun p => i.o3.getLsbD p.2 && (i.lanePlace p.1).isNone)).map
    (fun p => (causeAddr, i.o2.word + BitVec.ofNat 64 p.1))

/-! ### The operations and the bundles whose one move triggers them -/


/-- LD8S (R88, R89). -/
def opLd8s (a : Fin 4) : Op := loadOp 0 1 true a

/-- The bundle whose one move triggers LD8S. -/
def execLd8s (g : Guard) (src : Src) (a : Fin 4) (s : State) : Host.Outcome State Fault Refusal :=
  issueOne g src (opLd8s a) s

/-- LD8Z (R88, R89). -/
def opLd8z (a : Fin 4) : Op := loadOp 4 1 false a

/-- The bundle whose one move triggers LD8Z. -/
def execLd8z (g : Guard) (src : Src) (a : Fin 4) (s : State) : Host.Outcome State Fault Refusal :=
  issueOne g src (opLd8z a) s

/-- LD16S (R88, R89). -/
def opLd16s (a : Fin 4) : Op := loadOp 8 2 true a

/-- The bundle whose one move triggers LD16S. -/
def execLd16s (g : Guard) (src : Src) (a : Fin 4) (s : State) : Host.Outcome State Fault Refusal :=
  issueOne g src (opLd16s a) s

/-- LD16Z (R88, R89). -/
def opLd16z (a : Fin 4) : Op := loadOp 12 2 false a

/-- The bundle whose one move triggers LD16Z. -/
def execLd16z (g : Guard) (src : Src) (a : Fin 4) (s : State) : Host.Outcome State Fault Refusal :=
  issueOne g src (opLd16z a) s

/-- LD32S (R88, R89). -/
def opLd32s (a : Fin 4) : Op := loadOp 16 4 true a

/-- The bundle whose one move triggers LD32S. -/
def execLd32s (g : Guard) (src : Src) (a : Fin 4) (s : State) : Host.Outcome State Fault Refusal :=
  issueOne g src (opLd32s a) s

/-- LD32Z (R88, R89). -/
def opLd32z (a : Fin 4) : Op := loadOp 20 4 false a

/-- The bundle whose one move triggers LD32Z. -/
def execLd32z (g : Guard) (src : Src) (a : Fin 4) (s : State) : Host.Outcome State Fault Refusal :=
  issueOne g src (opLd32z a) s

/-- LD64 (R88, R89). -/
def opLd64 (a : Fin 4) : Op := loadOp 24 8 false a

/-- The bundle whose one move triggers LD64. -/
def execLd64 (g : Guard) (src : Src) (a : Fin 4) (s : State) : Host.Outcome State Fault Refusal :=
  issueOne g src (opLd64 a) s

/-- ST8 (R88, R89). -/
def opSt8 (a : Fin 4) : Op := storeOp 28 1 a

/-- The bundle whose one move triggers ST8. -/
def execSt8 (g : Guard) (src : Src) (a : Fin 4) (s : State) : Host.Outcome State Fault Refusal :=
  issueOne g src (opSt8 a) s

/-- ST16 (R88, R89). -/
def opSt16 (a : Fin 4) : Op := storeOp 32 2 a

/-- The bundle whose one move triggers ST16. -/
def execSt16 (g : Guard) (src : Src) (a : Fin 4) (s : State) : Host.Outcome State Fault Refusal :=
  issueOne g src (opSt16 a) s

/-- ST32 (R88, R89). -/
def opSt32 (a : Fin 4) : Op := storeOp 36 4 a

/-- The bundle whose one move triggers ST32. -/
def execSt32 (g : Guard) (src : Src) (a : Fin 4) (s : State) : Host.Outcome State Fault Refusal :=
  issueOne g src (opSt32 a) s

/-- ST64 (R88, R89). -/
def opSt64 (a : Fin 4) : Op := storeOp 40 8 a

/-- The bundle whose one move triggers ST64. -/
def execSt64 (g : Guard) (src : Src) (a : Fin 4) (s : State) : Host.Outcome State Fault Refusal :=
  issueOne g src (opSt64 a) s

/-- VLD (R88, R89). -/
def opVld (a : Fin 4) : Op := loadOp 44 128 false a

/-- The bundle whose one move triggers VLD. -/
def execVld (g : Guard) (src : Src) (a : Fin 4) (s : State) : Host.Outcome State Fault Refusal :=
  issueOne g src (opVld a) s

/-- VST (R88, R89). -/
def opVst (a : Fin 4) : Op := 
  { bus := 6, t := 48 + a.val, acc := true
    chk := fun i => (fixedCheck i 128).or (debugTrap i false (maskedPieces i))
    blk := fun i => fixedBlocks i a 4 (maskedPieces i)
    eff := fun i s =>
      s.modCtx i.cid (fun c => c.store 4 a (maskedPairs i.fixedAt (i.o1.lanes 32) i.o3)) }

/-- The bundle whose one move triggers VST. -/
def execVst (g : Guard) (src : Src) (a : Fin 4) (s : State) : Host.Outcome State Fault Refusal :=
  issueOne g src (opVst a) s

/-- VLDL (R89, R92). -/
def opVldl (a : Fin 4) : Op := 
  { bus := 6, t := 52 + a.val, acc := true, res := true
    chk := fun i => (laneCheck i).or (lanePend i)
    eff := fun i s =>
      let l := (lanePieces i (fun _ => true)).map (fun p => i.s.mem.nat p.key 4)
      s.modCtx i.cid (fun c => c.result 6 2 (some (.vc (vecOf 32 l))) none 0) }

/-- The bundle whose one move triggers VLDL. -/
def execVldl (g : Guard) (src : Src) (a : Fin 4) (s : State) : Host.Outcome State Fault Refusal :=
  issueOne g src (opVldl a) s

/-- VSTL (R89, R92). -/
def opVstl (a : Fin 4) : Op := 
  { bus := 6, t := 56 + a.val, acc := true
    chk := laneCheck
    eff := fun i s =>
      let l := (i.offs.zipIdx.filter (fun p => i.o3.getLsbD p.2)).flatMap (fun p =>
        pairsAt (laneKey i.cid.core.val p.2 p.1) (leBytes 4 (laneOf 32 (i.o1.lanes 32).toNat p.2)))
      s.modCtx i.cid (fun c => c.store 2 a l) }

/-- The bundle whose one move triggers VSTL. -/
def execVstl (g : Guard) (src : Src) (a : Fin 4) (s : State) : Host.Outcome State Fault Refusal :=
  issueOne g src (opVstl a) s

/-- VGATH (R93). -/
def opVgath (a : Fin 4) : Op := 
  { bus := 6, t := 60 + a.val, acc := true, res := true
    chk := fun i => (baseCheck i).or (debugTrap i true ((gatherPieces i (fun _ => true)).map (·.2)))
    blk := fun i => fixedBlocks i a 4 ((gatherPieces i (fun _ => true)).map (·.2))
    eff := fun i s =>
      let l := i.offs.map (fun o => (i.lanePlace o).map (fun k => i.s.mem.nat k 4))
      s.modCtx i.cid (fun c => c.result 6 4 (some (.vc (vecOf 32 (l.map (·.getD 0)))))
        (some (.sc (bitsOf (l.map Option.isNone)))) 0) }

/-- The bundle whose one move triggers VGATH. -/
def execVgath (g : Guard) (src : Src) (a : Fin 4) (s : State) : Host.Outcome State Fault Refusal :=
  issueOne g src (opVgath a) s

/-- VSCAT (R93). -/
def opVscat (a : Fin 4) : Op := 
  { bus := 6, t := 64 + a.val, acc := true
    chk := fun i => ((baseCheck i).or (scatterCheck i)).or
      (debugTrap i false ((gatherPieces i (fun k => i.o3.getLsbD k)).map (·.2)))
    blk := fun i => fixedBlocks i a 4 ((gatherPieces i (fun k => i.o3.getLsbD k)).map (·.2))
    eff := fun i s =>
      let l := (gatherPieces i (fun k => i.o3.getLsbD k)).flatMap (fun p =>
        pairsAt p.2.key (leBytes 4 (laneOf 32 (i.o1.lanes 32).toNat p.1)))
      s.modCtx i.cid (fun c => c.store 4 a l) }

/-- The bundle whose one move triggers VSCAT. -/
def execVscat (g : Guard) (src : Src) (a : Fin 4) (s : State) : Host.Outcome State Fault Refusal :=
  issueOne g src (opVscat a) s

/-- FIXED_STORE_PERFORM (R89, R356): the fixed-latency stores of the context of `act` that are due at its bundle
boundary perform, in trigger order; all of them once the context has ended or halted. -/
def execFixedStorePerform (s : State) : Host.Outcome State Fault Refusal :=
  let cid := s.act.cid
  done s ((Eff.start s).stores cid (fun p => p.rem == 0 || (s.ctx cid).st != .live))

end Sys2Proof.Machine
end

