-- ==== Sys2Proof/Machine/Scoreboard.lean ====
section
/-! DEFINITION. Class M, scoreboarded: LDX, VLDX, STX, VSTX, the AMOs, DRAIN, MAP, UNMAP, OWNSET, and the steps in which
they perform (spec/05_local_memory.md R94 to R102; spec/03_portmap.md R59). -/

namespace Sys2Proof.Machine

/-! ### Triggers -/

/-- The traps of a scoreboarded access (R88, R94): ADDRCLASS outside every window, or where the address is misaligned;
FATAL_UNMAPPED for a global address that no active window covers. An address that is both misaligned and not covered
raises ADDRCLASS (log entry 66). -/
def sbCheck (i : In) (n : Nat) : Option (Nat × Word) :=
  let a := i.b.word
  if a.toNat % n ≠ 0 then some (causeAddr, a)
  else
    match locOf i.cid.core a with
    | .bad => some (causeAddr, a)
    | .glob _ => if ((i.s.core i.cid.core).coverOf a).isNone then some (causeUnmapped, a) else none
    | _ => none

/-- The traps of an AMO (R96): a global address raises ADDRCLASS too. -/
def amoCheck (i : In) (n : Nat) : Option (Nat × Word) :=
  let a := i.b.word
  if a.toNat % n ≠ 0 then some (causeAddr, a)
  else
    match locOf i.cid.core a with
    | .bad => some (causeAddr, a)
    | .glob _ => some (causeAddr, a)
    | _ => none

/-- A scoreboarded operation recorded in its context, counted in ld or st, with its register pending. -/
def Ctx.addSb (c : Ctx) (isLd : Bool) (kind : SbKind) (a : Fin 4) (addr : Word) (win : Option (Fin 8)) : Ctx :=
  let c := c.note (if isLd then 0 else 1)
  { c with sb := c.sb ++ [{ seq := c.seq, kind := kind, a := a, addr := addr, win := win }], seq := c.seq + 1,
           ld := if isLd then c.ld + 1 else c.ld, stc := if isLd then c.stc else c.stc + 1 }

/-- At most 32 operations are counted in ld (R73). -/
def ldFull (i : In) : Bool := 32 ≤ i.c.ld

/-- At most 32 operations are counted in st (R73). -/
def stFull (i : In) : Bool := 32 ≤ i.c.stc

/-- The s register that a latch names in its low six bits. -/
def sReg (x : Word) : Fin 64 := Fin.ofNat 64 (x.toNat % 64)

/-- Whether an s register is pending. -/
def In.busyS (i : In) (r : Fin 64) : Bool := i.c.pendS.getLsbD r.val

/-- Record a scoreboarded operation at b. -/
def In.addSb (i : In) (isLd : Bool) (kind : SbKind) (a : Fin 4) (s : State) : State :=
  let win := (i.s.core i.cid.core).coverOf i.b.word
  s.modCtx i.cid (fun c => c.addSb isLd kind a i.b.word win)

/-- An AMO of `n` bytes with code `t`. -/
def amoOp (t n : Nat) (a : Fin 4) (kind : In → SbKind) : Op :=
  { bus := 6, t := t + a.val, acc := true
    chk := fun i => amoCheck i n
    blk := fun i => ldFull i || i.busyS (sReg i.o3)
    eff := fun i s => (i.addSb true (kind i) a s).modCtx i.cid (fun c => c.pendingS (sReg i.o3) true) }

/-! ### MAP and OWNSET (R98, R99) -/

/-- The windows of a core that are active, or that a MAP has configured and whose bundles have still to issue. -/
def mapped (s : State) (n : Fin 4112) : List (Fin 8 × Win) :=
  let k := s.core n
  k.slots ++ (k.ctx.toList.flatMap (fun c => c.applies)).filterMap (fun (a : Apply) =>
    match a.kind with
    | .map slot g0 glog slog boff shared =>
      some (slot, ({ g0 := g0, glog := glog, slog := slog, boff := boff, shared := shared, dying := false,
                     lines := [], parts := [] } : Win))
    | .own _ _ _ => none)

/-- The window that a MAP configures (R99). -/
def In.mapWin (i : In) : Fin 8 × Win :=
  let x := i.o1.word
  (Fin.ofNat 8 (field x 0 3),
   { g0 := i.b.word, glog := field x 12 6, slog := field x 8 4, boff := field x 20 18, shared := x.getLsbD 3,
     dying := false, lines := [], parts := [] })

/-- Whether MAP raises ADDRCLASS (R99): that of a CSC does, which has no scratchpad for a window's backing (log entry 19). -/
def mapBad (i : In) : Bool :=
  let (slot, w) := i.mapWin
  let live := (mapped i.s i.cid.core).filter (fun p => !p.2.dying)
  isCsc i.cid || !canonical w.g0 || w.g0.toNat % 2 ^ w.glog != 0 || w.glog < w.slog || 48 < w.glog || w.slog < 12 || 16 < w.slog ||
  w.boff % 2 ^ w.slog != 0 || 0x27F00 < w.boff + 2 ^ w.slog ||
  live.any (fun p => p.1 == slot || meets w.g0.toNat (2 ^ w.glog) p.2.g0.toNat (2 ^ p.2.glog) ||
    meets w.boff (2 ^ w.slog) p.2.boff (2 ^ p.2.slog)) ||
  0x10000 < (live.map (fun p => 2 ^ p.2.slog)).sum + 2 ^ w.slog

/-- Whether a window whose UNMAP has not completed still holds the slot or the backing (log entry 24). -/
def mapWaits (i : In) : Bool :=
  let (slot, w) := i.mapWin
  (mapped i.s i.cid.core).any (fun p => p.2.dying && (p.1 == slot || meets w.boff (2 ^ w.slog) p.2.boff (2 ^ p.2.slog)))

/-- The granules that an OWNSET names (R98); none where it raises ADDRCLASS for its range. Of a CSC, which has no
scratchpad and no slice, it reaches chip scratchpad alone (log entry 19). -/
def In.ownRange (i : In) : Option (List Nat) :=
  let b := i.b.word
  let ng := field i.o1.word 16 8
  let go (k off room : Nat) : Option (List Nat) :=
    if off + 1024 * ng ≤ room then some ((List.range ng).map (fun j => k / 1024 + j)) else none
  if b.toNat % 1024 ≠ 0 ∨ ng = 0 ∨ 64 < ng then none
  else
    match classify b with
    | .own off => if isCsc i.cid then none else go (coreKey i.cid.core.val off) off 0x28000
    | .slice n off => if !isCsc i.cid ∧ n = coreIx i.cid.core then go (sliceKey i.cid.core.val off) off 0x10000 else none
    | .chip off => go (chipKey off) off 0x4000000
    | _ => none

/-- The owner states once every OWNSET that has issued, of any context, has come into force (R98, log entry 64). -/
def State.ownAhead (s : State) : List (Nat × Nat) :=
  (s.cores.flatMap (fun p => p.2.ctx.toList.flatMap (fun c => c.applies))).foldl
    (fun o (a : Apply) => (applyOwn o a.kind).1) s.own

/-- Whether OWNSET raises ADDRCLASS: its range, a grant of count 0, or a count above 255 (R97, R98). -/
def ownBad (i : In) : Bool :=
  let cnt := field i.o1.word 8 8
  match i.ownRange with
  | none => true
  | some gs => i.o1.word.getLsbD 0 && (cnt == 0 || gs.any (fun g => 255 < ownGet i.s.ownAhead g + cnt))

/-- Whether an OWNSET is a reclaim of a granule on which an engine access is performing (R97, R98). -/
def ownWaits (i : In) : Bool := !i.o1.word.getLsbD 0 && (i.ownRange.getD []).any i.s.granuleBusy

/-! ### The operations and the bundles whose one move triggers them -/


/-- LDX (R94). -/
def opLdx (a : Fin 4) : Op := 
  { bus := 6, t := 68 + a.val, acc := true
    chk := fun i => sbCheck i (2 ^ field i.o2.word 0 2)
    blk := fun i => ldFull i || i.busyS (sReg i.o1.word)
    eff := fun i s =>
      (i.addSb true (.ldx (Fin.ofNat 4 (field i.o2.word 0 2)) (i.o2.word.getLsbD 2) (sReg i.o1.word)) a s).modCtx i.cid
        (fun c => c.pendingS (sReg i.o1.word) true) }

/-- The bundle whose one move triggers LDX. -/
def execLdx (g : Guard) (src : Src) (a : Fin 4) (s : State) : Host.Outcome State Fault Refusal :=
  issueOne g src (opLdx a) s

/-- VLDX (R94). -/
def opVldx (a : Fin 4) : Op := 
  { bus := 6, t := 72 + a.val, acc := true
    chk := fun i => sbCheck i 128
    blk := fun i => ldFull i || i.c.pendV.getLsbD (field i.o1.word 0 5)
    eff := fun i s =>
      (i.addSb true (.vldx (Fin.ofNat 32 (field i.o1.word 0 5))) a s).modCtx i.cid
        (fun c => c.pendingV (Fin.ofNat 32 (field i.o1.word 0 5)) true) }

/-- The bundle whose one move triggers VLDX. -/
def execVldx (g : Guard) (src : Src) (a : Fin 4) (s : State) : Host.Outcome State Fault Refusal :=
  issueOne g src (opVldx a) s

/-- STX (R94). -/
def opStx (a : Fin 4) : Op := 
  { bus := 6, t := 76 + a.val, acc := true
    chk := fun i => sbCheck i (2 ^ field i.o2.word 0 2)
    blk := stFull
    eff := fun i s => i.addSb false (.stx (Fin.ofNat 4 (field i.o2.word 0 2)) i.o1.word) a s }

/-- The bundle whose one move triggers STX. -/
def execStx (g : Guard) (src : Src) (a : Fin 4) (s : State) : Host.Outcome State Fault Refusal :=
  issueOne g src (opStx a) s

/-- VSTX (R94). -/
def opVstx (a : Fin 4) : Op := 
  { bus := 6, t := 80 + a.val, acc := true
    chk := fun i => sbCheck i 128
    blk := stFull
    eff := fun i s => i.addSb false (.vstx (i.o1.lanes 32) (i.o3.setWidth 32)) a s }

/-- The bundle whose one move triggers VSTX. -/
def execVstx (g : Guard) (src : Src) (a : Fin 4) (s : State) : Host.Outcome State Fault Refusal :=
  issueOne g src (opVstx a) s

/-- AMOADD (R96). -/
def opAmoadd (a : Fin 4) : Op := amoOp 84 8 a (fun i => .amoAdd i.o1.word (sReg i.o3))

/-- The bundle whose one move triggers AMOADD. -/
def execAmoadd (g : Guard) (src : Src) (a : Fin 4) (s : State) : Host.Outcome State Fault Refusal :=
  issueOne g src (opAmoadd a) s

/-- AMOMIN (R96). -/
def opAmomin (a : Fin 4) : Op := amoOp 88 8 a (fun i => .amoMin i.o1.word (sReg i.o3))

/-- The bundle whose one move triggers AMOMIN. -/
def execAmomin (g : Guard) (src : Src) (a : Fin 4) (s : State) : Host.Outcome State Fault Refusal :=
  issueOne g src (opAmomin a) s

/-- AMOMAX (R96). -/
def opAmomax (a : Fin 4) : Op := amoOp 92 8 a (fun i => .amoMax i.o1.word (sReg i.o3))

/-- The bundle whose one move triggers AMOMAX. -/
def execAmomax (g : Guard) (src : Src) (a : Fin 4) (s : State) : Host.Outcome State Fault Refusal :=
  issueOne g src (opAmomax a) s

/-- AMOSWAP (R96). -/
def opAmoswap (a : Fin 4) : Op := amoOp 96 8 a (fun i => .amoSwap i.o1.word (sReg i.o3))

/-- The bundle whose one move triggers AMOSWAP. -/
def execAmoswap (g : Guard) (src : Src) (a : Fin 4) (s : State) : Host.Outcome State Fault Refusal :=
  issueOne g src (opAmoswap a) s

/-- AMOCAS (R96). -/
def opAmocas (a : Fin 4) : Op := amoOp 100 8 a (fun i => .amoCas i.o1.word i.o2.word (sReg i.o3))

/-- The bundle whose one move triggers AMOCAS. -/
def execAmocas (g : Guard) (src : Src) (a : Fin 4) (s : State) : Host.Outcome State Fault Refusal :=
  issueOne g src (opAmocas a) s

/-- AMOFADD (R96). -/
def opAmofadd (a : Fin 4) : Op := amoOp 104 4 a (fun i => .amoFadd (i.o1.word.setWidth 32) (sReg i.o3))

/-- The bundle whose one move triggers AMOFADD. -/
def execAmofadd (g : Guard) (src : Src) (a : Fin 4) (s : State) : Host.Outcome State Fault Refusal :=
  issueOne g src (opAmofadd a) s

/-- DRAIN (R102). -/
def opDrain (sc : Fin 4) : Op := 
  { bus := 6, t := 108 + sc.val
    blk := stFull
    eff := fun i s => s.modCtx i.cid (fun c => c.addSb false (.drain sc) 0 0 none) }

/-- The bundle whose one move triggers DRAIN. -/
def execDrain (g : Guard) (src : Src) (sc : Fin 4) (s : State) : Host.Outcome State Fault Refusal :=
  issueOne g src (opDrain sc) s

/-- MAP (R99). -/
def opMap : Op := 
  { bus := 6, t := 112
    chk := fun i => if mapBad i then some (causeAddr, i.b.word) else none
    blk := mapWaits
    eff := fun i s =>
      let (slot, w) := i.mapWin
      s.modCtx i.cid (fun c =>
        { c with applies := c.applies ++ [{ kind := .map slot w.g0 w.glog w.slog w.boff w.shared, rem := 3 }] }) }

/-- The bundle whose one move triggers MAP. -/
def execMap (g : Guard) (src : Src) (s : State) : Host.Outcome State Fault Refusal :=
  issueOne g src opMap s

/-- UNMAP (R101). -/
def opUnmap : Op := 
  { bus := 6, t := 116
    blk := stFull
    eff := fun i s =>
      let slot := Fin.ofNat 8 (field i.b.word 0 3)
      match (i.s.core i.cid.core).wins.get slot with
      | some w =>
        if w.dying then s
        else (s.modCore i.cid.core (fun k => k.modWin slot (fun w => { w with dying := true }))).modCtx i.cid
          (fun c => c.addSb false (.unmap slot) 0 0 none)
      | none => s }

/-- The bundle whose one move triggers UNMAP. -/
def execUnmap (g : Guard) (src : Src) (s : State) : Host.Outcome State Fault Refusal :=
  issueOne g src opUnmap s

/-- OWNSET (R97, R98). -/
def opOwnset : Op := 
  { bus := 6, t := 120
    chk := fun i => if ownBad i then some (causeAddr, i.b.word) else none
    blk := ownWaits
    eff := fun i s =>
      s.modCtx i.cid (fun c =>
        { c with applies := c.applies ++
            [{ kind := .own (i.ownRange.getD []) (i.o1.word.getLsbD 0) (field i.o1.word 8 8), rem := 3 }] }) }

/-- The bundle whose one move triggers OWNSET. -/
def execOwnset (g : Guard) (src : Src) (s : State) : Host.Outcome State Fault Refusal :=
  issueOne g src opOwnset s

/-! ### Performing -/

/-- A store through a window marks its bytes in the line and gives it scope CORE (R100, R231). -/
def Core.touch (k : Core) (slot : Fin 8) (x : Word) (dirty : BitVec 128) : Core :=
  k.modWin slot (fun w =>
    match w.hit x with
    | some l => w.putLine { l with scope := .core, dirty := l.dirty ||| dirty }
    | none => w)

/-- The bytes of a line that a store of `n` bytes at `x` writes, or those of the enabled lanes of a vector store. -/
def dirtyBits (kind : SbKind) (x : Word) : BitVec 128 :=
  match kind with
  | .stx z _ => BitVec.ofNat 128 ((2 ^ (2 ^ z.val) - 1) * 2 ^ (x.toNat % 128))
  | .vstx _ mask => BitVec.ofNat 128 (packLanes 4 ((List.range 32).map (fun j => if mask.getLsbD j then 15 else 0)))
  | _ => 0

/-- What comes of writing a store's line in a window: its page permits writing, which is checked at the first store to
the line (R100), under a translation that its context has not given up (R340); nothing stands against a store elsewhere. -/
def windowFate (s : State) (cid : Cid) (win : Option (Fin 8)) (x : Word) : Xl :=
  match win.bind (fun i => (s.core cid.core).wins.get i) with
  | some w =>
    match w.hit x with
    | some l =>
      if l.dirty ≠ 0 then .ok 0
      else if s.turned cid (BitVec.ofNat 64 (w.lineAddr l)) 128 then .wait
      else translate s (clusterOf cid.core) (s.ctx cid).pasid (w.lineAddr l) true
    | none => .ok 0
  | none => .ok 0

/-- A scoreboarded operation is over: it leaves its context, and its count falls. -/
def Ctx.dropSb (c : Ctx) (seq : Nat) (isLd : Bool) : Ctx :=
  { c with sb := c.sb.filter (fun o => o.seq != seq), ld := if isLd then c.ld - 1 else c.ld,
           stc := if isLd then c.stc else c.stc - 1 }

/-- A scoreboarded access that raises FATAL_UNPROBED at its context's next boundary has no effect (R100): it is over, and
its register stays pending. -/
def Ctx.failSb (c : Ctx) (o : SbOp) (x : Word) : Ctx := (c.dropSb o.seq o.kind.isLd).unprobed x

/-- A store's bytes are written at their memory, and marked in the line of its window, if it has one. -/
def Eff.windowStore (e : Eff) (cid : Cid) (o : SbOp) (ws : List Wr) : Eff :=
  (e.put ws).on (fun s => match o.win with
    | some i => s.modCore cid.core (fun c => c.touch i o.addr (dirtyBits o.kind o.addr))
    | none => s)

/-- The effect of an LDX, VLDX, STX or VSTX at its memory (R94). -/
def Eff.access (e : Eff) (cid : Cid) (o : SbOp) (k : Nat) : Eff :=
  match o.kind with
  | .ldx z sgn rd =>
    let x := extendBytes (2 ^ z.val) sgn (e.st.mem.nat k (2 ^ z.val))
    e.ctx cid (fun c => (c.landS rd x).dropSb o.seq true)
  | .vldx rd =>
    let x : Vec := BitVec.ofNat 1024 (e.st.mem.nat k 128)
    e.ctx cid (fun c => (c.landV rd x).dropSb o.seq true)
  | .stx z data => (e.windowStore cid o (wrNat k (2 ^ z.val) data.toNat)).ctx cid (fun c => c.dropSb o.seq false)
  | .vstx data mask =>
    (e.windowStore cid o (wrPairs (maskedPairs k data (mask.setWidth 64)))).ctx cid (fun c => c.dropSb o.seq false)
  | _ => e

/-- The new value of an AMO, its width in bytes and its register (R96). -/
def amoNew (kind : SbKind) (m : Nat) : Nat × Fin 64 :=
  let mw : Word := BitVec.ofNat 64 m
  match kind with
  | .amoAdd v rd => ((mw + v).toNat, rd)
  | .amoMin v rd => ((if mw.toInt ≤ v.toInt then mw else v).toNat, rd)
  | .amoMax v rd => ((if v.toInt ≤ mw.toInt then mw else v).toNat, rd)
  | .amoSwap v rd => (v.toNat, rd)
  | .amoCas v cmp rd => ((if mw = cmp then v else mw).toNat, rd)
  | .amoFadd v rd => ((roundTo .f32 ((Fmt.f32.value m).add false (Fmt.f32.value v.toNat)) .rne).pat, rd)
  | _ => (m, 0)

/-- The effect of an AMO at its memory: the old value lands in its register (R96). -/
def Eff.amo (e : Eff) (cid : Cid) (o : SbOp) (k : Nat) : Eff :=
  let n := o.kind.size
  let m := e.st.mem.nat k n
  let (x, rd) := amoNew o.kind m
  (e.put (wrNat k n x)).ctx cid (fun c => (c.landS rd (BitVec.ofNat 64 m)).dropSb o.seq true)

/-- The operation of a context at a place in its trigger order. -/
def Ctx.sbAt (c : Ctx) (seq : Nat) : Option SbOp := c.sb.find? (fun o => o.seq == seq)

/-- Whether an operation's turn has come: no earlier access of its context on the same bytes is left (R95, R96). -/
def sbTurn (s : State) (cid : Cid) (o : SbOp) : Bool :=
  let k := aliasKey cid.core o.addr
  !behindAccess s cid o.seq o.a k o.kind.size && !behindStore s cid o.seq o.a o.kind.isAmo k o.kind.size

/-- Where a scoreboarded operation performs. -/
def sbTarget (s : State) (cid : Cid) (o : SbOp) : Target :=
  match o.kind with
  | .ldx _ _ _ | .vldx _ => targetOf s cid o.win o.addr o.kind.size
  | _ => storeTarget s cid o.seq o.win o.addr o.kind.size

/-- Whether an operation waits for what its context or the host has still to do: its value is too young to arrive (R300),
or the host's reply for the page that it is first to write is awaited (R333). -/
def sbEarly (s : State) (cid : Cid) (o : SbOp) : Bool :=
  (o.kind.isLd && (s.ctx cid).young o.seq) || (!o.kind.isLd && windowFate s cid o.win o.addr == .wait)

/-- SCOREBOARDED_ACCESS_PERFORM (R94): the LDX, VLDX, STX or VSTX of the context of `act` at place `num` of its trigger
order performs, once its turn has come, no engine owns its granule, and its line is in its window; a store to a line
whose page forbids it raises FATAL_UNPROBED instead (R100). -/
def execScoreboardedAccessPerform (s : State) : Host.Outcome State Fault Refusal :=
  let cid := s.act.cid
  match (s.ctx cid).sbAt s.act.num with
  | some o =>
    if o.kind.isAccess && sbTurn s cid o && !sbEarly s cid o then
      match sbTarget s cid o, (if o.kind.isLd then .ok 0 else windowFate s cid o.win o.addr) with
      | .at k, .ok _ => done s ((Eff.start s).access cid o k)
      | .at _, _ => done s ((Eff.start s).ctx cid (fun c => c.failSb o o.addr))
      | _, _ => stutter s
    else stutter s
  | none => stutter s

/-- AMO_PERFORM (R96): the AMO of the context of `act` at place `num` of its trigger order. -/
def execAmoPerform (s : State) : Host.Outcome State Fault Refusal :=
  let cid := s.act.cid
  match (s.ctx cid).sbAt s.act.num with
  | some o =>
    if o.kind.isAmo && sbTurn s cid o && !sbEarly s cid o then
      match sbTarget s cid o with
      | .at k => done s ((Eff.start s).amo cid o k)
      | _ => stutter s
    else stutter s
  | none => stutter s

/-- MAP_APPLY (R99): the MAPs of the context of `act` whose bundle g + 3 has issued come into force, if any is left: that
bundle's issue has put them into force. -/
def execMapApply (s : State) : Host.Outcome State Fault Refusal :=
  done s ((Eff.start s).on (fun s => s.applyMaps s.act.cid))

/-- OWNSET_APPLY (R98): the OWNSETs of the context of `act` whose bundle g + 3 has issued come into force, if any is left:
that bundle's issue has put them into force. -/
def execOwnsetApply (s : State) : Host.Outcome State Fault Refusal :=
  done s ((Eff.start s).on (fun s => s.applyOwns s.act.cid))

/-- Whether every earlier access of the core to a window has performed (R101). -/
def windowQuiet (s : State) (n : Fin 4112) (slot : Fin 8) : Bool :=
  let k := s.core n
  k.ctx.toList.all (fun c => c.sb.all (fun o => o.win != some slot) &&
    c.w.toList.all (fun w => match w with
      | some st => !st.words.isEmpty || st.win != some slot
      | none => true)) &&
  ((k.kbRun.map (·.1)).toList ++ k.kbq).all (fun o => o.win != some slot)

/-- One part of a write-back that a DRAIN or UNMAP at `seq` brings about: the sector in flight that the step picks
performs; or the CORE lines become sectors in flight, where the step says so; or everything performs and `fin` ends the
operation, where no line lacks a home; else the operation ends with FATAL_UNPROBED (R374). -/
def Eff.drainLines (e : Eff) (cid : Cid) (seq : Nat) (which : Fin 8 → Win → Line → Bool) (fin : Eff → Eff) : Eff :=
  let s := e.st
  let n := cid.core
  let gone := fun (c : Ctx) => c.dropSb seq false
  match s.act.pick, homeless s n (s.ctx cid).pasid which with
  | some j, _ => if flightMay (s.flightsOf (.win n)) j then e.landFlight (.win n) j else e
  | none, some x =>
    ((e.writeBack n (s.ctx cid).pasid .dev which).landFlights (.win n)).ctx cid (fun c => (gone c).unprobed x)
  | none, none =>
    let e := e.writeBack n (s.ctx cid).pasid .dev which
    if s.act.later then e else (fin (e.landFlights (.win n))).ctx cid gone

/-- UNMAP_COMPLETE (R101): the UNMAP of the context of `act` at place `num`: CORE lines are written back, and the
backing is ordinary scratchpad again. -/
def execUnmapComplete (s : State) : Host.Outcome State Fault Refusal :=
  let cid := s.act.cid
  let c := s.ctx cid
  match c.sbAt s.act.num with
  | some o =>
    match o.kind with
    | .unmap slot =>
      let mine := fun (i : Fin 8) (_ : Win) (_ : Line) => i == slot
      if windowQuiet s cid.core slot && drainFree s cid mine then
        done s ((Eff.start s).drainLines cid o.seq mine (fun e => e.on (fun s => s.modCore cid.core (fun k =>
          { k with wins := k.wins.set slot.val none slot.isLt }))))
      else stutter s
    | _ => stutter s
  | none => stutter s

/-- Whether every store, access and AMO that a context triggered before a place in its order has performed. -/
def accessesDone (s : State) (cid : Cid) (seq : Nat) : Bool :=
  let c := s.ctx cid
  c.stores.all (fun p => seq ≤ p.seq) &&
  c.sb.all (fun o => seq ≤ o.seq || o.kind.size == 0) &&
  (s.kbOps cid).all (fun o => seq ≤ o.seq || o.extent == 0)

/-- A window after the DRAIN of scope CLU, DEV or SYS that has written back its CORE lines (R102): the clean lines of a
SHARED window are dropped, with the sectors that fills under way have copied (R232); at SYS the DEV lines are recorded SYS. -/
def Win.drained (w : Win) (sys : Bool) : Win :=
  let ls := if w.shared then w.lines.filter (fun l => l.scope != .sys) else w.lines
  { w with parts := if w.shared then [] else w.parts
           lines := if sys then ls.map (fun l => if l.scope == .dev then { l with scope := .sys } else l) else ls }

/-- DRAIN_COMPLETE (R102): the DRAIN of the context of `act` at place `num` of its trigger order. At CLU and wider, the
core's CORE lines are written back and recorded DEV, and the clean lines of SHARED windows are dropped; at SYS, the DEV
lines are recorded SYS, since in this model a write-back is acknowledged as it performs. -/
def execDrainComplete (s : State) : Host.Outcome State Fault Refusal :=
  let cid := s.act.cid
  let c := s.ctx cid
  match c.sbAt s.act.num with
  | some o =>
    match o.kind with
    | .drain sc =>
      let every := fun (_ : Fin 8) (_ : Win) (_ : Line) => true
      if !accessesDone s cid o.seq then stutter s
      else if sc = 0 then done s ((Eff.start s).ctx cid (fun c => c.dropSb o.seq false))
      else if drainFree s cid every then
        done s ((Eff.start s).drainLines cid o.seq every (fun e => e.on (fun s => s.modCore cid.core (fun k =>
          (List.finRange 8).foldl (fun k i => k.modWin i (fun w => w.drained (sc == 3))) k))))
      else stutter s
    | _ => stutter s
  | none => stutter s

end Sys2Proof.Machine
end

