-- ==== Sys2Proof/Machine/Control.lean ====
section
/-! DEFINITION. Class C: the control unit CU (spec/04_core_ops.md R69 to R84; spec/20_progress.md R308 to R326;
spec/21_isolation.md R335 to R337; spec/22_recovery.md R350). -/

namespace Sys2Proof.Machine

/-! ### Control transfers (R39, R69, R70, R72) -/

/-- A taken control transfer of the context. -/
def Ctx.transfer (c : Ctx) (target : Word) : Ctx := { c with xfer := some { kind := .transfer, target := target, left := 2 } }

/-- The length of the bundle at an address, as far as the cache holds it. -/
def lenAt (ic : List (Nat × List Byte)) (pc : Word) : Option Nat :=
  let bs := icacheBytes ic pc 70
  if bundleNeed bs ≤ bs.length then some (bundleNeed bs) else none

/-- The first byte after the bundle at an address that the cache does not hold. -/
def firstMissing (ic : List (Nat × List Byte)) (pc : Word) : Word := pc + BitVec.ofNat 64 (icacheBytes ic pc 70).length

/-- The address that follows two bundles from an address on, or the first byte that is missing to tell. -/
def afterTwo (ic : List (Nat × List Byte)) (pc : Word) : Word ⊕ Word :=
  match lenAt ic pc with
  | none => .inr (firstMissing ic pc)
  | some n =>
    let q := pc + BitVec.ofNat 64 n
    match lenAt ic q with
    | none => .inr (firstMissing ic q)
    | some m => .inl (q + BitVec.ofNat 64 m)

/-- What a CALL finds after its bundle: the address that follows bundle g + 2 (R70). -/
def In.returnAddr (i : In) : Word ⊕ Word :=
  afterTwo (i.s.core i.cid.core).icache (i.c.pc + BitVec.ofNat 64 i.s.ir)

/-- The sector that a CALL still has to see, where its fetch can succeed. -/
def In.callNeeds (i : In) : Option Word :=
  match i.returnAddr with
  | .inl _ => none
  | .inr a => if canonical a && (fetchTrap i.s i.cid a a).isNone then some a else none

/-- The state in which a LOOP or LOOPI rotates the window and sets ps0 (R71, R72). -/
def Ctx.rotate (c : Ctx) (v : Bool) : BitVec 8 × BitVec 3 :=
  let b := c.psB - 1
  let bit : BitVec 8 := 1 <<< b.toNat
  (if v then c.psP ||| bit else c.psP &&& ~~~bit, b)

/-- What LOOP decides: its new state, and whether it branches (R72). -/
def Ctx.loopNext (c : Ctx) : LoopSt × Bool :=
  if c.lc ≠ 0 then ({ lc := some (c.lc - 1), cnt := none, win := none, rem := 2 }, true)
  else ({ lc := none, cnt := none, win := none, rem := 2 }, false)

/-- What LOOPI decides (R72). -/
def Ctx.loopiNext (c : Ctx) : LoopSt × Bool :=
  if c.lc ≠ 0 then ({ lc := some (c.lc - 1), cnt := none, win := some (c.rotate true), rem := 2 }, true)
  else if 1 < c.ecCnt.toNat then
    ({ lc := none, cnt := some (c.ecCnt - 1), win := some (c.rotate false), rem := 2 }, true)
  else if c.ecCnt = 1 then ({ lc := none, cnt := some 0, win := some (c.rotate false), rem := 2 }, false)
  else ({ lc := none, cnt := none, win := none, rem := 2 }, false)

/-- A LOOP or LOOPI: its state takes effect after two bundles; it redirects where it branches. -/
def loopOp (t : Nat) (next : Ctx → LoopSt × Bool) : Op :=
  { bus := 7, t := t
    xf := fun i => (next i.c).2
    eff := fun i s =>
      let (l, taken) := next i.c
      s.modCtx i.cid (fun c =>
        let c := { c with loop := c.loop ++ [l] }
        if taken then c.transfer i.b.word else c) }

/-- A branch on predicate `j`; it waits while the predicate is pending. -/
def branchOp (t : Nat) (j : Fin 4) (want : Bool) : Op :=
  { bus := 7, t := t + j.val
    xf := fun i => i.c.c.get j == want && !i.c.pendC.getLsbD j.val
    blk := fun i => i.c.pendC.getLsbD j.val
    eff := fun i s => if i.c.c.get j == want then s.modCtx i.cid (fun c => c.transfer i.b.word) else s }

/-! ### Quiescence (R74, R77, R309, R339) -/

/-- Whether all four counters are zero (R73). -/
def Ctx.countsZero (c : Ctx) : Bool := c.ld == 0 && c.stc == 0 && c.cp == 0 && c.tl == 0

/-- Whether all four counters are zero and the post queue is empty. -/
def Ctx.quiescent (c : Ctx) : Bool := c.countsZero && c.post.isEmpty

/-- The context stands at a quiescent point while its bundle waits (R339). -/
def standQuiet (i : In) (s : State) : State := s.modCtx i.cid (fun c => { c with quiet := true })

/-- A quiescent bundle that issues acknowledges every request that has arrived (R339). -/
def ackAll (i : In) (s : State) : State := s.modCtx i.cid (fun c => { c with ack := s.invNext })

/-- The operations that a WAIT leaves outstanding although it observes them complete: those of each count that more
operations were triggered after than its field lets be outstanding (R229; log entry 65). -/
def waitLeaves (i : In) : List Nat :=
  (List.finRange 4).flatMap (fun k => i.s.leftBehind i.cid k (field i.b.word (4 * k.val) 4))

/-- The operations that the context's later accesses and commands must perform after, once a WAIT has issued. -/
def In.waitedAfter (i : In) : List Nat :=
  i.c.waited.filter (fun q => (List.finRange 4).any (fun k => (i.s.outstanding i.cid k).contains q)) ++ waitLeaves i

/-! ### Shared addresses (R308) -/

/-- A chip-scratchpad or canonical global address, a multiple of 64. -/
def sharedAddr (a : Word) : Bool :=
  a.toNat % 64 == 0 && (match classify a with | .chip _ => true | .glob _ => true | _ => false)

/-- The bitmap block of a bit (R324). -/
def bitBlock (base : Word) (bit : Nat) : Word := base + BitVec.ofNat 64 (576 * (bit / 64))

/-- The bit index of TDONE and TWAITB. -/
def In.bit (i : In) : Nat := field i.b.word 0 32

/-! ### CSRs (R80 to R84) -/

/-- CTXINFO (R84). -/
def ctxInfo (cid : Cid) : Word :=
  BitVec.ofNat 64 (cid.core.val % 4096 * 2 ^ 32 + (clusterOf cid.core).val * 2 ^ 16 + coreIx cid.core * 2 ^ 8 + cid.ctx.val)

/-- GMEM (R84). -/
def Ctx.gmemWord (c : Ctx) : Word :=
  BitVec.ofNat 64 (((List.finRange 4).map (fun j =>
    match c.gmem.get j with | some g => (2 ^ 15 + g.toNat) * 2 ^ (16 * j.val) | none => 0)).sum)

/-- EC (R84). -/
def Ctx.ecWord (c : Ctx) : Word := BitVec.ofNat 64 (c.psB.toNat * 2 ^ 16 + c.window.toNat * 2 ^ 8 + c.ecCnt.toNat)

/-- RBQST (R84). -/
def Ctx.rbqst (c : Ctx) : Word := BitVec.ofNat 64 (c.rbq.length * 2 ^ 48 + c.rbn.toNat)

/-- The value of a CSR by its number (R81). -/
def csrRead (s : State) (cid : Cid) (n : Nat) : Word :=
  let c := s.ctx cid
  match n with
  | 0 => c.fpc
  | 1 => c.stat.setWidth 64
  | 2 => c.kpol
  | 3 => c.ixpol
  | 4 => c.lc
  | 5 => c.ecWord
  | 6 => c.gmemWord
  | 7 => ctxInfo cid
  | 8 => s.time
  | 9 => c.dbg
  | 10 => c.rbseed
  | 11 => c.rbqst
  | 12 => c.cwm.setWidth 64
  | 13 => c.joinp
  | 14 => c.pasid.setWidth 64
  | 15 => c.savea
  | _ => 0

/-- A CSR written, its read-only and reserved bits left out (R80 to R84, R103, R171, R262). -/
def Ctx.csrWrite (c : Ctx) (n : Nat) (x : Word) : Ctx :=
  match n with
  | 0 => { c with fpc := x &&& 0xF }
  | 1 => { c with stat := x.setWidth 9 }
  | 2 => { c with kpol := x &&& 0x3DFFFFFFFFFFFFFF }
  | 3 => { c with ixpol := x &&& 0x000000FCFFFFFFFF }
  | 4 => { c with lc := x }
  | 5 => { c with ecCnt := x.setWidth 8, psP := physOf (x.extractLsb' 8 8) c.psB }
  | 9 => { c with dbg := x &&& 3 }
  | 10 => { c with rbseed := x, rbq := [], rbn := 0 }
  | 11 => { c with rbq := [], rbn := x.setWidth 48 }
  | 13 => { c with joinp := x }
  | 15 => { c with savea := x }
  | _ => c

/-- Whether reading a CSR raises PRIV (R80). -/
def csrReadPriv (i : In) : Bool := 16 ≤ i.b.word.toNat || (i.b.word.toNat == 15 && !isCsc i.cid)

/-- Whether writing a CSR raises PRIV (R80). -/
def csrWritePriv (i : In) : Bool :=
  csrReadPriv i || [6, 7, 8, 12, 14].contains i.b.word.toNat

/-! ### PROBE (R336) -/

/-- What the translation of a page says to a PROBE; `wait` while the host's reply is awaited (R333), and while an
invalidation that the context has acknowledged names the page (R340). -/
inductive PageSt where
  | ok | absent | noPort | wait
  deriving DecidableEq, Repr

/-- A page as PROBE sees it. -/
def pageSt (s : State) (cid : Cid) (va : Nat) (ro : Bool) : PageSt :=
  if s.turned cid (BitVec.ofNat 64 va) 4096 then .wait
  else
    match translate s (clusterOf cid.core) (s.ctx cid).pasid va (!ro) with
    | .ok _ => .ok
    | .absent => .absent
    | .noPort => .noPort
    | .wait => .wait

/-- The first of `n` pages from `va` that is not present with the permission asked for. -/
def scanPages (s : State) (cid : Cid) (ro : Bool) : Nat → Nat → Option (Nat × PageSt)
  | 0, _ => none
  | n + 1, va =>
    match pageSt s cid va ro with
    | .ok => scanPages s cid ro n (va + 4096)
    | p => some (va, p)

/-- The length of the range. -/
def In.probeLen (i : In) : Nat := max 1 (field i.o1.word 32 32)

/-- Read only. -/
def In.probeRo (i : In) : Bool := i.o1.word.getLsbD 31

/-- Whether the range of a PROBE raises ADDRCLASS. In window 0x82 the slices of a cluster's cores lie side by side, and the
range may cross from one into the next (log entry 66). -/
def probeBad (i : In) : Bool :=
  let b := i.b.word
  let n := i.probeLen
  match locOf i.cid.core b with
  | .bad => true
  | .glob _ => 2 ^ 64 < b.toNat + n || !canonical (b + BitVec.ofNat 64 (n - 1))
  | .slice k off => 2 ^ 24 < k * 2 ^ 16 + off + n
  | l => roomOf l < n

/-- The page up to which a global PROBE has found every page present: the first of its range, or the one that it waits
for (R336: it takes the pages in ascending order). -/
def In.probeFrom (i : In) : Nat :=
  let a := i.b.word.toNat / 4096 * 4096
  match i.c.probe with
  | some q => if a ≤ q.page ∧ q.page < i.b.word.toNat + i.probeLen then q.page else a
  | none => a

/-- The page that a global PROBE has still to see, if any: the one whose request it has sent, until the answer comes, or
the next that is not present. -/
def In.probeNext (i : In) : Option (Nat × PageSt) :=
  if canonical i.b.word then
    let a := i.b.word.toNat
    match i.c.probe.bind (fun q => if q.page = i.probeFrom then q.asked else none) with
    | some _ => some (i.probeFrom, .absent)
    | none => scanPages i.s i.cid i.probeRo ((a + i.probeLen - 1) / 4096 - i.probeFrom / 4096 + 1) i.probeFrom
  else none

/-- The answer to a page request. -/
def State.priCode (s : State) (uid : Nat) : Option PriCode := (s.pri.find? (fun r => r.uid == uid)).bind (·.code)

/-- Whether a PROBE, at its quiescent point, raises FATAL_UNPROBED, and for which page. -/
def probeFatal (i : In) : Option Nat :=
  if !i.c.quiescent then none
  else
    match i.probeNext with
    | none => none
    | some (_, .ok) | some (_, .wait) => none
    | some (p, .noPort) => some p
    | some (p, .absent) =>
      match i.c.probe with
      | some q =>
        if q.page ≠ p then none
        else
          match q.asked with
          | some u =>
            match i.s.priCode u with
            | some .invalid => some p
            | some .failure => some p
            | _ => none
          | none => if q.tries = 4 then some p else none
      | none => none

/-- A page request sent to the host, if fewer than 512 are outstanding (R336). -/
def State.askPage (s : State) (pasid : BitVec 20) (page : Nat) (write : Bool) : State × Option Nat :=
  if 512 ≤ (s.pri.filter (fun r => r.code.isNone)).length then (s, none)
  else ({ s with pri := s.pri ++ [{ uid := s.nextUid, pasid := pasid, page := page, write := write, code := none }],
                 nextUid := s.nextUid + 1 }, some s.nextUid)

/-- What a PROBE does while it waits at its quiescent point: it asks for the next page, or takes the answer. -/
def probeWait (i : In) (s : State) : State :=
  let s := standQuiet i s
  let c := s.ctx i.cid
  if !i.c.quiescent then s
  else
    match i.probeNext with
    | some (p, .absent) =>
      let fresh : Probe := { page := p, tries := 0, asked := none }
      let q := match c.probe with | some q => if q.page = p then q else fresh | none => fresh
      match q.asked with
      | none =>
        let (s, u) := s.askPage c.pasid p (!i.probeRo)
        s.modCtx i.cid (fun c => { c with probe := some { q with asked := u } })
      | some u =>
        if s.priCode u = some .success then
          { s with pri := s.pri.filter (fun r => r.uid != u) }.modCtx i.cid
            (fun c => { c with probe := some { q with tries := q.tries + 1, asked := none } })
        else s
    | _ => s

/-! ### Posts, groups and bitmaps (R309, R320, R326) -/

/-- An entry of the post queue (R309). -/
def postOp (t : Nat) (chk : In → Option (Nat × Word)) (kind : In → PostKind) : Op :=
  { bus := 7, t := t, acc := true
    chk := chk
    blk := fun i => 8 ≤ i.c.post.length
    eff := fun i s => s.modCtx i.cid (fun c =>
      { c with post := c.post ++ [{ seq := c.seq, kind := kind i }], seq := c.seq + 1 }) }

/-- Whether every fixed-latency store, STX, VSTX and AMO that a context triggered before a place in its order has
performed (R238, R309). -/
def storesDone (c : Ctx) (seq : Nat) : Bool :=
  c.stores.all (fun p => seq ≤ p.seq) &&
  c.sb.all (fun o => seq ≤ o.seq || !(match o.kind with | .stx _ _ => true | .vstx _ _ => true | k => k.isAmo))

/-- Whether an element or operation of the context is in a fault queue (R320). -/
def State.parkedOf (s : State) (cid : Cid) : Bool :=
  (s.clu (clusterOf cid.core)).fq.any (fun f => s.cmds.any (fun c => c.uid == f.uid && c.cid == cid))

/-- A group of the group unit. -/
def groupsGet : List (Nat × Group) → Nat → Group
  | [], _ => { members := 0, arrived := 0, phase := 0, broken := false }
  | (a, g) :: r, n => if a = n then g else groupsGet r n

/-- The groups with one changed. -/
def groupsSet : List (Nat × Group) → Nat → Group → List (Nat × Group)
  | [], n, g => [(n, g)]
  | (a, h) :: r, n, g =>
    if n < a then (n, g) :: (a, h) :: r else if n = a then (n, g) :: r else (a, h) :: groupsSet r n g

/-- The group of a GMEM slot. -/
def In.group (i : In) (j : Fin 4) : Option (Nat × Group) := (i.c.gmem.get j).map (fun g => (g.toNat, groupsGet i.s.groups g.toNat))

/-- GROUP_BROKEN (R320, R322). -/
def gbarCheck (i : In) (j : Fin 4) : Option (Nat × Word) :=
  match i.group j with
  | none => some (causeGroup, BitVec.ofNat 64 (0xFFFFFFFFFFFFFF00 + j.val))
  | some (g, x) => if x.broken then some (causeGroup, BitVec.ofNat 64 g) else none

/-- Whether a GBAR waits: it holds no arrival, or its phase has not completed. -/
def gbarBlocks (i : In) (j : Fin 4) : Bool :=
  match i.group j, i.c.gbar.get j with
  | some (_, x), some p => x.phase == p
  | _, _ => true

/-- What a GBAR does while it waits: once the context's stores have performed and it has no parked element, its core
arrives in the phase, unless it has, and the context records the phase. -/
def gbarWait (i : In) (j : Fin 4) (s : State) : State :=
  let c := s.ctx i.cid
  match i.group j, c.gbar.get j with
  | some (g, x), none =>
    if storesDone c c.seq && !s.parkedOf i.cid then
      let here := x.arrived.getLsbD i.cid.core.val || s.arrivals.contains (g, i.cid.core.val)
      let s := if here then s else { s with arrivals := s.arrivals ++ [(g, i.cid.core.val)] }
      s.modCtx i.cid (fun c => { c with gbar := c.gbar.set j.val (some x.phase) j.isLt })
    else s
  | _, _ => s

/-- The key of a 64-byte block, for reading or writing; `wait` too while an invalidation that the context has acknowledged
names it (R340). -/
def blockKey (s : State) (cid : Cid) (a : Word) (wr : Bool) : Xl :=
  if s.turned cid a 64 then .wait else accessKey s cid.core (s.ctx cid).pasid a wr

/-- Whether a bit of a block is set (R326). -/
def bitSet (s : State) (cid : Cid) (blk : Word) (bit : Nat) : Bool :=
  match blockKey s cid blk false with
  | .ok k => (s.mem.word k).getLsbD (bit % 64) && !keyHeld s k 64 && !atomicHeld s k 8
  | _ => false

/-- The traps of TWAITB: ADDRCLASS for its block, FATAL_UNPROBED for a page that is not present. -/
def twaitCheck (i : In) : Option (Nat × Word) :=
  let blk := bitBlock i.o1.word i.bit
  if !sharedAddr blk then some (causeAddr, blk)
  else
    match blockKey i.s i.cid blk false with
    | .ok _ | .wait => none
    | _ => some (causeUnprobed, blk)

/-- ADDRCLASS for an EXIT whose JOINP is not zero and no 64-aligned shared address (R313). -/
def exitCheck (i : In) : Option (Nat × Word) :=
  if i.c.joinp ≠ 0 ∧ !sharedAddr i.c.joinp then some (causeAddr, i.c.joinp) else none

/-- The context that ERET names, of the issuing CSC's cluster (R350). -/
def In.eretCid (i : In) : Cid :=
  { core := Fin.ofNat 4112 (256 * (clusterOf i.cid.core).val + field i.b.word 0 8), ctx := Fin.ofNat 4 (field i.b.word 8 2) }

/-! ### The operations and the bundles whose one move triggers them -/


/-- BR (R69). -/
def opBr : Op := 
  { bus := 7, t := 0
    xf := fun _ => true
    eff := fun i s => s.modCtx i.cid (fun c => c.transfer i.b.word) }

/-- The bundle whose one move triggers BR. -/
def execBr (g : Guard) (src : Src) (s : State) : Host.Outcome State Fault Refusal :=
  issueOne g src opBr s

/-- BRC (R69). -/
def opBrc (j : Fin 4) : Op := branchOp 4 j true

/-- The bundle whose one move triggers BRC. -/
def execBrc (g : Guard) (src : Src) (j : Fin 4) (s : State) : Host.Outcome State Fault Refusal :=
  issueOne g src (opBrc j) s

/-- BRNC (R69). -/
def opBrnc (j : Fin 4) : Op := branchOp 8 j false

/-- The bundle whose one move triggers BRNC. -/
def execBrnc (g : Guard) (src : Src) (j : Fin 4) (s : State) : Host.Outcome State Fault Refusal :=
  issueOne g src (opBrnc j) s

/-- CALL (R70): it does not wait for s63, whose pending value lands later and replaces the return address (log entry 67). -/
def opCall : Op := 
  { bus := 7, t := 12
    xf := fun _ => true
    blk := fun i => i.callNeeds.isSome
    wait := fun i s =>
      match i.callNeeds with
      | some a => (fetchSector (Eff.start s) i.cid a).st
      | none => s
    eff := fun i s =>
      let ra := match i.returnAddr with | .inl a => a | .inr _ => i.s.freeWord
      s.modCtx i.cid (fun c => (c.writeS 63 ra).transfer i.b.word) }

/-- The bundle whose one move triggers CALL. -/
def execCall (g : Guard) (src : Src) (s : State) : Host.Outcome State Fault Refusal :=
  issueOne g src opCall s

/-- RET (R69). -/
def opRet : Op := 
  { bus := 7, t := 16
    xf := fun _ => true
    eff := fun i s => s.modCtx i.cid (fun c => c.transfer i.b.word) }

/-- The bundle whose one move triggers RET. -/
def execRet (g : Guard) (src : Src) (s : State) : Host.Outcome State Fault Refusal :=
  issueOne g src opRet s

/-- LOOP (R72). -/
def opLoop : Op := loopOp 20 Ctx.loopNext

/-- The bundle whose one move triggers LOOP. -/
def execLoop (g : Guard) (src : Src) (s : State) : Host.Outcome State Fault Refusal :=
  issueOne g src opLoop s

/-- LOOPI (R72). -/
def opLoopi : Op := loopOp 24 Ctx.loopiNext

/-- The bundle whose one move triggers LOOPI. -/
def execLoopi (g : Guard) (src : Src) (s : State) : Host.Outcome State Fault Refusal :=
  issueOne g src opLoopi s

/-- EXIT (R77, R313). -/
def opExit : Op := 
  { bus := 7, t := 28
    xf := fun _ => true
    chk := exitCheck
    blk := fun i => !i.c.quiescent
    wait := standQuiet
    eff := fun i s =>
      (ackAll i s).modCtx i.cid (fun c => { c with xfer := some { kind := .exit, target := 0, left := 2 } }) }

/-- The bundle whose one move triggers EXIT. -/
def execExit (g : Guard) (src : Src) (s : State) : Host.Outcome State Fault Refusal :=
  issueOne g src opExit s

/-- WAIT (R74, R229, R309). -/
def opWait : Op := 
  { bus := 7, t := 32
    blk := fun i =>
      let b := i.b.word
      field b 0 4 < i.c.ld || field b 4 4 < i.c.stc || field b 8 4 < i.c.cp || field b 12 4 < i.c.tl ||
        (field b 0 16 == 0 && !i.c.post.isEmpty)
    wait := fun i s => if field i.b.word 0 16 = 0 then standQuiet i s else s
    left := waitLeaves
    eff := fun i s =>
      let s := if field i.b.word 0 16 = 0 then ackAll i s else s
      s.modCtx i.cid (fun c => { c with waited := i.waitedAfter }) }

/-- The bundle whose one move triggers WAIT. -/
def execWait (g : Guard) (src : Src) (s : State) : Host.Outcome State Fault Refusal :=
  issueOne g src opWait s

/-- CSRRD (R80). -/
def opCsrrd : Op := 
  { bus := 7, t := 36, res := true
    pv := csrReadPriv
    eff := fun i s =>
      let s := if i.b.word = 8 then s.clock else s
      let x := if i.b.word = 8 then s.time else csrRead i.s i.cid i.b.word.toNat
      s.modCtx i.cid (fun c => c.result 7 2 (some (.sc x)) none 0) }

/-- The bundle whose one move triggers CSRRD. -/
def execCsrrd (g : Guard) (src : Src) (s : State) : Host.Outcome State Fault Refusal :=
  issueOne g src opCsrrd s

/-- CSRWR (R80). -/
def opCsrwr : Op := 
  { bus := 7, t := 40
    pv := csrWritePriv
    eff := fun i s => s.modCtx i.cid (fun c => c.csrWrite i.b.word.toNat i.o1.word) }

/-- The bundle whose one move triggers CSRWR. -/
def execCsrwr (g : Guard) (src : Src) (s : State) : Host.Outcome State Fault Refusal :=
  issueOne g src opCsrwr s

/-- TRAP (R79). -/
def opTrap : Op := 
  { bus := 7, t := 44
    eff := fun _ s => s
    sw := fun i => some i.b.word }

/-- The bundle whose one move triggers TRAP. -/
def execTrap (g : Guard) (src : Src) (s : State) : Host.Outcome State Fault Refusal :=
  issueOne g src opTrap s

/-- QPT (R337). -/
def opQpt : Op := 
  { bus := 7, t := 48
    blk := fun i =>
      !i.c.quiescent || i.s.invals.any (fun q => q.num < i.c.qpt.getD i.s.invNext)
    wait := fun i s =>
      (standQuiet i s).modCtx i.cid (fun c => { c with qpt := some (c.qpt.getD i.s.invNext) })
    eff := fun i s => (ackAll i s).modCtx i.cid (fun c => { c with qpt := none }) }

/-- The bundle whose one move triggers QPT. -/
def execQpt (g : Guard) (src : Src) (s : State) : Host.Outcome State Fault Refusal :=
  issueOne g src opQpt s

/-- PROBE (R336). -/
def opProbe : Op := 
  { bus := 7, t := 52
    chk := fun i =>
      if probeBad i then some (causeAddr, i.b.word)
      else (probeFatal i).map (fun p => (causeUnprobed, BitVec.ofNat 64 p))
    blk := fun i => !i.c.quiescent || i.probeNext.isSome
    wait := probeWait
    eff := fun i s => (ackAll i s).modCtx i.cid (fun c => { c with probe := none }) }

/-- The bundle whose one move triggers PROBE. -/
def execProbe (g : Guard) (src : Src) (s : State) : Host.Outcome State Fault Refusal :=
  issueOne g src opProbe s

/-- SPAWN (R308, R310). -/
def opSpawn (pri : Fin 4) : Op := 
  postOp (56 + pri.val)
    (fun i => if i.o2.word ≠ 0 ∧ !sharedAddr i.o2.word then some (causeAddr, i.o2.word) else none)
    (fun i => .spawn i.b.word i.o1.word i.o2.word ((i.o3 &&& ~~~3) ||| BitVec.ofNat 64 pri.val))

/-- The bundle whose one move triggers SPAWN. -/
def execSpawn (g : Guard) (src : Src) (pri : Fin 4) (s : State) : Host.Outcome State Fault Refusal :=
  issueOne g src (opSpawn pri) s

/-- JOINI (R308, R311). -/
def opJoini : Op := 
  postOp 60 (fun i => if sharedAddr i.b.word then none else some (causeAddr, i.b.word))
    (fun i => .joini i.b.word (i.o1.word.setWidth 32) (i.o2.word.getLsbD 0))

/-- The bundle whose one move triggers JOINI. -/
def execJoini (g : Guard) (src : Src) (s : State) : Host.Outcome State Fault Refusal :=
  issueOne g src opJoini s

/-- GBAR (R320). -/
def opGbar (j : Fin 4) : Op := 
  { bus := 7, t := 64 + j.val
    chk := fun i => gbarCheck i j
    blk := fun i => gbarBlocks i j
    wait := fun i s => gbarWait i j s
    eff := fun i s => s.modCtx i.cid (fun c => { c with gbar := c.gbar.set j.val none j.isLt }) }

/-- The bundle whose one move triggers GBAR. -/
def execGbar (g : Guard) (src : Src) (j : Fin 4) (s : State) : Host.Outcome State Fault Refusal :=
  issueOne g src (opGbar j) s

/-- TDONE (R308, R325). -/
def opTdone : Op := 
  postOp 68
    (fun i => if sharedAddr (bitBlock i.o1.word i.bit) then none else some (causeAddr, bitBlock i.o1.word i.bit))
    (fun i => .tdone (bitBlock i.o1.word i.bit) (i.bit % 64) (i.o2.word.getLsbD 63) (i.o2.word.setWidth 24))

/-- The bundle whose one move triggers TDONE. -/
def execTdone (g : Guard) (src : Src) (s : State) : Host.Outcome State Fault Refusal :=
  issueOne g src opTdone s

/-- TWAITB (R326): it enters its wait when it first reaches issue, and issues once a read performed after that has returned
its bit set (`TWAITB_WAKE`); so it always blocks at least once (R300). -/
def opTwaitb : Op := 
  { bus := 7, t := 72, acc := true
    chk := twaitCheck
    blk := fun i => i.c.tw != some (bitBlock i.o1.word i.bit, i.bit % 64, true)
    wait := fun i s => s.modCtx i.cid (fun c =>
      let x := (bitBlock i.o1.word i.bit, i.bit % 64)
      { c with tw := some (x.1, x.2, c.tw == some (x.1, x.2, true)) })
    eff := fun i s => s.modCtx i.cid (fun c => { c with tw := none }) }

/-- The bundle whose one move triggers TWAITB. -/
def execTwaitb (g : Guard) (src : Src) (s : State) : Host.Outcome State Fault Refusal :=
  issueOne g src opTwaitb s

/-- ERET (R350). -/
def opEret : Op := 
  { bus := 7, t := 76, priv := true
    xf := fun _ => true
    eff := fun i s => (s.eret i.eretCid).modCtx i.cid (fun c => c.transfer i.o1.word) }

/-- The bundle whose one move triggers ERET. -/
def execEret (g : Guard) (src : Src) (s : State) : Host.Outcome State Fault Refusal :=
  issueOne g src opEret s

/-- HALT (R78, R309). -/
def opHalt : Op := 
  { bus := 7, t := 80
    xf := fun _ => true
    blk := fun i => !i.c.quiescent
    eff := fun i s =>
      { s with nextUid := s.nextUid + 1 }.modCtx i.cid (fun c =>
        { c with xfer := some { kind := .halt, target := 0, left := 2 }, haltAt := some (i.b.word, s.nextUid) }) }

/-- The bundle whose one move triggers HALT. -/
def execHalt (g : Guard) (src : Src) (s : State) : Host.Outcome State Fault Refusal :=
  issueOne g src opHalt s

end Sys2Proof.Machine
end

