-- ==== Sys2Proof/Machine/Special.lean ====
section
/-! DEFINITION. The special functions (spec/06_arithmetic.md R122) as exact reals: a function value that is no short
binary number is given by an open interval that fixes its first 40 bits, which every rounding of R114 needs at most.
Values are bounded in fixed point with `p` fraction bits and widened until the interval decides (log entry 17). -/

namespace Sys2Proof.Machine

/-- The special functions that class X and KMAP share; XDIV stands apart. -/
inductive SpFn where
  | rcp | rsq | sqrt | exp2 | exp | log2 | log | sin | cos | tanh | sigm | gelu | silu
  deriving DecidableEq, Repr

/-- A number for a function, for the free value of an undecided rounding. -/
def SpFn.code : SpFn → Nat
  | .rcp => 0 | .rsq => 1 | .sqrt => 2 | .exp2 => 3 | .log2 => 4 | .exp => 5 | .sin => 6 | .cos => 7
  | .tanh => 8 | .sigm => 9 | .gelu => 10 | .silu => 11 | .log => 12

/-! ### Fixed point -/

/-- How many units in the last place the fixed-point values below may be off. -/
def fxErr : Nat := 2 ^ 14

/-- The open interval that a value `m` ± `err` in units of 2^`e` lies in, where it decides the first 40 bits. -/
def settleReal (neg : Bool) (m err : Nat) (e : Int) : Option Rl :=
  if m ≤ err then none
  else
    let lo := m - err
    let sh := Nat.log2 lo - 40
    if lo / 2 ^ sh = (m + err) / 2 ^ sh ∧ lo % 2 ^ sh ≠ 0 then some (.fin neg (lo / 2 ^ sh) (e + sh) true) else none

/-- Σ x^k/k! from a term on. -/
def fxExpSum (p x : Nat) : Nat → Nat → Nat → Nat
  | 0, _, _ => 0
  | n + 1, k, t => if t = 0 then 0 else t + fxExpSum p x n (k + 1) (t * x / 2 ^ p / (k + 1))

/-- e^x for x in [0, 1). -/
def fxExp (p x : Nat) : Nat := fxExpSum p x p 0 (2 ^ p)

/-- Σ ±y^(2k+1)/(2k+1) from a power on: alternating for the arc tangent, else for its hyperbolic kin. -/
def fxOdd (alt : Bool) (p y2 : Nat) : Nat → Nat → Nat → Int
  | 0, _, _ => 0
  | n + 1, k, t =>
    if t = 0 then 0
    else
      let r := fxOdd alt p y2 n (k + 1) (t * y2 / 2 ^ p)
      ((t / (2 * k + 1) : Nat) : Int) + (if alt then -r else r)

/-- artanh y for 0 ≤ y < 1/2. -/
def fxArtanh (p y : Nat) : Nat := (fxOdd false p (y * y / 2 ^ p) p 0 y).toNat

/-- arctan y for 0 ≤ y < 1/2. -/
def fxArctan (p y : Nat) : Nat := (fxOdd true p (y * y / 2 ^ p) p 0 y).toNat

/-- ln 2. -/
def fxLn2 (p : Nat) : Nat := 2 * fxArtanh (p + 8) (2 ^ (p + 8) / 3) / 2 ^ 8

/-- π, by Machin's formula. -/
def fxPi (p : Nat) : Nat :=
  (16 * fxArctan (p + 16) (2 ^ (p + 16) / 5) - 4 * fxArctan (p + 16) (2 ^ (p + 16) / 239)) / 2 ^ 16

/-- Σ (−1)^k x^(2k+j)/(2k+j)! from a term on. -/
def fxTrigSum (p x2 : Nat) : Nat → Nat → Nat → Int
  | 0, _, _ => 0
  | n + 1, k, t =>
    if t = 0 then 0
    else (t : Int) - fxTrigSum p x2 n (k + 2) (t * x2 / 2 ^ p / ((k + 1) * (k + 2)))

/-- sin r for r in [0, π/2]. -/
def fxSin (p r : Nat) : Nat := (fxTrigSum p (r * r / 2 ^ p) p 1 r).toNat

/-- cos r for r in [0, π/2]. -/
def fxCos (p r : Nat) : Nat := (fxTrigSum p (r * r / 2 ^ p) p 0 (2 ^ p)).toNat

/-- A non-negative real `q`·2^`e` in fixed point, rounded down. -/
def fxOf (p q : Nat) (e : Int) : Nat :=
  if 0 ≤ e + p then q * 2 ^ (e + p).toNat else q / 2 ^ (-(e + p)).toNat

/-- e^(±x) for a fixed-point x: a mantissa in [1, 2) and the exponent of 2 beside it. -/
def fxExpOf (p : Nat) (neg : Bool) (x : Nat) : Nat × Int :=
  let l := fxLn2 p
  let n := x / l
  if neg then
    -- −x = −(n+1)·ln 2 + r
    (fxExp p ((n + 1) * l - x), -((n : Int) + 1))
  else (fxExp p (x - n * l), (n : Int))

/-- e^−x for a fixed-point x, in fixed point. -/
def fxExpNeg (p x : Nat) : Nat :=
  let (m, n) := fxExpOf p true x
  m / 2 ^ (-n).toNat

/-- 1 / (1 + t). -/
def fxInv1p (p t : Nat) : Nat := 2 ^ (2 * p) / (2 ^ p + t)

/-- Σ x^(2k+1)/(1·3·5···(2k+1)) from a term on. -/
def fxPhiSum (p x2 : Nat) : Nat → Nat → Nat → Nat
  | 0, _, _ => 0
  | n + 1, k, t => if t = 0 then 0 else t + fxPhiSum p x2 n (k + 1) (t * x2 / 2 ^ p / (2 * k + 3))

/-- Φ(x) − 1/2 for x ≥ 0. -/
def fxPhi (p x : Nat) : Nat :=
  let x2 := x * x / 2 ^ p
  let s := fxPhiSum p x2 (4 * p) 0 x
  let (m, n) := fxExpOf p true (x2 / 2)
  let r2 := 2 * fxPi p * 2 ^ p
  let root := isqrt r2 (Nat.log2 r2 / 2 + 1) 0
  m * s / root / 2 ^ (-n).toNat

/-! ### The functions at one precision -/

/-- A real just above (`up`) or just below a short number `q`·2^`e`. -/
def beside (neg up : Bool) (q : Nat) (e : Int) : Rl :=
  if up then .fin neg (q * 2 ^ 40) (e - 40) true else .fin neg (q * 2 ^ 40 - 1) (e - 40) true

/-- A real in (0, 2^-300). -/
def tinyReal (neg : Bool) : Rl := .fin neg 0 (-300) true

/-- A real above 2^300. -/
def hugeReal (neg : Bool) : Rl := .fin neg 1 300 true

/-- Whether a magnitude `q`·2^`e` is below 2^`b`. -/
def below (q : Nat) (e b : Int) : Bool := (Nat.log2 q : Int) + e < b

/-- The function at a finite argument that is not zero, with `p` fraction bits: the exact value, an interval that
decides, or nothing. -/
def SpFn.at (f : SpFn) (p : Nat) (neg : Bool) (q : Nat) (e : Int) : Option Rl :=
  let x := fxOf p q e
  match f with
  | .rcp => some ((rlInt 1).div (.fin neg q e false))
  | .rsq => some (Rl.rsqrt (.fin neg q e false))
  | .sqrt => some (Rl.sqrt (.fin neg q e false))
  | .exp2 =>
    if !below q e 9 then some (if neg then tinyReal false else hugeReal false)
    else if below q e (-66) then some (beside false (!neg) 1 0)
    else
      let n := x / 2 ^ p
      let r := x % 2 ^ p
      if 0 ≤ e ∨ r = 0 then some (.fin false 1 (if neg then -(n : Int) else n) false)
      else
        let r' := if neg then 2 ^ p - r else r
        let n' : Int := if neg then -(n : Int) - 1 else n
        settleReal false (fxExp p (r' * fxLn2 p / 2 ^ p)) fxErr (n' - p)
  | .exp =>
    if !below q e 8 then some (if neg then tinyReal false else hugeReal false)
    else if below q e (-66) then some (beside false (!neg) 1 0)
    else
      let (m, n) := fxExpOf p neg x
      settleReal false m fxErr (n - p)
  | .log2 | .log =>
    -- x = m·2^k with m in [3/4, 3/2)
    let l := Nat.log2 q
    let k0 : Int := (l : Int) + e
    let m0 := fxOf p q (-(l : Int))
    let big := 3 * 2 ^ p ≤ 2 * m0
    let k : Int := if big then k0 + 1 else k0
    let m := if big then m0 / 2 else m0
    let one := 2 ^ p
    if m = one then
      (if f = .log2 then some (rlInt k)
       else if k = 0 then some (rlInt 0)
       else settleReal (k < 0) (k.natAbs * fxLn2 p) fxErr (-(p : Int)))
    else
      let y := if one ≤ m then (m - one) * one / (m + one) else (one - m) * one / (m + one)
      let a : Int := 2 * (fxArtanh p y : Int)
      let v : Int := k * (fxLn2 p : Int) + (if one ≤ m then a else -a)
      let v' : Int := if f = .log2 then v * (one : Int) / (fxLn2 p : Int) else v
      settleReal (v' < 0) v'.natAbs fxErr (-(p : Int))
  | .sin | .cos =>
    if below q e (-35) then
      some (if f = .sin then beside neg false q e else beside false false 1 0)
    else
      let w := p + 140
      let half := fxPi w / 2
      let z := fxOf w q e
      let n := z / half
      let r := (z - n * half) / 2 ^ 140
      let v := if (n % 2 = 0) = (f = .sin) then fxSin p r else fxCos p r
      let minus := if f = .sin then (n % 4 ≥ 2) != neg else n % 4 = 1 ∨ n % 4 = 2
      settleReal minus v fxErr (-(p : Int))
  | .tanh =>
    if below q e (-35) then some (beside neg false q e)
    else if !below q e 4 then some (beside neg false 1 0)
    else
      let t := fxExpNeg p (2 * x)
      settleReal neg ((2 ^ p - t) * 2 ^ p / (2 ^ p + t)) fxErr (-(p : Int))
  | .sigm =>
    if below q e (-41) then some (beside false (!neg) 1 (-1))
    else if !below q e 8 then some (if neg then tinyReal false else beside false false 1 0)
    else if !neg then
      (if !below q e 5 then some (beside false false 1 0)
       else settleReal false (fxInv1p p (fxExpNeg p x)) fxErr (-(p : Int)))
    else
      let (m, n) := fxExpOf p true x
      settleReal false (m * fxInv1p p (m / 2 ^ (-n).toNat) / 2 ^ p) fxErr (n - p)
  | .silu =>
    if below q e (-65) then some (beside neg (!neg) q (e - 1))
    else if !below q e 8 then some (if neg then tinyReal true else beside false false q e)
    else if !neg then
      (if !below q e 6 then some (beside false false q e)
       else settleReal false (q * fxInv1p p (fxExpNeg p x)) (q * fxErr) (e - p))
    else
      let (m, n) := fxExpOf p true x
      settleReal true (q * (m * fxInv1p p (m / 2 ^ (-n).toNat) / 2 ^ p)) (q * fxErr) (e + n - p)
  | .gelu =>
    if below q e (-65) then some (beside neg (!neg) q (e - 1))
    else if !below q e 4 then some (if neg then tinyReal true else beside false false q e)
    else
      let h := fxPhi p x
      let one := 2 ^ (p - 1)
      settleReal neg (q * (if neg then one - h else one + h)) (q * fxErr) (e - p)

/-- The function at a finite argument that is not zero: the first precision that decides. -/
def SpFn.search (f : SpFn) (neg : Bool) (q : Nat) (e : Int) : List Nat → Option Rl
  | [] => none
  | p :: ps =>
    match f.at p neg q e with
    | some r => some r
    | none => f.search neg q e ps

/-- The precisions, in fraction bits. -/
def precisions : List Nat := [128, 192, 320, 576]

/-- A special function of a real (R122): its value and the flags NV and DZ. No value where the model's intervals do not
decide; the value of XTANH at -0 is -0 (log entry 17). -/
def SpFn.eval (f : SpFn) (x : Rl) : Option Rl × BitVec 9 :=
  match x with
  | .nan => (some .nan, 0)
  | .inf n =>
    match f with
    | .rcp => (some (rlZero n), 0)
    | .rsq => if n then (some .nan, flNV) else (some (rlZero false), 0)
    | .sqrt => if n then (some .nan, flNV) else (some (.inf false), 0)
    | .log2 | .log => if n then (some .nan, flNV) else (some (.inf false), 0)
    | .exp2 | .exp => (some (if n then rlZero false else .inf false), 0)
    | .sin | .cos => (some .nan, flNV)
    | .tanh => (some (.fin n 1 0 false), 0)
    | .sigm => (some (if n then rlZero false else rlInt 1), 0)
    | .gelu | .silu => (some (if n then rlZero true else .inf false), 0)
  | .fin n q e _ =>
    if q = 0 then
      match f with
      | .rcp | .rsq => (some (.inf n), flDZ)
      | .sqrt | .sin | .tanh | .gelu | .silu => (some (rlZero n), 0)
      | .exp2 | .exp | .cos => (some (rlInt 1), 0)
      | .log2 | .log => (some (.inf true), flDZ)
      | .sigm => (some (.fin false 1 (-1) false), 0)
    else if n ∧ (f = .rsq ∨ f = .sqrt ∨ f = .log2 ∨ f = .log) then (some .nan, flNV)
    else (f.search n q e precisions, 0)

/-- A special function of a pattern rounded to a format (R122, R114). -/
def SpFn.round (f : SpFn) (fmt out : Fmt) (pat : Nat) (m : RMode) : Rounded :=
  match f.eval (fmt.value pat) with
  | (some r, fl) => let x := roundTo out r m; { x with fl := x.fl ||| fl }
  | (none, fl) =>
    let v := (Config.special f.code out.width (BitVec.ofNat 32 pat)).toNat % 2 ^ out.width
    { pat := v, fl := fl ||| flNX, sub := false }

end Sys2Proof.Machine
end

