-- ==== Sys2Proof/Machine/Codebook.lean ====
section
/-! DEFINITION. What the operations on codebooks compute (spec/08_codebooks.md R150 to R174): unary functions, merging,
sorting, pairs, re-clustering, the verdict and the remaps. -/

namespace Sys2Proof.Machine

/-! ### k-registers and x registers (R152 to R154) -/

/-- Cap(T) (R152). -/
def KTag.cap : KTag → Nat | .f32 => 128 | _ => 256

/-- A tag's number. -/
def KTag.num : KTag → Nat | .f32 => 0 | .bf16 => 1 | .f16 => 2

/-- The tag of a two-bit field; 3 names another one. -/
def tagOf (x : Nat) (other : KTag) : KTag := match x with | 0 => .f32 | 1 => .bf16 | 2 => .f16 | _ => other

/-- Strictly rising values without a NaN (R153); −0 equals +0. -/
def rising : List Rl → Bool
  | [] => true
  | [x] => !x.isNaN
  | x :: y :: r => x.lt y && rising (y :: r)

/-- The live entries of a k-register. -/
def KReg.entries (k : KReg) : List Nat := lanesOf k.tag.fmt.width k.n k.st

/-- Their values. -/
def KReg.values (k : KReg) : List Rl := k.entries.map k.tag.fmt.value

/-- The sorted flag brought up to date (R153). -/
def KReg.resort (k : KReg) : KReg := { k with sorted := k.n != 0 && rising k.values }

/-- A k-register that holds some entries and zeros beyond them (R152). -/
def KReg.make (tag : KTag) (l : List Nat) : KReg :=
  ({ st := BitVec.ofNat 4096 (packLanes tag.fmt.width l), n := l.length, tag := tag, sorted := false } : KReg).resort

/-- An x register of 256 bytes (R154). -/
def xMake (f : Nat → Nat) : BitVec 2048 := BitVec.ofNat 2048 (packLanes 8 ((List.range 256).map f))

/-- Entry `i` of an x register. -/
def xAt (x : BitVec 2048) (i : Nat) : Nat := laneOf 8 x.toNat i

/-- A map whose entries at and above the old count are 255 (R154). -/
def xMap (l : List Nat) : BitVec 2048 := xMake (fun i => l.getD i 255)

/-- An x register as the context's bundles see it (R162). -/
def Ctx.xSeen (c : Ctx) (i : Fin 4) : BitVec 2048 :=
  match kOldFind c.kOld true i.val with
  | some o => o.x
  | none => c.x.get i

/-! ### Unary functions (R164) -/

/-- The order of values of R130, in which −0 lies just below +0. -/
def Rl.under (x y : Rl) : Bool := x.lt y || (x.isZero && y.isZero && x.neg && !y.neg)

/-- Min or Max of R131. -/
def Rl.pick (larger : Bool) (x y : Rl) : Rl :=
  if x.isNaN || y.isNaN then .nan else if x.under y == larger then y else x

/-- The integer nearest a value under a mode; a zero result keeps the sign (R164 ROUND). -/
def Rl.toIntegral (x : Rl) (m : RMode) : Rl :=
  match x with
  | .fin n _ e _ =>
    if 0 ≤ e then x else .fin n (convertInt (-(2 ^ 256)) (2 ^ 256) x m).1.natAbs 0 false
  | x => x

/-- The special function of a KMAP code (R164). -/
def kmapFn (f : Nat) : Option SpFn :=
  match f with
  | 6 => some .exp | 7 => some .log | 8 => some .rcp | 9 => some .rsq
  | 10 => some .sigm | 11 => some .tanh | 12 => some .gelu | 13 => some .silu
  | _ => none

/-- Fn(f, x) for the exact codes, with the patterns of .o1 and .o2 (R164). -/
def kmapReal (f : Nat) (o1 o2 : Word) (x : Rl) : Rl :=
  let p := Fmt.f32.value (o1.toNat % 2 ^ 32)
  let q := Fmt.f32.value (o2.toNat % 2 ^ 32)
  match f with
  | 0 => x.minus
  | 1 => x.withSign false
  | 2 => if x.isNaN then .nan else if (rlZero false).lt x then x else rlZero false
  | 3 => (x.pick true p).pick false q
  | 4 => (p.mul x).add false q
  | 5 => x.mul x
  | 15 => x.toIntegral (modeOf o1)
  | _ => x

/-- KMAP (R164). -/
def kmap (f : Nat) (o1 o2 : Word) (tag : KTag) (k : KReg) : KReg :=
  KReg.make tag ((k.entries.take tag.cap).map (fun p =>
    match kmapFn f with
    | some g => (g.round k.tag.fmt tag.fmt p .rne).pat
    | none => (roundTo tag.fmt (kmapReal f o1 o2 (k.tag.fmt.value p)) .rne).pat))

/-! ### Merging and sorting (R165, R166) -/

/-- The place of a number in a list; the list's length where it is absent. -/
def placeOf (x : Nat) (l : List Nat) : Nat := l.findIdx (fun y => y == x)

/-- KCMP (R165): the survivors and the map. -/
def kcmp (k : KReg) : KReg × BitVec 2048 :=
  let l := k.entries.map k.tag.fmt.canon
  let u := l.foldl (fun u c => if u.contains c then u else u ++ [c]) []
  (KReg.make k.tag u, xMap (l.map (fun c => placeOf c u)))

/-- An entry put behind those that are not above it: NaN entries last (R166). -/
def insertEntry (f : Fmt) (x : Nat × Nat) : List (Nat × Nat) → List (Nat × Nat)
  | [] => [x]
  | y :: r =>
    let a := f.value x.1
    let b := f.value y.1
    if a.lt b || (!a.isNaN && b.isNaN) then x :: y :: r else y :: insertEntry f x r

/-- KSORT (R166): the entries in order and the map. The sorted flag of an empty result is 0, as R153 has it for every write
(log entry 70). -/
def ksort (k : KReg) : KReg × BitVec 2048 :=
  let l := (k.entries.map k.tag.fmt.canon).zipIdx
  let r := l.foldl (fun r x => insertEntry k.tag.fmt x r) []
  (KReg.make k.tag (r.map (·.1)), xMap ((List.range k.n).map (fun i => placeOf i (r.map (·.2)))))

/-! ### The verdict (R171, R172) -/

/-- KPOL.OVR. -/
def kpolOvr (p : Word) : Nat := field p 60 2

/-- The limit of a decision (R168): the target, TMAX and the capacity. -/
def kbLimit (target : Nat) (kpol : Word) (tag : KTag) : Nat :=
  let t := if target = 0 then 256 else target
  let m := field kpol 48 9
  min t (min (if m = 0 then 256 else min m 256) tag.cap)

/-- Whether an error is above a threshold: a NaN threshold is exceeded by nothing, a negative one by everything
(R172). -/
def exceeds (err thr scale : Rl) : Bool :=
  !thr.isNaN && (thr.lt (rlZero false) || (thr.mul scale).lt err)

/-- Verdict (R172): whether the result is abandoned. -/
def verdictDense (kpol : Word) (c : Nat) (err m : Rl) (ok : Bool) (lim : Nat) (tag : KTag) : Bool :=
  let mode := field kpol 58 2
  if kpolOvr kpol = 2 then true
  else if !ok || tag.cap < c then true
  else if kpolOvr kpol = 1 then false
  else if lim < c then true
  else (mode % 2 == 1 && exceeds err (Fmt.f32.value (field kpol 0 32)) (rlInt 1)) ||
    (2 ≤ mode && exceeds err (Fmt.bf16.value (field kpol 32 16)) m)

/-! ### Pairs (R167) -/

/-- Op of KPAIR on two values (R167). -/
def kpairReal (op : Nat) (x y : Rl) : Rl :=
  match op with
  | 0 => x.add false y
  | 1 => x.add false y.minus
  | 2 => x.mul y
  | 3 => x.pick false y
  | 4 => x.pick true y
  | _ => x.div y

/-- KPAIR (R167): the pair buffer and the verdict. -/
def kpair (op : Nat) (kpol : Word) (holder : Option (Fin 4)) (a b : KReg) : Pair × Bool :=
  if 4096 < a.n * b.n then ({ holder := holder, st := .oversize, na := a.n, nb := b.n, p := [] }, true)
  else
    let p := a.values.flatMap (fun x => b.values.map (fun y =>
      BitVec.ofNat 32 (roundTo .f32 (kpairReal op x y) .rne).pat))
    ({ holder := holder, st := .values, na := a.n, nb := b.n, p := p }, kpolOvr kpol == 2)

/-! ### Re-clustering (R168 to R170) -/

/-- The unit in which finite values and the products of two are integers: 2^−298. -/
def fineUnit : Int := -298

/-- A finite value in that unit; −0 reads as +0. -/
def Rl.fine : Rl → Int
  | .fin n q e _ => scaled n q e fineUnit
  | _ => 0

/-- A number of that unit as a real. -/
def ofFine (x : Int) : Rl := .fin (x < 0) x.natAbs fineUnit false

/-- A bound: a number of the unit, or none for +∞. -/
abbrev Bound := Option Int

/-- A non-negative bound from a pattern; a negative or NaN one is +0 (R168). -/
def boundOf (x : Rl) : Bound :=
  match x with
  | .inf n => if n then some 0 else none
  | x => some (max x.fine 0)

/-- One member more for the greedy scan: the open cluster grows, or a new one opens (R169). -/
def scanStep (e : Bound) (l : List (Int × Int)) (v : Int) : List (Int × Int) :=
  match l with
  | [] => [(v, v)]
  | (a, b) :: r =>
    match e with
    | none => (a, v) :: r
    | some e => if v - a ≤ 2 * e then (a, v) :: r else (v, v) :: (a, b) :: r

/-- Scan(Fin, E) over the sorted members (R169): the clusters [a, b] in rising order. -/
def scan (fin : List Int) (e : Bound) : List (Int × Int) := (fin.foldl (scanStep e) []).reverse

/-- A number put into a rising list. -/
def insertInt (x : Int) : List Int → List Int
  | [] => [x]
  | y :: r => if x ≤ y then x :: y :: r else y :: insertInt x r

/-- A list in rising order. -/
def sortInts (l : List Int) : List Int := l.foldr insertInt []

/-- The smallest F32 pattern whose bound meets a limit, by halving (R169 FIT). -/
def fitSearch (count : Bound → Nat) (lim : Nat) : Nat → Nat → Nat → Nat
  | 0, _, hi => hi
  | n + 1, lo, hi =>
    if hi - lo ≤ 1 then hi
    else
      let mid := (lo + hi) / 2
      if count (boundOf (Fmt.f32.value mid)) ≤ lim then fitSearch count lim n lo mid else fitSearch count lim n mid hi

/-- What RECLU starts from (R168): its values, the classes −∞, +∞ and NaN that occur, and the finite members. -/
structure RecluIn where
  vals : List Rl
  neg  : Bool
  pos  : Bool
  nan  : Bool
  fin  : List Int

/-- The input of a list of values. -/
def recluIn (v : List Rl) : RecluIn :=
  { vals := v, neg := v.any (· == .inf true), pos := v.any (· == .inf false), nan := v.any Rl.isNaN,
    fin := sortInts ((v.filter (fun x => !x.isNaN && !x.isInf)).map Rl.fine) }

/-- Sp (R168). -/
def RecluIn.sp (r : RecluIn) : Nat := r.neg.toNat + r.pos.toNat + r.nan.toNat

/-- M (R168). -/
def RecluIn.m (r : RecluIn) : Int := (r.fin.map (fun x => (x.natAbs : Int))).foldl max 0

/-- Count(E) (R169). -/
def RecluIn.count (r : RecluIn) (e : Bound) : Nat := (scan r.fin e).length + r.sp

/-- E by the mode (R169). -/
def RecluIn.bound (r : RecluIn) (mode : Nat) (o1 : Word) (lim : Nat) : Bound :=
  let b := boundOf (Fmt.f32.value (o1.toNat % 2 ^ 32))
  match mode with
  | 0 => b
  | 1 => match b with
    | none => if r.m = 0 then some 0 else none
    | some e => some (e * r.m / 2 ^ fineUnit.natAbs)
  | _ =>
    if r.count (some 0) ≤ lim then some 0
    else if lim < 1 + r.sp then none
    else boundOf (Fmt.f32.value (fitSearch r.count lim 31 0 0x7F800000))

/-- Cent(a, b) (R170). -/
def cent (f : Fmt) (c : Int × Int) : Nat := (roundTo f (.fin (c.1 + c.2 < 0) (c.1 + c.2).natAbs (fineUnit - 1) false) .rne).pat

/-- The error of a cluster against its centre; none for an infinite one. -/
def centErr (f : Fmt) (c : Int × Int) : Option Nat :=
  match f.value (cent f c) with
  | .fin n q e s => let x := (Rl.fin n q e s).fine; some (max (c.1 - x).natAbs (c.2 - x).natAbs)
  | _ => none

/-- err before its rounding (R170). -/
def clusterErr (f : Fmt) (l : List (Int × Int)) : Rl :=
  if l.any (fun c => (centErr f c).isNone) then .inf false
  else .fin false ((l.filterMap (centErr f)).foldl max 0) fineUnit false

/-- The index of a value's cluster in the order of R170. -/
def RecluIn.index (r : RecluIn) (l : List (Int × Int)) (x : Rl) : Nat :=
  match x with
  | .inf n => if n then 0 else r.neg.toNat + l.length
  | .nan => r.neg.toNat + l.length + r.pos.toNat
  | x => r.neg.toNat + l.findIdx (fun c => x.fine ≤ c.2)

/-- What a RECLU gives (R170): KB.r, the verdict, and where C ≤ Cap(F) the centres and each value's index. -/
structure RecluOut where
  r   : Word
  c   : Bool
  out : Option (KReg × List Nat)

/-- RECLU (R168 to R170) of some values. -/
def reclu (mode : Nat) (o1 o2 kpol : Word) (tag : KTag) (v : List Rl) : RecluOut :=
  let i := recluIn v
  let lim := kbLimit (field o2 0 9) kpol tag
  let l := scan i.fin (i.bound mode o1 lim)
  let f := tag.fmt
  let order := (if i.neg then [f.signed true f.infMag] else []) ++ l.map (cent f) ++
    (if i.pos then [f.infMag] else []) ++ (if i.nan then [f.qnan] else [])
  let err := (roundTo .f32 (clusterErr f l) .rup).pat
  { r := BitVec.ofNat 64 err
    c := verdictDense kpol order.length (Fmt.f32.value err) (ofFine i.m) true lim tag
    out := if order.length ≤ tag.cap then some (KReg.make tag order, v.map (i.index l)) else none }

/-! ### Remaps (R174) -/

/-- KREMAP of MODE 0: first `a`, then `b`. -/
def kcompose (a b : BitVec 2048) : BitVec 2048 := xMake (fun i => xAt b (xAt a i))

/-- KREMAP of MODE 1: column `j` of the pair buffer, where the context holds it (R155). -/
def kslice (p : Pair) (ctx : Fin 4) (j : Nat) : BitVec 2048 :=
  if p.holder = some ctx ∧ p.st = .remap ∧ j < p.nb then
    xMake (fun i => if i < p.na then (p.p.getD (i * p.nb + j) 0).toNat % 256 else 255)
  else xMake (fun _ => 255)

/-! ### A codebook in memory (R151, R161) -/

/-- The count and tag of a header; none for an empty codebook's. -/
def headerOf (h : Nat) : Option (KTag × Nat) :=
  let t := h / 2 ^ 16 % 4
  let tag := tagOf t .f32
  if t = 3 ∨ tag.cap < h % 512 then none else some (tag, h % 512)

/-- The k-register that KLD makes of a header and the bytes after it. -/
def kload (h : Nat) (entries : Nat) : KReg :=
  match headerOf h with
  | some (tag, n) => KReg.make tag ((List.range n).map (fun i => laneOf tag.fmt.width entries i))
  | none => KReg.empty

/-- The bytes that KST writes: the header and the entries. -/
def kstore (k : KReg) : List Byte :=
  leBytes 8 (k.n + k.tag.num * 2 ^ 16 + k.sorted.toNat * 2 ^ 18) ++ leBytes (k.n * k.tag.fmt.width / 8) k.st.toNat

/-! ### Editing (R162, R163) -/

/-- KSET of a k-register. -/
def KReg.setEntry (k : KReg) (e : Nat) (x : Word) : KReg :=
  let w := k.tag.fmt.width
  if k.tag.cap ≤ e then k
  else
    let put (st : Nat) (i y : Nat) : Nat := st - laneOf w st i * 2 ^ (w * i) + y % 2 ^ w * 2 ^ (w * i)
    let st := (List.range e).foldl (fun st i => if k.n ≤ i then put st i 0 else st) k.st.toNat
    ({ k with st := BitVec.ofNat 4096 (put st e x.toNat), n := max k.n (e + 1) } : KReg).resort

/-- KFMT of a k-register: the tag and the count; the store stays. -/
def KReg.format (k : KReg) (o1 : Word) : KReg :=
  let tag := tagOf (field o1 9 2) k.tag
  ({ k with tag := tag, n := min (field o1 0 9) tag.cap } : KReg).resort

end Sys2Proof.Machine
end

