-- ==== Sys2Proof/Machine/KbOps.lean ====
section
/-! DEFINITION. Class B: the codebook unit KB (spec/08_codebooks.md R155 to R174; spec/03_portmap.md R66), its triggers
and the steps in which its counted operations start and complete. -/

namespace Sys2Proof.Machine

/-! ### Who waits for whom (R159, R180, R196) -/

/-- The operand format words under which the queued MMAs of a context will run: its configuration, as the MCFGs before
each one leave it (R191). -/
def mmaFormats (ctx : Fin 4) : List MxOp → Word → List (Nat × Word)
  | [], _ => []
  | o :: r, f =>
    if o.ctx = ctx ∧ o.t = 96 then mmaFormats ctx r o.b
    else if o.ctx = ctx ∧ o.t < 16 then (o.seq, f) :: mmaFormats ctx r f
    else mmaFormats ctx r f

/-- Whether an MMA of the context triggered before a place in its order has still to capture k0 (R196). -/
def mmaReadsK0 (s : State) (cid : Cid) (seq : Nat) : Bool :=
  let k := s.core cid.core
  let q := (match k.mxRun with
    | some r => if r.op.t = 96 then [r.op] else []
    | none => []) ++ k.mxq
  (mmaFormats cid.ctx q (k.mxCfg.get cid.ctx).fmt).any (fun p => p.1 < seq && field p.2 4 3 == 7)

/-- What a writer names: a k-register, an x register or the pair buffer. -/
inductive KbName where
  | k (i : Nat)
  | x (i : Nat)
  | pair
  deriving DecidableEq, Repr

/-- Whether a stream that has still to capture its registers holds back the writer of one (R180): until its descriptor has
arrived, of every one; from then on, of those that its chain's operators name, and of the pair buffer. -/
def Strm.holds (st : Strm) (w : KbName) : Bool :=
  let ch (lo n : Nat) : Nat := field (st.words.getD 4 0) lo n
  !st.capt && (st.words.isEmpty || (match w with
    | .k i => (ch 7 1 == 1 && (ch 18 4 == i || ch 22 4 == i)) || (ch 17 1 == 1 && ch 32 4 == i)
    | .x i => ch 13 2 == 1 && ch 15 2 == i
    | .pair => true))

/-- Whether a stream of the context bound before a place in its order holds back a writer (R180). -/
def streamHolds (s : State) (cid : Cid) (seq : Nat) (n : KbName) : Bool :=
  (s.ctx cid).w.toList.any (fun w => match w with
    | some st => st.seq < seq && st.holds n
    | none => false)

/-- Whether a write of a k-register, an x register or the pair buffer is held back by an earlier reader (R159, R180,
R196). -/
def writeHeld (s : State) (cid : Cid) (seq : Nat) (n : KbName) : Bool :=
  streamHolds s cid seq n || (n == .k 0 && mmaReadsK0 s cid seq)

/-- Whether the writes of a counted operation are held back. -/
def kbHeld (s : State) (cid : Cid) (o : KbOp) : Bool :=
  o.writesK.any (fun i => writeHeld s cid o.seq (.k i)) || o.writesX.any (fun i => writeHeld s cid o.seq (.x i)) ||
    (o.usesPair && writeHeld s cid o.seq .pair)

/-! ### Triggers of counted operations -/

/-- The extent of a KLD, KST, KXLD or KXST (R160). -/
def kbExtent (n : Nat) : Nat := match n with | 0 | 1 => 520 | _ => 256

/-- The traps of KLD, KST, KXLD and KXST (R160). An address that is both misaligned and not covered by a window raises
ADDRCLASS (log entry 66). -/
def kbCheck (n : Nat) (i : In) : Option (Nat × Word) :=
  let a := i.b.word
  let m := kbExtent n
  if a.toNat % 8 ≠ 0 then some (causeAddr, a)
  else
    match locOf i.cid.core a with
    | .bad => some (causeAddr, a)
    | .glob _ =>
      match (i.s.core i.cid.core).coverOf a with
      | none => some (causeUnmapped, a)
      | some slot =>
        match (i.s.core i.cid.core).wins.get slot with
        | some w => if w.covers a && a.toNat + m ≤ w.g0.toNat + 2 ^ w.glog then none else some (causeAddr, a)
        | none => some (causeUnmapped, a)
    | _ => if extentOk a m then none else some (causeAddr, a)

/-- Whether another context of the core holds the pair buffer (R155). -/
def pairElsewhere (i : In) : Bool :=
  match (i.s.core i.cid.core).pair.holder with
  | some h => h != i.cid.ctx
  | none => false

/-- A context takes the pair buffer; one that it did not hold shows nothing until the KPAIR performs (R155). -/
def Pair.take (p : Pair) (ctx : Fin 4) : Pair :=
  if p.holder = some ctx then p else { Pair.empty with holder := some ctx }

/-- A counted operation enters the unit's queue: tl counts it, and its verdict predicate is pending (R158, R159). It counts as
later than the WSET and the MMA of its own bundle (log entry 74). -/
def In.kbEnter (i : In) (t : Nat) (s : State) : State :=
  s.modCore i.cid.core (fun k =>
    let c := k.at i.cid.ctx
    let mem := t / 16 == 0 || t / 16 == 1 || t / 16 == 11 || t / 16 == 12
    let o : KbOp := { ctx := i.cid.ctx, seq := c.seq, t := t, b := i.b.word, o1 := i.o1.word, o2 := i.o2.word,
                      kpol := i.c.kpol, win := if mem then k.coverOf i.b.word else none }
    let c := { c.note 3 with tl := c.tl + 1, seq := c.seq + 1 }
    let c := match o.verdict with | some j => c.pendingC j true | none => c
    let k := k.setAt i.cid.ctx c
    { k with kbq := k.kbq ++ [o], pair := if t / 16 == 3 then k.pair.take i.cid.ctx else k.pair })

/-- A counted operation with code `t` (R158). -/
def kbOp (t : Nat) (chk : In → Option (Nat × Word)) : Op :=
  { bus := 13, t := t, acc := true
    chk := chk
    blk := fun i => 16 ≤ (i.s.kbOps i.cid).length || (t / 16 == 3 && pairElsewhere i)
    eff := fun i s => i.kbEnter t s }

/-! ### Triggers of fixed latency (R162, R163) -/

/-- The register that KGET and KSET name: whether it is an x register, and its number. -/
def In.kbReg (i : In) : Bool × Nat :=
  if i.b.word.getLsbD 12 then (true, field i.b.word 0 2) else (false, field i.b.word 0 4)

/-- The value that KGET reads. -/
def In.kbGet (i : In) : Word :=
  let e := field i.b.word 4 8
  if i.b.word.getLsbD 12 then BitVec.ofNat 64 (xAt (i.c.xSeen (Fin.ofNat 4 (field i.b.word 0 2))) e)
  else
    let k := i.c.kSeen (Fin.ofNat 16 (field i.b.word 0 4))
    if e < k.n then BitVec.ofNat 64 (k.entry e) else 0

/-- A k-register is replaced; the context's bundles see the old one for two bundles more (R162, R163). -/
def Ctx.setK (c : Ctx) (i : Fin 16) (k : KReg) : Ctx :=
  { c with k := c.k.set i.val k i.isLt, kOld := c.kOld ++ [{ isX := false, idx := i.val, k := c.k.get i, x := 0, rem := 2 }] }

/-- An x register is replaced likewise (R162). -/
def Ctx.setX (c : Ctx) (i : Fin 4) (x : BitVec 2048) : Ctx :=
  { c with x := c.x.set i.val x i.isLt,
           kOld := c.kOld ++ [{ isX := true, idx := i.val, k := KReg.empty, x := c.x.get i, rem := 2 }] }

/-- A k-register written by a counted operation, at once for every reader. -/
def Ctx.putK (c : Ctx) (i : Fin 16) (k : KReg) : Ctx :=
  { c with k := c.k.set i.val k i.isLt, kOld := c.kOld.filter (fun o => o.isX || o.idx != i.val) }

/-- An x register written by a counted operation. -/
def Ctx.putX (c : Ctx) (i : Fin 4) (x : BitVec 2048) : Ctx :=
  { c with x := c.x.set i.val x i.isLt, kOld := c.kOld.filter (fun o => !(o.isX && o.idx == i.val)) }

/-- KSET's effect on its register (R162). -/
def In.kbSet (i : In) (c : Ctx) : Ctx :=
  let e := field i.b.word 4 8
  if i.b.word.getLsbD 12 then
    let r : Fin 4 := Fin.ofNat 4 (field i.b.word 0 2)
    c.setX r (xMake (fun j => if j = e then field i.o1.word 0 8 else xAt (c.x.get r) j))
  else
    let r : Fin 16 := Fin.ofNat 16 (field i.b.word 0 4)
    c.setK r ((c.k.get r).setEntry e i.o1.word)

/-- Whether a KSET or KFMT of a register must wait: for a counted operation that reads or writes it, or for a stream or
MMA of an earlier bundle that has still to capture it (R159). One of its own bundle captures what the edit leaves (log
entry 74). -/
def In.editWaits (i : In) (isX : Bool) (r : Nat) : Bool :=
  i.s.kbWrites i.cid isX r || i.s.kbReads i.cid isX r || writeHeld i.s i.cid i.c.seq (if isX then .x r else .k r)

/-- Whether an outstanding operation of the context works on the pair buffer (R159). -/
def In.pairBusy (i : In) : Bool := (i.s.kbOps i.cid).any KbOp.usesPair

/-- Whether the trigger value names the pair buffer (R157 P and REL). -/
def In.onPair (i : In) : Bool := i.b.word.getLsbD 13

/-- The latches that KCNT writes (R163). -/
def In.kbCount (i : In) : Word × Word :=
  if i.onPair then
    let p := (i.s.core i.cid.core).pair
    if p.holder = some i.cid.ctx then
      let st : Nat := match p.st with | .none => 0 | .values => 1 | .remap => 2 | .oversize => 3
      let r := match p.st with | .values | .remap => p.na * p.nb | _ => 0
      (BitVec.ofNat 64 r, BitVec.ofNat 64 (st + p.na * 2 ^ 8 + p.nb * 2 ^ 24))
    else (0, 0)
  else
    let k := i.c.kSeen (Fin.ofNat 16 (field i.b.word 0 4))
    (BitVec.ofNat 64 k.n, BitVec.ofNat 64 (k.tag.num + 4 * k.sorted.toNat))

/-! ### The operations and the bundles whose one move triggers them -/


/-- KLD (R160, R161). -/
def opKld : Op :=
  kbOp 0 (kbCheck 0)

/-- The bundle whose one move triggers KLD. -/
def execKld (g : Guard) (src : Src) (s : State) : Host.Outcome State Fault Refusal :=
  issueOne g src opKld s

/-- KST (R160, R161). -/
def opKst : Op :=
  kbOp 16 (kbCheck 1)

/-- The bundle whose one move triggers KST. -/
def execKst (g : Guard) (src : Src) (s : State) : Host.Outcome State Fault Refusal :=
  issueOne g src opKst s

/-- KMAP (R164). -/
def opKmap (f : Fin 16) : Op :=
  kbOp (32 + f.val) (fun _ => none)

/-- The bundle whose one move triggers KMAP. -/
def execKmap (g : Guard) (src : Src) (f : Fin 16) (s : State) : Host.Outcome State Fault Refusal :=
  issueOne g src (opKmap f) s

/-- KPAIR (R167). -/
def opKpair (o : Fin 6) : Op :=
  kbOp (48 + o.val) (fun _ => none)

/-- The bundle whose one move triggers KPAIR. -/
def execKpair (g : Guard) (src : Src) (o : Fin 6) (s : State) : Host.Outcome State Fault Refusal :=
  issueOne g src (opKpair o) s

/-- KCMP (R165). -/
def opKcmp : Op :=
  kbOp 64 (fun _ => none)

/-- The bundle whose one move triggers KCMP. -/
def execKcmp (g : Guard) (src : Src) (s : State) : Host.Outcome State Fault Refusal :=
  issueOne g src opKcmp s

/-- KSORT (R166). -/
def opKsort : Op :=
  kbOp 80 (fun _ => none)

/-- The bundle whose one move triggers KSORT. -/
def execKsort (g : Guard) (src : Src) (s : State) : Host.Outcome State Fault Refusal :=
  issueOne g src opKsort s

/-- RECLU (R168). -/
def opReclu (m : Fin 3) : Op :=
  kbOp (96 + m.val) (fun _ => none)

/-- The bundle whose one move triggers RECLU. -/
def execReclu (g : Guard) (src : Src) (m : Fin 3) (s : State) : Host.Outcome State Fault Refusal :=
  issueOne g src (opReclu m) s

/-- KREMAP (R174). -/
def opKremap : Op :=
  kbOp 112 (fun _ => none)

/-- The bundle whose one move triggers KREMAP. -/
def execKremap (g : Guard) (src : Src) (s : State) : Host.Outcome State Fault Refusal :=
  issueOne g src opKremap s

/-- KGET (R162). -/
def opKget : Op :=
  { bus := 13, t := 128, res := true
    blk := fun i => i.s.kbWrites i.cid i.kbReg.1 i.kbReg.2 || i.s.recluOut i.cid
    eff := fun i s => s.modCtx i.cid (fun c => c.result 13 3 (some (.sc i.kbGet)) none 0) }

/-- The bundle whose one move triggers KGET. -/
def execKget (g : Guard) (src : Src) (s : State) : Host.Outcome State Fault Refusal :=
  issueOne g src opKget s

/-- KSET (R162). A stream or an IX4 MMA that its own bundle triggers captures what it leaves (R180, R196, log entry 74). -/
def opKset : Op :=
  { bus := 13, t := 144
    blk := fun i => i.editWaits i.kbReg.1 i.kbReg.2
    eff := fun i s => s.modCtx i.cid (fun c => { i.kbSet c with seq := c.seq + 1 }) }

/-- The bundle whose one move triggers KSET. -/
def execKset (g : Guard) (src : Src) (s : State) : Host.Outcome State Fault Refusal :=
  issueOne g src opKset s

/-- KCNT (R163). -/
def opKcnt : Op :=
  { bus := 13, t := 160, res := true
    blk := fun i => i.s.recluOut i.cid || (if i.onPair then i.pairBusy else i.s.kbWrites i.cid false (field i.b.word 0 4))
    eff := fun i s => s.modCtx i.cid (fun c => c.result 13 3 (some (.sc i.kbCount.1)) (some (.sc i.kbCount.2)) 0) }

/-- The bundle whose one move triggers KCNT. -/
def execKcnt (g : Guard) (src : Src) (s : State) : Host.Outcome State Fault Refusal :=
  issueOne g src opKcnt s

/-- KXLD (R160, R161). -/
def opKxld : Op :=
  kbOp 176 (kbCheck 11)

/-- The bundle whose one move triggers KXLD. -/
def execKxld (g : Guard) (src : Src) (s : State) : Host.Outcome State Fault Refusal :=
  issueOne g src opKxld s

/-- KXST (R160, R161). -/
def opKxst : Op :=
  kbOp 192 (kbCheck 12)

/-- The bundle whose one move triggers KXST. -/
def execKxst (g : Guard) (src : Src) (s : State) : Host.Outcome State Fault Refusal :=
  issueOne g src opKxst s

/-- KFMT (R163). -/
def opKfmt : Op :=
  { bus := 13, t := 208
    blk := fun i => if i.onPair then i.pairBusy || writeHeld i.s i.cid i.c.seq .pair
      else i.editWaits false (field i.b.word 0 4)
    eff := fun i s =>
      if i.onPair then
        s.modCore i.cid.core (fun k =>
          if k.pair.holder = some i.cid.ctx then { k with pair := Pair.empty } else k)
      else
        let r : Fin 16 := Fin.ofNat 16 (field i.b.word 0 4)
        s.modCtx i.cid (fun c => { c.setK r ((c.k.get r).format i.o1.word) with seq := c.seq + 1 }) }

/-- The bundle whose one move triggers KFMT. -/
def execKfmt (g : Guard) (src : Src) (s : State) : Host.Outcome State Fault Refusal :=
  issueOne g src opKfmt s

/-! ### What a counted operation computes from registers (R164 to R174) -/

/-- A number as a k-register's. -/
def kIx (x : Nat) : Fin 16 := Fin.ofNat 16 x

/-- A number as an x register's. -/
def xIx (x : Nat) : Fin 4 := Fin.ofNat 4 x

/-- Outputs that write nothing. -/
def KbOut.nothing : KbOut := { k := none, x := none, pair := none, r := none, c := none }

/-- The outputs of a RECLU (R168 to R170). -/
def recluOutputs (o : KbOp) (c : Ctx) (p : Pair) : KbOut :=
  let cj : Fin 4 := xIx (field o.b 9 2)
  if o.b.getLsbD 8 then
    let k := c.k.get (kIx (field o.b 0 4))
    let r := reclu (o.t % 16) o.o1 o.o2 o.kpol (tagOf (field o.b 11 2) k.tag) k.values
    { KbOut.nothing with
      r := some r.r, c := some (cj, r.c)
      k := r.out.map (fun q => (kIx (field o.b 4 4), q.1))
      x := r.out.map (fun q => (xIx (field o.b 13 2), xMap q.2)) }
  else if p.holder = some o.ctx ∧ p.st = .values then
    let r := reclu (o.t % 16) o.o1 o.o2 o.kpol (tagOf (field o.b 11 2) .f32) (p.p.map (fun x => Fmt.f32.value x.toNat))
    { KbOut.nothing with
      r := some r.r, c := some (cj, r.c)
      k := r.out.map (fun q => (kIx (field o.b 4 4), q.1))
      pair := r.out.map (fun q => { p with st := .remap, p := q.2.map (BitVec.ofNat 32) }) }
  else { KbOut.nothing with r := some 0x7F800000, c := some (cj, true) }

/-- The outputs of an operation that reads no memory. -/
def kbCompute (o : KbOp) (c : Ctx) (p : Pair) : KbOut :=
  let ks := c.k.get (kIx (field o.b 0 4))
  let kd := kIx (field o.b 4 4)
  match o.n with
  | 2 => { KbOut.nothing with k := some (kd, kmap (o.t % 16) o.o1 o.o2 (tagOf (field o.b 8 2) ks.tag) ks) }
  | 3 =>
    let (q, v) := kpair (o.t % 16) o.kpol (some o.ctx) ks (c.k.get kd)
    { KbOut.nothing with pair := some q, c := some (xIx (field o.b 8 2), v) }
  | 4 =>
    let (k, x) := kcmp ks
    { KbOut.nothing with k := some (kd, k), x := some (xIx (field o.b 8 2), x) }
  | 5 =>
    let (k, x) := ksort ks
    { KbOut.nothing with k := some (kd, k), x := some (xIx (field o.b 8 2), x) }
  | 6 => recluOutputs o c p
  | 7 =>
    let x := if o.b.getLsbD 8 then kslice p o.ctx (field o.b 16 8)
      else kcompose (c.x.get (xIx (field o.b 2 2))) (c.x.get (xIx (field o.b 4 2)))
    { KbOut.nothing with x := some (xIx (field o.b 0 2), x) }
  | _ => KbOut.nothing

/-! ### Loads and stores (R160, R161) -/

/-- Byte `j` of an operation's extent. -/
def KbOp.byteAt (o : KbOp) (j : Nat) : Word := o.b + BitVec.ofNat 64 j

/-- Where byte `j` of its extent stands. -/
def kbTarget (s : State) (cid : Cid) (o : KbOp) (j : Nat) : Target := targetOf s cid o.win (o.byteAt j) 1

/-- `n` bytes of the extent as a number, from byte `j` on. -/
def kbBytes (s : State) (cid : Cid) (o : KbOp) (j n : Nat) : Nat :=
  leNat ((List.range n).map (fun i => match kbTarget s cid o (j + i) with | .at k => s.mem.get k | _ => 0))

/-- Whether the bytes from `j` on are all at hand. -/
def kbReady (s : State) (cid : Cid) (o : KbOp) (j n : Nat) : Bool :=
  (List.range n).all (fun i => match kbTarget s cid o (j + i) with | .at _ => true | _ => false)

/-- The bytes that an operation reads or writes, as far as it can tell now: KLD reads its header first. -/
def kbLength (s : State) (cid : Cid) (o : KbOp) : Nat :=
  match o.n with
  | 0 =>
    if kbReady s cid o 0 8 then
      (match headerOf (kbBytes s cid o 0 8) with
       | some (tag, n) => 8 + n * tag.fmt.width / 8
       | none => 8)
    else 8
  | 1 =>
    let k := (s.ctx cid).k.get (kIx (field o.o1 0 4))
    8 + k.n * k.tag.fmt.width / 8
  | _ => 256

/-- Whether a load or store may access memory: its turn among its context's accesses has come (R95, R160). -/
def kbTurn (s : State) (cid : Cid) (o : KbOp) : Bool :=
  let k := aliasKey cid.core o.b
  !behindAccess s cid o.seq 0 k o.extent && !behindStore s cid o.seq 0 false k o.extent

/-- The address of the first byte that misses in its window. -/
def kbMiss (s : State) (cid : Cid) (o : KbOp) : Option Word :=
  (List.range (kbLength s cid o)).findSome? (fun j =>
    match kbTarget s cid o j with | .miss => some (o.byteAt j) | _ => none)

/-- What KLD and KXLD load. -/
def kbLoad (s : State) (cid : Cid) (o : KbOp) : KbOut :=
  if o.n = 0 then
    let h := kbBytes s cid o 0 8
    { KbOut.nothing with
      k := some (kIx (field o.o1 0 4), kload h (kbBytes s cid o 8 (kbLength s cid o - 8))) }
  else { KbOut.nothing with x := some (xIx (field o.o1 0 2), BitVec.ofNat 2048 (kbBytes s cid o 0 256)) }

/-- The bytes that KST and KXST store. -/
def kbStored (s : State) (cid : Cid) (o : KbOp) : List Byte :=
  let c := s.ctx cid
  if o.n = 1 then kstore (c.k.get (kIx (field o.o1 0 4))) else leBytes 256 (c.x.get (xIx (field o.o1 0 2))).toNat

/-- The addresses of the lines of an extent of `n` bytes. -/
def KbOp.lines (o : KbOp) (n : Nat) : List Word :=
  ((List.range n).map o.byteAt).filter (fun a => a == o.b || a.toNat % 128 == 0)

/-- The bits of the bytes of a line from `a` on that lie below the end of an extent. -/
def lineBits (a e : Word) : BitVec 128 :=
  BitVec.ofNat 128 ((2 ^ min (e.toNat - a.toNat) (128 - a.toNat % 128) - 1) * 2 ^ (a.toNat % 128))

/-- The store of a KST or KXST; FATAL_UNPROBED instead where a line's page forbids writing (R100); none while the host's
reply for a line's page is awaited. -/
def Eff.kbStore (e : Eff) (cid : Cid) (o : KbOp) : Option (Eff × Bool) :=
  let bs := kbStored e.st cid o
  let ls := o.lines bs.length
  match ls.find? (fun a => match windowFate e.st cid o.win a with | .ok _ => false | _ => true) with
  | some a => if windowFate e.st cid o.win a == .wait then none else some (e.ctx cid (fun c => c.unprobed a), false)
  | none =>
    let s := e.st
    let ws := bs.zipIdx.filterMap (fun p => match kbTarget s cid o p.2 with
      | .at k => some (Wr.byte k p.1) | _ => none)
    let fin := o.byteAt bs.length
    some ((e.put ws).on (fun s => match o.win with
      | some i => s.modCore cid.core (fun k => ls.foldl (fun k a => k.touch i a (lineBits a fin)) k)
      | none => s), true)

/-! ### Starting and completing (R158) -/

/-- An operation starts: it leaves the queue with its outputs computed. -/
def State.kbStart (s : State) (n : Fin 4112) (o : KbOp) (out : KbOut) : State :=
  s.modCore n (fun k => { k with kbq := k.kbq.tail, kbRun := some (o, out) })

/-- KB_OPERATION_START (R158): the oldest operation in the queue of the core of `act` starts once the operation before
it has completed, every earlier reader of what it writes has captured it, and its memory is at hand. -/
def execKbOperationStart (s : State) : Host.Outcome State Fault Refusal :=
  let n := s.act.cid.core
  let k := s.core n
  match k.kbRun, k.kbq with
  | none, o :: _ =>
    let cid : Cid := { core := n, ctx := o.ctx }
    if kbHeld s cid o then stutter s
    else if o.extent = 0 then done s ((Eff.start s).on (fun s => s.kbStart n o (kbCompute o (s.ctx cid) k.pair)))
    else if !kbTurn s cid o || !kbReady s cid o 0 (kbLength s cid o) then stutter s
    else if o.n = 0 ∨ o.n = 11 then done s ((Eff.start s).on (fun s => s.kbStart n o (kbLoad s cid o)))
    else
      match (Eff.start s).kbStore cid o with
      | some (e, true) => done s (e.on (fun s => s.kbStart n o KbOut.nothing))
      | some (e, false) => done s e
      | none => stutter s
  | _, _ => stutter s

/-- A result latch written by a counted operation replaces earlier results that were not yet visible (R159). -/
def Ctx.putR (c : Ctx) (u : Fin 15) (x : Word) : Ctx :=
  let c := c.modLatch u (fun l => { l with r := .sc x })
  { c with pend := c.pend.map (fun p => if p.u = u then { p with r := none } else p) }

/-- The outputs of an operation are written in its context, whose tl count drops. -/
def Ctx.kbFinish (c : Ctx) (o : KbOp) (out : KbOut) (still : Bool) : Ctx :=
  let c := match out.k with | some (i, k) => c.putK i k | none => c
  let c := match out.x with | some (i, x) => c.putX i x | none => c
  let c := match out.r with | some r => c.putR 13 r | none => c
  let c := match out.c with | some (j, v) => c.writeC j v | none => c
  let c := match o.verdict with | some j => c.pendingC j still | none => c
  { c with tl := c.tl - 1 }

/-- KB_OPERATION_COMPLETE (R158): the operation that runs in the core of `act` writes its outputs, once its context has
tried the bundle after its trigger (R300). The pair buffer is written only while the operation's context still holds it:
one that has ended since has given it up (R155). -/
def execKbOperationComplete (s : State) : Host.Outcome State Fault Refusal :=
  let n := s.act.cid.core
  match (s.core n).kbRun with
  | some (o, out) =>
    let cid : Cid := { core := n, ctx := o.ctx }
    if (s.ctx cid).young o.seq then stutter s
    else
      let still := (s.core n).kbq.any (fun p => p.ctx == o.ctx && p.verdict == o.verdict)
      done s ((Eff.start s).on (fun s => (s.modCtx cid (fun c => c.kbFinish o out still)).modCore n (fun k =>
        { k with kbRun := none, pair := if k.pair.holder = some o.ctx then out.pair.getD k.pair else k.pair })))
  | none => stutter s

end Sys2Proof.Machine
end

