-- ==== Sys2Proof/Machine/Engines.lean ====
section
/-! DEFINITION. What the engine commands of classes Y, G and L share (spec/03_portmap.md R49, R51; spec/04_core_ops.md R75,
R76; spec/05_local_memory.md R97; spec/15_ordering.md R236 to R239): their triggers, grants and completion. -/

namespace Sys2Proof.Machine

/-! ### Triggers -/

/-- The commands of a core in flight on a bus (R51); an ATOMNR is in flight until it is accepted (R253). -/
def inFlight (s : State) (n : Fin 4112) (bus : Nat) : Nat :=
  (s.cmds.filter (fun c => c.cid.core == n && c.bus.val == bus && c.st != .held && !(c.t == 6 && bus == 10 && c.st == .accepted))).length

/-- The limit of R51. -/
def flightLimit (bus : Nat) : Nat := if bus = 10 then 48 else 32

/-- The next transfer ID after one: modulo 2^32 with 0 skipped (R253). -/
def nextTransfer (x : BitVec 32) : BitVec 32 := if x + 1 = 0 then 1 else x + 1

/-- The granules of its core that an extent names, clipped to its window class (R97). -/
def named (n : Fin 4112) (a : Word) (len : Nat) : List Nat := ownGranules n a (min len (roomOf (classify a)))

/-- The granules with owner bits that an extent touches. -/
def touched (n : Fin 4112) (a : Word) (len : Nat) : List Nat :=
  (allGranules n a (min len (roomOf (classify a)))).filter (fun g => hasOwner (1024 * g))

/-- A command as its trigger makes it (R75): what it captures is filled in by its class. -/
def In.command (i : In) (bus t : Nat) (uid seq : Nat) : Cmd :=
  { uid := uid, cid := i.cid, seq := seq, bus := Fin.ofNat 16 bus, t := t, b := i.b.word, o1 := i.o1.word, o2 := i.o2.word,
    tok := some (sReg i.o3), dst2 := none, id := 0, ixpol := i.c.ixpol, kregs := [], preds := [], xreg := 0, st := .queued,
    desc := [], opnd := [], gran := [], touch := [], left := 0, res := [], prog := 0, cnt := 0, bits := 0, parked := 0,
    reason := 0, trapAt := none, miss := [], val2 := 0, key := 0, status := 0, slices := [], seen := [] }

/-- The granules of a list that take a command's implicit grant. -/
def State.grantAll (s : State) (gs : List Nat) : State := { s with own := gs.foldl grantOne s.own }

/-- A command enters: cp counts it, its registers are pending, its operand addresses take their grants (R75, R97). A bundle
may trigger two commands that name one token register: both enter, and the first to complete ends the pending state (log
entry 67). -/
def In.enter (i : In) (bus t : Nat) (exts : List (Word × Nat)) (fill : Cmd → Cmd) (s : State) : State :=
  let c := s.ctx i.cid
  let gs := dedup (exts.flatMap (fun e => named i.cid.core e.1 e.2))
  let m := fill { i.command bus t s.nextUid c.seq with gran := gs, id := if bus = 10 then c.nextId else 0 }
  let c := { c.note 2 with cp := c.cp + 1, seq := c.seq + 1 }
  let c := if bus = 10 then { c with nextId := nextTransfer c.nextId, issued := c.issued ++ [c.nextId] } else c
  let c := match m.tok with | some r => c.pendingS r true | none => c
  let c := match m.dst2 with | some r => c.pendingS r true | none => c
  ({ s with cmds := s.cmds ++ [m], nextUid := s.nextUid + 1 }.grantAll gs).setCtx i.cid c

/-- An engine trigger: it waits for its unit, for its token register, and for what its class adds (R51, R75). -/
def cmdOp (bus : Fin 15) (t : Nat) (exts : In → List (Word × Nat)) (fill : In → Cmd → Cmd) (blk : In → Bool) : Op :=
  { bus := bus, t := t, acc := true
    blk := fun i => flightLimit bus.val ≤ inFlight i.s i.cid.core bus.val || i.busyS (sReg i.o3) || blk i
    eff := fun i s => i.enter bus.val t (exts i) (fill i) s }

/-! ### Commands in the state -/

/-- The command with a number. -/
def State.cmd (s : State) (uid : Nat) : Option Cmd := s.cmds.find? (fun c => c.uid == uid)

/-- The state with a command changed. -/
def State.modCmd (s : State) (uid : Nat) (f : Cmd → Cmd) : State :=
  { s with cmds := s.cmds.map (fun c => if c.uid = uid then f c else c) }

/-- The effect with a command changed. -/
def Eff.cmd (e : Eff) (uid : Nat) (f : Cmd → Cmd) : Eff := e.on (fun s => s.modCmd uid f)

/-- A status word (R76). -/
def statusWord (code reason count id : Nat) : Word :=
  BitVec.ofNat 64 (code * 2 ^ 60 + reason * 2 ^ 56 + min count (2 ^ 24 - 1) * 2 ^ 32 + id % 2 ^ 32)

/-- The codes of R76. -/
def codeDone : Nat := 0
/-- PARTIAL. -/
def codePartial : Nat := 1
/-- PARKED. -/
def codeParked : Nat := 2
/-- ERROR. -/
def codeError : Nat := 3
/-- EXHAUSTED. -/
def codeExhausted : Nat := 4

/-- Reasons that the classes share (R244): OPND, ADDR, PAGE, LINK. -/
def rsOpnd : Nat := 1
/-- ADDR. -/
def rsAddr : Nat := 2
/-- PAGE of class Y. -/
def rsPage : Nat := 3
/-- LINK. -/
def rsLink : Nat := 9

/-- A command's work is done: its status word is fixed, its completion is left (R236). -/
def Eff.fin (e : Eff) (uid : Nat) (code reason count id : Nat) : Eff :=
  e.cmd uid (fun c => { c with st := .fin, status := statusWord code reason count id })

/-- A command that a check turns away: code ERROR, count 0 (R244). -/
def Eff.fail (e : Eff) (c : Cmd) (reason id : Nat) : Eff := e.fin c.uid codeError reason 0 id

/-- A command takes the grants of the structure addresses of its descriptor, as it starts, and notes what it touches
(R97): each granule counts once. -/
def Eff.grants (e : Eff) (c : Cmd) (exts : List (Word × Nat)) : Eff :=
  let n := c.cid.core
  let gs := (dedup (exts.flatMap (fun x => named n x.1 x.2))).filter (fun g => !c.gran.contains g)
  let ts := (dedup (exts.flatMap (fun x => touched n x.1 x.2))).filter (fun g =>
    !c.gran.contains g && !gs.contains g && !c.touch.contains g)
  (e.on (fun s => s.grantAll gs)).cmd c.uid (fun c => { c with gran := c.gran ++ gs, touch := c.touch ++ ts })

/-! ### Engine accesses -/

/-- Whether an extent that an access path names lies in the backing of a mapped window, which only accesses through the
window reach (R334, log entry 63). -/
def backedAt (s : State) (n : Fin 4112) (a : Word) (len : Nat) : Bool :=
  match localKey n (classify a) with
  | some k => backed s k len
  | none => false

/-- Whether engine work of a context may touch an extent now: each granule with owner bits is in state E (R97), no window has
it for its backing (R334), no accepted atomic holds a byte (R242), the host has replied for its pages (R333), and the context
has not given up its old translation (R340). -/
def engineFree (s : State) (cid : Cid) (pasid : BitVec 20) (a : Word) (len : Nat) : Bool :=
  ((touched cid.core a len).all (fun g => s.engineMay g)) && !backedAt s cid.core a len && extentQuiet s cid pasid a len

/-- Whether the host has replied for every page that an extent touches (R333). -/
def pagesKnown (s : State) (n : Fin 4112) (pasid : BitVec 20) (a : Word) (len : Nat) : Bool :=
  (pageStarts a len).all (fun p => accessKey s n pasid p false != .wait)

/-- The bytes of an extent before the first page that is not present or forbids the access, and whether that page lies
in a peer that no port reaches. -/
def okBytes (s : State) (n : Fin 4112) (pasid : BitVec 20) (a : Word) (len : Nat) (wr : Bool) : Nat × Bool :=
  match firstBad s n pasid a len wr with
  | some (p, x) => ((p - a).toNat, x == .noPort)
  | none => (len, false)

/-- Whether an extent names a page of a peer that no port reaches (R374). -/
def unlinked (s : State) (n : Fin 4112) (pasid : BitVec 20) (a : Word) (len : Nat) (wr : Bool) : Bool :=
  (pageStarts a len).any (fun p => accessKey s n pasid p wr == .noPort)

/-- Whether an address lies in the windows that descriptors may use (R248, R264): own core scratchpad, own cluster-shared
slice, chip scratchpad. -/
def nearAddr (n : Fin 4112) (a : Word) (len : Nat) : Bool :=
  extentOk a len && (match locOf n a with
    | .own _ => true
    | .slice i _ => n.val < 4096 && i == coreIx n
    | .chip _ => true
    | _ => false)

/-- The PASID of a command. -/
def State.pasidOf (s : State) (c : Cmd) : BitVec 20 := (s.ctx c.cid).pasid

/-- A descriptor of `n` words at b: none while it has to wait, an error, or the words (R248, R264). -/
inductive Desc where
  | wait
  | bad
  | ok (w : List Word)

/-- The 64-byte descriptor that a command reads as it starts. -/
def readDesc (s : State) (c : Cmd) (a : Word) (al words : Nat) : Desc :=
  if a.toNat % al ≠ 0 ∨ !nearAddr c.cid.core a (8 * words) then .bad
  else if !engineFree s c.cid (s.pasidOf c) a (8 * words) then .wait
  else .ok (readWords s c.cid.core (s.pasidOf c) a words)

/-! ### Completion (R236) -/

/-- CWM as the IDs in issue order leave it (R84): the completed ones at the front are taken off. -/
def advance : List (BitVec 32) → List (BitVec 32) → BitVec 32 → List (BitVec 32) × List (BitVec 32) × BitVec 32
  | [], l, w => ([], l, w)
  | x :: r, l, w => if l.contains x then advance r (l.erase x) x else (x :: r, l, w)

/-- A transfer ID has completed (R84, R253). -/
def Ctx.transferDone (c : Ctx) (id : BitVec 32) : Ctx :=
  let (i, l, w) := advance c.issued (id :: c.landed) c.cwm
  { c with issued := i, landed := l, cwm := w }

/-- A command leaves its granules (R97): one count less on each. -/
def State.leaveGranules (s : State) (c : Cmd) : State :=
  { s with own := (dedup (c.gran ++ c.touch)).foldl releaseOne s.own }

/-- The state without a command. -/
def State.dropCmd (s : State) (uid : Nat) : State :=
  { s with cmds := s.cmds.filter (fun c => c.uid != uid), flight := s.flight.filter (fun f => f.of != .cmd uid) }

/-- The status word lands in the token register, a second register first, and cp falls (R75, R280). -/
def Ctx.landCmd (c : Ctx) (m : Cmd) : Ctx :=
  let c := match m.dst2 with | some r => c.landS r m.val2 | none => c
  let c := match m.tok with | some r => c.landS r m.status | none => c
  let c := { c with cp := c.cp - 1 }
  if m.bus = 10 then c.transferDone m.id else c

/-- What an ATOM still has to write as it completes: the old values of its sector (R257). -/
def atomBlock (s : State) (m : Cmd) : List Wr :=
  if m.bus = 10 ∧ m.t = 5 ∧ m.status.toNat / 2 ^ 60 = codeDone then writeBytes s m.cid.core (s.pasidOf m) m.o1 m.opnd else []

/-- Whether a command of the same context on the same rink set, triggered earlier, has not completed: their tokens land
in trigger order (R219). RKON names no set. -/
def State.behindRink (s : State) (m : Cmd) : Bool :=
  m.bus == 14 && m.t != 0 && s.cmds.any (fun c =>
    c.cid == m.cid && c.bus == 14 && c.t != 0 && c.seq < m.seq && field c.o1 0 16 == field m.o1 0 16)

/-- Whether a command has a value to deliver to a register of its context. -/
def Cmd.delivers (m : Cmd) : Bool := m.tok.any (fun r => r != 0) || m.dst2.any (fun r => r != 0)

/-- Whether a command may complete now: an ATOM waits for the granule of its operand block, a rink command for its
turn, and a token takes more than a cycle to arrive (R300). -/
def mayLand (s : State) (m : Cmd) : Bool :=
  m.st == .fin && !s.behindRink m && !(m.delivers && (s.ctx m.cid).young m.seq) &&
  (atomBlock s m == [] || engineFree s m.cid (s.pasidOf m) m.o1 32)

/-- What the landing of a rink command's token does to its set: an RKON's handle becomes live, an RKOFF's set is gone
(R210, R211). -/
def State.rinkLand (s : State) (m : Cmd) : State :=
  if m.bus = 14 ∧ m.status.toNat / 2 ^ 60 = codeDone then
    if m.t = 0 then
      { s with sets := s.sets.map (fun r => if r.handle = m.status.toNat % 2 ^ 32 then { r with live := true } else r) }
    else if m.t = 1 then { s with sets := s.sets.filter (fun r => r.handle != field m.o1 0 16) }
    else s
  else s

/-- A command whose context is not halted completes (R236): every write of it performs, then its granules, its token and
CWM follow, with the ADDRCLASS of R266. -/
def Eff.land (e : Eff) (m : Cmd) : Eff :=
  let e := e.landFlights (.cmd m.uid)
  let e := e.put (atomBlock e.st m)
  let e := e.on (fun s => ((s.rinkLand m).leaveGranules m).dropCmd m.uid)
  e.ctx m.cid (fun c =>
    let c := c.landCmd m
    let c := if m.miss.isEmpty then c else c.flag flIXM
    match m.trapAt with | some x => c.addDue causeAddr (BitVec.ofNat 64 x) | none => c)

/-- Whether a context stands halted, so that its commands complete under R358. -/
def Ctx.isHalted (c : Ctx) : Bool := c.st == .halted || c.st == .resuming

/-- ENGINE_COMMAND_COMPLETE (R236): the command `num` completes. -/
def execEngineCommandComplete (s : State) : Host.Outcome State Fault Refusal :=
  match s.cmd s.act.num with
  | some m => if mayLand s m && !(s.ctx m.cid).isHalted then done s ((Eff.start s).land m) else stutter s
  | none => stutter s

end Sys2Proof.Machine
end

