-- ==== Sys2Proof/Machine/Streams.lean ====
section
/-! DEFINITION. Class W: the stream unit ST (spec/09_streams.md R176 to R187): binding, capture, the operators, the
production of vectors, and the window fills of scoreboarded accesses, codebook operations and streams. -/

namespace Sys2Proof.Machine

/-! ### The completion action (R324, R325) -/

/-- Where a completion action acts: the keys of words 0 and 1 of its block and of the detail of its bit; a wait for an
engine-owned granule, a pending atomic or the host's reply; or the address of a page that is not present. -/
inductive ActPlace where
  | at (k j : Nat)
  | wait
  | gone (a : Word)

/-- The place of a completion action on bit `bit` of a block (R324, R325): the block may cross a page. -/
def actionPlace (s : State) (cid : Cid) (blk : Word) (bit : Nat) : ActPlace :=
  let d := blk + BitVec.ofNat 64 (64 + 8 * bit)
  match blockKey s cid blk true, blockKey s cid d true with
  | .wait, _ | _, .wait => .wait
  | .ok k, .ok j =>
    if keyHeld s k 16 || keyHeld s j 8 || atomicHeld s k 16 || atomicHeld s j 8 then .wait else .at k j
  | .ok _, _ => .gone d
  | _, _ => .gone blk

/-- The writes of a completion action: the detail, then BITS and SETCNT in one step (R325). -/
def actionWrites (m : Mem) (k j bit : Nat) (err : Bool) (cnt : BitVec 24) : List Wr :=
  wrNat j 8 (err.toNat * 2 ^ 63 + cnt.toNat) ++
  wrNat k 8 (m.word k ||| (1 <<< bit)).toNat ++ wrNat (k + 8) 8 (m.word (k + 8) + 1).toNat

/-- A stream's completion action; none where its block is no shared address or is not present (R325). It is left for
later while it has to wait. -/
def Eff.streamAction (e : Eff) (cid : Cid) (blk : Word) (bit : Nat) (err : Bool) (cnt : BitVec 24) : Eff :=
  if !sharedAddr blk then e
  else
    match actionPlace e.st cid blk bit with
    | .at k j => e.put (actionWrites e.st.mem k j bit err cnt)
    | .wait => e.ctx cid (fun c => { c with bits := c.bits ++ [(blk, bit, err, cnt)] })
    | .gone _ => e

/-! ### The descriptor (R176, R177) -/

/-- Word `i` of the descriptor. -/
def Strm.word (st : Strm) (i : Nat) : Word := st.words.getD i 0

/-- A field of the chain word. -/
def Strm.ch (st : Strm) (lo n : Nat) : Nat := field (st.word 4) lo n

/-- IFMT. -/
def Strm.ifmt (st : Strm) : Nat := st.ch 0 4

/-- SP. -/
def Strm.sp (st : Strm) : Nat := st.ch 4 2

/-- ZR. -/
def Strm.zr (st : Strm) : Bool := st.ch 6 1 == 1

/-- PAIR. -/
def Strm.pairs (st : Strm) : Bool := st.ch 7 1 == 1

/-- IXOP. -/
def Strm.ixop (st : Strm) : Nat := st.ch 13 2

/-- DEC. -/
def Strm.dec (st : Strm) : Bool := st.ch 17 1 == 1

/-- CVT. -/
def Strm.cvt (st : Strm) : Bool := st.ch 26 1 == 1

/-- NE. -/
def Strm.ne (st : Strm) : Nat := field (st.word 5) 0 40

/-- Whether source A holds indices: IX2 to IX8. -/
def Strm.indexed (st : Strm) : Bool := 5 ≤ st.ifmt && st.ifmt ≤ 8

/-- The format that a number names: 0 F32, 1 BF16, 2 F16, 3 E4M3, 4 E5M2. -/
def fmtOf (x : Nat) : Fmt := match x with | 0 => .f32 | 1 => .bf16 | 2 => .f16 | 3 => .e4m3 | _ => .e5m2

/-- The width of an element of source A in bits; SN4's is that of its codes. -/
def Strm.width (st : Strm) : Nat :=
  match st.ifmt with | 5 => 2 | 6 => 4 | 7 => 6 | 8 => 8 | 9 => 4 | f => (fmtOf f).width

/-- The final element type (R178, R179): a format, or none for an index. -/
def Strm.outFmt (st : Strm) : Option Fmt :=
  if st.cvt then some (fmtOf (st.ch 27 3))
  else if st.indexed then
    (if st.dec then some st.kd.tag.fmt else if st.ixop = 2 && st.dense then some .f32 else none)
  else if st.ifmt = 9 then some .f32
  else some (fmtOf st.ifmt)

/-- The lane width of the vectors (R179). -/
def Strm.lane (st : Strm) : Nat := match st.outFmt with | some f => f.width | none => 16

/-- EPV (R179). -/
def Strm.epv (st : Strm) : Nat := 1024 / st.lane

/-- The vectors of the stream (R179). -/
def Strm.total (st : Strm) : Nat := (st.ne + st.epv - 1) / st.epv

/-- Whether the descriptor is one that R176 or R177 marks DESC; `other` says that another bound stream of the context
has IXOP = 2. CVT with IXOP = 2 and no DEC is DESC whatever the verdict (log entry 75). -/
def Strm.bad (st : Strm) (other : Bool) : Bool :=
  field (st.word 2) 40 16 == 0 || field (st.word 2) 24 16 == 0 || field (st.word 2) 0 24 == 0 || st.ne == 0 ||
  9 < st.ifmt || st.ixop == 3 || st.ch 30 2 == 3 || (st.cvt && 4 < st.ch 27 3) || (st.ixop == 2 && 5 < st.ch 10 3) ||
  (st.ifmt < 5 && (st.pairs || st.ixop != 0 || st.dec)) ||
  (st.ifmt == 9 && (st.sp != 0 || st.pairs || st.ixop != 0 || st.dec)) ||
  (st.pairs && (!st.indexed || st.sp != 0 || st.ixop == 1)) ||
  (st.ixop == 2 && (!st.pairs || other)) ||
  (st.dec && (!st.indexed || (st.pairs && st.ixop != 2))) ||
  (st.cvt && st.indexed && !st.dec) ||
  0xFFFFFF < st.total

/-! ### Reading the sources (R176, R178, R182) -/

/-- What a pull of one byte or element finds: it, an address that must be waited for, or an error (R184). -/
inductive Pull where
  | got (x : Nat)
  | stall (a : Word)
  | fail (reason : Nat)

/-- The aligned 32-byte sector of an address. -/
def sectorAt (a : Word) : Word := a &&& ~~~31

/-- A sector of a source that has been read and is still to be used. -/
def Strm.sector (st : Strm) (a : Word) : Option (List Byte) := (st.buf.find? (fun p => p.1 == sectorAt a)).map (·.2)

/-- The byte at an address of a source (R182): of the sector read before, or of memory as the step reads it. -/
def sourceByte (s : State) (cid : Cid) (st : Strm) (a : Word) : Pull :=
  match st.sector a with
  | some bs => .got (bs.getD (a.toNat % 32) 0).toNat
  | none =>
    match targetOf s cid ((s.core cid.core).coverOf a) a 1 with
    | .at k => .got (s.mem.get k).toNat
    | .miss => .stall a
    | .wait => .stall a
    | .gone => .fail 2

/-- The address of byte `pos` of pattern A; none past its end (R176). -/
def Strm.addrA (st : Strm) (pos : Nat) : Option Word :=
  let run := field (st.word 2) 0 24
  let n1 := field (st.word 2) 24 16
  let n2 := field (st.word 2) 40 16
  let s1 := BitVec.ofInt 64 (signedOf 32 (field (st.word 3) 0 32))
  let s2 := BitVec.ofInt 64 (signedOf 32 (field (st.word 3) 32 32))
  if pos < run * n1 * n2 then
    some (st.word 0 + BitVec.ofNat 64 (pos / run / n1) * s2 + BitVec.ofNat 64 (pos / run % n1) * s1 + BitVec.ofNat 64 (pos % run))
  else none

/-- The next byte of pattern A; `past` is the error where the pattern has ended. -/
def pullRaw (s : State) (cid : Cid) (st : Strm) (r : Reader) (past : Nat) : Reader × Pull :=
  match st.addrA r.pos with
  | none => (r, .fail past)
  | some a =>
    match sourceByte s cid st a with
    | .got b => ({ r with pos := r.pos + 1 }, .got b)
    | p => (r, p)

/-- The next byte of a zero or literal run (R178 ZR). -/
def pullRun (s : State) (cid : Cid) (st : Strm) (r : Reader) : Reader × Pull :=
  if r.zero ≠ 0 then ({ r with zero := r.zero - 1 }, .got 0)
  else
    match pullRaw s cid st r 3 with
    | (r, .got b) => ({ r with lit := r.lit - 1 }, .got b)
    | p => p

/-- The next byte of source A after ZR. -/
def pullA (s : State) (cid : Cid) (st : Strm) (r : Reader) : Reader × Pull :=
  if !st.zr then pullRaw s cid st r 4
  else if r.zero ≠ 0 ∨ r.lit ≠ 0 then pullRun s cid st r
  else
    match pullRaw s cid st r 4 with
    | (r, .got c) =>
      pullRun s cid st (if 128 ≤ c then { r with zero := c % 128 + 1 } else { r with lit := c + 1 })
    | p => p

/-- The address of byte `pos` of source B (R176). -/
def Strm.addrB (st : Strm) (pos : Nat) : Word := st.word 1 + BitVec.ofNat 64 pos

/-- The next byte of source B (R176). -/
def pullB (s : State) (cid : Cid) (st : Strm) (r : Reader) : Reader × Pull :=
  match sourceByte s cid st (st.addrB r.pos) with
  | .got b => ({ r with pos := r.pos + 1 }, .got b)
  | p => (r, p)

/-- Pull bytes until `n` bits are at hand. -/
def pullBits (pull : Reader → Reader × Pull) (n : Nat) : Nat → Reader → Reader × Pull
  | 0, r => (r, .got 0)
  | f + 1, r =>
    if n ≤ r.accN then (r, .got 0)
    else
      match pull r with
      | (r, .got b) => pullBits pull n f { r with acc := r.acc + b * 2 ^ r.accN, accN := r.accN + 8 }
      | p => p

/-- The reader with `n` bits taken. -/
def Reader.drop (r : Reader) (n : Nat) : Reader := { r with acc := r.acc / 2 ^ n, accN := r.accN - n }

/-! ### Parsing and operators (R178) -/

/-- The bits of source A that are parsed together: an element, a run of 48 (R113), or a superblock (R111). -/
def Strm.groupBits (st : Strm) : Nat :=
  if st.ifmt = 9 then 1088 else if st.sp = 0 then st.width else 12 * st.sp * st.width + 24 * st.sp

/-- The 48 elements of a run of S12, S24 or S36 (R113): `blank` stands where no entry names a position. -/
def expandRun (q w blank x : Nat) : List Nat :=
  (List.range 48).map (fun e =>
    ((List.range q).foldl (fun v t =>
      let i := e / 4 * q + t
      if x / 2 ^ (12 * q * w + 2 * i) % 4 = e % 4 then laneOf w x i else v) blank))

/-- The 256 elements of a superblock (R111). -/
def expandBlock (x : Nat) : List Nat :=
  (List.range 256).map (fun e => sn4Decode (laneOf 4 x e) (laneOf 8 (x / 2 ^ 1024) (e / 64)) (x / 2 ^ 1056 % 2 ^ 32))

/-- The elements of a group of source A: indices, the marker 0x8000, or patterns. -/
def Strm.parse (st : Strm) (x : Nat) : List Nat :=
  if st.ifmt = 9 then expandBlock x
  else if st.sp = 0 then [x]
  else expandRun st.sp st.width (if st.indexed then 0x8000 else 0) x

/-- Decode(k, j) (R150). -/
def KReg.decode (k : KReg) (j : Nat) : Rl := if j < k.n then k.tag.fmt.value (k.entry j) else rlZero false

/-- The mode of CVT (R177 RND). -/
def Strm.rnd (st : Strm) : RMode := match st.ch 30 2 with | 0 => .rne | 1 => .rtz | _ => .sat

/-- CVT of a pattern of format `f` (R178). -/
def Strm.convert (st : Strm) (f : Fmt) (p : Nat) : Nat :=
  let g := fmtOf (st.ch 27 3)
  if !st.cvt || f == g then p else (roundTo g (f.value p) st.rnd).pat

/-- OF (R178). -/
def Strm.denseFmt (st : Strm) : Fmt := if st.cvt then fmtOf (st.ch 27 3) else if st.dec then st.kd.tag.fmt else .f32

/-- DEC and CVT of an index (R178): the lane, and whether the index was out of range. -/
def Strm.decodeIx (st : Strm) (j : Nat) : Nat × Bool :=
  if !st.dec then (j, false)
  else if j < st.kd.n then (st.convert st.kd.tag.fmt (st.kd.entry j), false)
  else (st.convert st.kd.tag.fmt 0, j != 0x8000)

/-- The operators after parsing, on element `x` of A and `y` of B (R178): the lane, and whether it sets KOOR. -/
def Strm.element (st : Strm) (x y : Nat) : Nat × Bool :=
  if !st.indexed then (st.convert (if st.ifmt = 9 then .f32 else fmtOf st.ifmt) x, false)
  else
    let p := if !st.pairs then x else if x < st.ka.n ∧ y < st.kb.n then x * st.kb.n + y else 0xFFFF
    match st.ixop with
    | 1 => st.decodeIx (if p < 256 then xAt st.xr p else p)
    | 2 =>
      if st.dense then
        ((roundTo st.denseFmt (kpairReal (st.ch 10 3) (st.ka.decode x) (st.kb.decode y)) .rne).pat, false)
      else st.decodeIx (if p < st.ka.n * st.kb.n then (st.tmap.getD p 0).toNat else 255)
    | _ => st.decodeIx p

/-- The lanes that the next vector needs (R179). -/
def Strm.needs (st : Strm) : Nat := min st.epv (st.ne - st.parsed * st.epv)

/-- One group parsed: its elements pass through the operators into the queue of lanes. -/
def parseGroup (s : State) (cid : Cid) (st : Strm) : Strm × Pull :=
  let n := st.groupBits
  match pullBits (pullA s cid st) n (n / 8 + 1) st.rdA with
  | (a, .got _) =>
    let m := if st.pairs then 2 * (st.ch 8 2 + 1) else 0
    match pullBits (pullB s cid st) m 2 st.rdB with
    | (b, .got _) =>
      let y := b.acc % 2 ^ m
      let left := st.ne - (st.parsed * st.epv + st.elq.length)
      let l := ((st.parse (a.acc % 2 ^ n)).take left).map (fun x => st.element x y)
      ({ st with rdA := a.drop n, rdB := b.drop m, elq := st.elq ++ l.map (fun p => BitVec.ofNat 32 p.1),
                 koor := st.koor || l.any (·.2) }, .got 0)
    | (b, p) => ({ st with rdA := a, rdB := b }, p)
  | (a, p) => ({ st with rdA := a }, p)

/-- Groups parsed until the next vector's lanes are there, or until a byte is missing. -/
def parseVector (s : State) (cid : Cid) : Nat → Strm → Strm × Pull
  | 0, st => (st, .got 0)
  | f + 1, st =>
    if st.needs ≤ st.elq.length then (st, .got 0)
    else
      match parseGroup s cid st with
      | (st, .got _) => parseVector s cid f st
      | p => p

/-- The sectors that the bytes from `st` to `now` of both sources lie in. -/
def sectorsRead (st now : Strm) : List Word :=
  (List.range (now.rdA.pos - st.rdA.pos)).filterMap (fun i => (st.addrA (st.rdA.pos + i)).map sectorAt) ++
  (List.range (now.rdB.pos - st.rdB.pos)).map (fun i => sectorAt (st.addrB (st.rdB.pos + i)))

/-- The sectors in which the next bytes of the two sources lie. -/
def Strm.nextSectors (st : Strm) : List Word :=
  ((st.addrA st.rdA.pos).map sectorAt).toList ++ (if st.pairs then [sectorAt (st.addrB st.rdB.pos)] else [])

/-- The 32 bytes of a sector that is at hand. -/
def readSector (s : State) (cid : Cid) (a : Word) : Option (List Byte) :=
  match targetOf s cid ((s.core cid.core).coverOf a) (sectorAt a) 32 with
  | .at k => some (s.mem.bytes k 32)
  | _ => none

/-- What a stream keeps of the sectors that it has read: each is read whole, and once (R182). A sector whose bytes are used
up is let go; one that is used in part is kept as it was read. -/
def Strm.keep (now : Strm) (s : State) (cid : Cid) (st : Strm) : Strm :=
  let used := sectorsRead st now
  let next := now.nextSectors
  { now with buf := st.buf.filter (fun p => !used.contains p.1 || next.contains p.1) ++
      (next.filter (fun a => used.contains a && (st.sector a).isNone)).filterMap (fun a =>
        (readSector s cid a).map (fun bs => (a, bs))) }

/-- The address of the source byte that a step reads ahead (R182 read-ahead): byte `pos` of source A, or of B, as many of
which are read as the pairing needs. -/
def Strm.ahead (st : Strm) (isB : Bool) (pos : Nat) : Option Word :=
  if isB then (if st.pairs && 8 * pos < st.ne * (2 * (st.ch 8 2 + 1)) then some (st.addrB pos) else none) else st.addrA pos

/-- Whether a stream may read its sources: it is captured and has vectors left to produce. One that is DONE or in ERROR has
them only after a resume, until it has produced again those that were not popped (R182, R185, R186). -/
def Strm.mayRead (st : Strm) : Bool :=
  st.capt && st.parsed < (if st.st == .active then st.total else if st.popped < st.made then st.made else 0)

/-- Whether a stream may produce a vector now: it has vectors left and holds fewer than 8 (R182). -/
def Strm.mayProduce (st : Strm) : Bool := st.mayRead && (st.vecs.length < 8 || st.parsed < st.popped)

/-- A stream with one vector more, at the position it has reached (R182); a vector that was skipped is dropped. -/
def Strm.push (st : Strm) (v : Vec) : Strm :=
  { st with parsed := st.parsed + 1, made := max st.made (st.parsed + 1), miss := none,
            vecs := if st.parsed < st.popped then st.vecs else st.vecs ++ [v],
            marks := if st.parsed < st.popped then st.marks else st.marks ++ [st.start],
            start := { a := st.rdA, b := st.rdB, elq := st.elq } }

/-- A whole vector leaves the queue of lanes (R179). -/
def Strm.emit (st : Strm) : Strm :=
  { st with elq := st.elq.drop st.needs }.push (vecOf st.lane ((st.elq.take st.needs).map BitVec.toNat))

/-- The context with a stream register set. -/
def Ctx.setW (c : Ctx) (n : Fin 8) (o : Option Strm) : Ctx := { c with w := c.w.set n.val o n.isLt }

/-- A stream has ended, DONE or in ERROR (R184, R185): STAT.SERR for an error, and the completion action. -/
def Eff.streamEnd (e : Eff) (cid : Cid) (n : Fin 8) (st : Strm) (now : StrmSt) (reason : Nat) : Eff :=
  let first := st.st == .active
  let st := { st with st := now, reason := reason, made := if now == .error then st.parsed else st.made }
  let e := e.ctx cid (fun c => (if now == .error then c.flag flSERR else c).setW n (some st))
  if first && st.word 6 != 0 then
    let bit := field (st.word 7) 0 32
    e.streamAction cid (bitBlock (st.word 6) bit) (bit % 64) (now == .error) (BitVec.ofNat 24 st.made)
  else e

/-! ### Steps -/

/-- The descriptor at a key. -/
def descWords (m : Mem) (k n : Nat) : List Word := (List.range n).map (fun i => m.word (k + 8 * i))

/-- The verdict of a stream that forms pairs (R181). -/
def Strm.verdict (st : Strm) (p : Pair) (ctx : Fin 4) : Bool :=
  let ok := p.holder == some ctx && p.st == .remap && p.na == st.ka.n && p.nb == st.kb.n
  if kpolOvr st.kpol = 2 then true
  else if !ok then true
  else if kpolOvr st.kpol = 1 then false
  else st.cj

/-- What a stream captures once its descriptor has arrived (R180). -/
def Strm.capture (st : Strm) (c : Ctx) (p : Pair) (ctx : Fin 4) : Strm :=
  let st := { st with
    capt := true,
    ka := c.k.get (kIx (st.ch 18 4)), kb := c.k.get (kIx (st.ch 22 4)), kd := c.k.get (kIx (st.ch 32 4)),
    xr := c.x.get (xIx (st.ch 15 2)),
    tmap := if st.ixop = 2 then p.p.map (fun (x : BitVec 32) => x.setWidth 8) else [] }
  { st with dense := st.ixop == 2 && st.verdict p ctx }

/-- The streams of a context run unless it is halted: their state is then what its save area holds (R355, R359). -/
def Ctx.streamsRun (c : Ctx) : Bool := !(c.st == .halted || c.st == .resuming)

/-- The position to which a stream's pops may advance: its total; where a reserved format leaves that open, a free value
(R186, log entry 68). -/
def Strm.limit (st : Strm) (free : Nat) : Nat := if 9 < st.ifmt ∨ (st.cvt ∧ 4 < st.ch 27 3) then free else st.total

/-- Whether the descriptor alone gives the total: the format of the elements does not hang on a register or a verdict that is
still to be captured (R179, R186). -/
def Strm.knows (st : Strm) : Bool :=
  !st.words.isEmpty && (st.capt || st.cvt || !st.indexed || (!st.dec && st.ixop != 2))

/-- A stream whose pop position moves on by up to `n` vectors (R186); a skip is held until the total is known. -/
def Strm.skipOn (st : Strm) (n free : Nat) : Strm :=
  if st.knows then
    let k := min n (st.limit free - st.popped)
    { st with popped := st.popped + k, vecs := st.vecs.drop k, marks := st.marks.drop k }
  else { st with skip := st.skip + n }

/-- The held skip of a stream, applied where the total is known by now (R186). -/
def Strm.skipHeld (st : Strm) (free : Nat) : Strm :=
  if st.knows then { st with skip := 0 }.skipOn st.skip free else st

/-- Whether another stream of the context that has captured its registers has IXOP = 2 (R177, log entry 68). -/
def otherPremap (c : Ctx) (n : Fin 8) : Bool :=
  (List.finRange 8).any (fun i => i != n && (match c.w.get i with
    | some t => t.capt && t.ixop == 2
    | none => false))

/-- STREAM_CAPTURE (R180): the stream register `strm` of the context of `act` reads its descriptor, once the context's
stores before its WSET have performed; or, with the descriptor at hand, it captures its registers, once the counted KB
operations before its WSET have completed. A held WSKIP is applied as soon as the total is known (R186, log entry 68). -/
def execStreamCapture (s : State) : Host.Outcome State Fault Refusal :=
  let cid := s.act.cid
  let n := s.act.strm
  let c := s.ctx cid
  match c.w.get n with
  | some st =>
    if !c.streamsRun || st.capt then stutter s
    else if st.words.isEmpty then
      match (if storesDone c st.seq then targetOf s cid st.win st.desc 64 else .wait) with
      | .at k => done s ((Eff.start s).ctx cid (fun c =>
          c.setW n (some ({ st with words := descWords s.mem k 8 }.skipHeld (s.freeWord.toNat % 2 ^ 24)))))
      | _ => stutter s
    else if (s.kbOps cid).all (fun o => st.seq ≤ o.seq) then
      let st := (st.capture c (s.core cid.core).pair cid.ctx).skipHeld (s.freeWord.toNat % 2 ^ 24)
      if st.bad (otherPremap c n) then done s ((Eff.start s).streamEnd cid n st .error 1)
      else done s ((Eff.start s).ctx cid (fun c => c.setW n (some st)))
    else stutter s
  | none => stutter s

/-- STREAM_VECTOR_PRODUCE (R182): the stream register `strm` of the context of `act` reads its source as far as it is at
hand, towards one vector, once its context has tried the bundle after its WSET (R300). Where the step picks a byte, the
sector of that byte of source A, or of B where `later` is set, is read ahead, however many vectors are held. Where `flag` is
set, the oldest completion action that is left is performed instead. A stream in ERROR that cannot read a vector again after
a resume gives a free one, since its reason and PRODUCED stay frozen (R184, log entry 43). -/
def execStreamVectorProduce (s : State) : Host.Outcome State Fault Refusal :=
  let cid := s.act.cid
  let n := s.act.strm
  let c := s.ctx cid
  if s.act.flag then
    match c.bits with
    | (blk, bit, err, cnt) :: r =>
      done s (((Eff.start s).ctx cid (fun c => { c with bits := r })).streamAction cid blk bit err cnt)
    | [] => stutter s
  else
    match c.w.get n with
    | some st =>
      if c.streamsRun && (if s.act.pick.isSome then st.mayRead else st.mayProduce) && storesDone c st.seq && !c.young st.seq then
        match s.act.pick with
        | some pos =>
          match (st.ahead s.act.later pos).bind (fun a => if (st.sector a).isSome then none else
              (readSector s cid a).map (fun bs => (sectorAt a, bs))) with
          | some p => done s ((Eff.start s).ctx cid (fun c => c.setW n (some { st with buf := st.buf ++ [p] })))
          | none => stutter s
        | none =>
          match parseVector s cid 130 st with
          | (t, .got _) =>
            let t := (t.keep s cid st).emit
            if t.st = .active ∧ t.parsed = t.total then done s ((Eff.start s).streamEnd cid n t .done 0)
            else done s ((Eff.start s).ctx cid (fun c => c.setW n (some t)))
          | (t, .stall _) => done s ((Eff.start s).ctx cid (fun c => c.setW n (some (t.keep s cid st))))
          | (t, .fail r) =>
            if t.st = .error then done s ((Eff.start s).ctx cid (fun c => c.setW n (some (t.push (Config.free s.tick)))))
            else done s ((Eff.start s).streamEnd cid n t .error r)
      else stutter s
    | none => stutter s

/-- The window slot and address that a stream of a context waits for; or, where `ahead` is not 0, of a byte that it reads
ahead: byte `pos` of source A for 2 pos + 1, of source B for 2 pos + 2 (R182). -/
def streamMiss (s : State) (cid : Cid) (n : Fin 8) (ahead : Nat) : Option (Fin 8 × Word) :=
  let c := s.ctx cid
  match c.w.get n with
  | some st =>
    if !c.streamsRun || !storesDone c st.seq then none
    else if st.words.isEmpty then
      (match targetOf s cid st.win st.desc 64, st.win with
       | .miss, some slot => some (slot, st.desc)
       | _, _ => none)
    else if !st.mayRead then none
    else if ahead ≠ 0 then
      (st.ahead (ahead % 2 == 0) ((ahead - 1) / 2)).bind (fun a =>
        match (s.core cid.core).coverOf a with
        | some slot => if (st.sector a).isNone && targetOf s cid (some slot) a 1 == .miss then some (slot, a) else none
        | none => none)
    else
      (match parseVector s cid 130 st with
       | (_, .stall a) => ((s.core cid.core).coverOf a).map (fun slot => (slot, a))
       | _ => none)
  | none => none

/-- The window slot and address that the access or codebook operation at a place in its context's order waits for. -/
def accessMiss (s : State) (cid : Cid) (seq : Nat) : Option (Fin 8 × Word) :=
  match (s.ctx cid).sbAt seq with
  | some o =>
    if o.kind.isAccess && sbTurn s cid o then
      (match targetOf s cid o.win o.addr o.kind.size, o.win with
       | .miss, some slot => some (slot, o.addr)
       | _, _ => none)
    else none
  | none =>
    match (s.core cid.core).kbRun, (s.core cid.core).kbq with
    | none, o :: _ =>
      if o.ctx = cid.ctx ∧ o.seq = seq ∧ o.extent ≠ 0 ∧ kbTurn s cid o then
        (match kbMiss s cid o, o.win with
         | some a, some slot => some (slot, a)
         | _, _ => none)
      else none
    | _, _ => none

/-- What becomes of a stream's fill: none failed since, or the address whose page is not present, of which a pop that
needs the vector will say so (R183). -/
def Ctx.streamMiss (c : Ctx) (n : Fin 8) (a : Option Word) : Ctx :=
  match c.w.get n with
  | some st => c.setW n (some { st with miss := a })
  | none => c

/-- A stream's fill at `a` fails for an address: a source byte's page is named at the pop that needs it (R183), which a fill
for a byte that is read ahead does not settle; for the descriptor, for a page that no port reaches (`link`), and for a line in
the way that cannot be written back, it is as for LDX (R180, R374). -/
def Ctx.streamFault (c : Ctx) (n : Fin 8) (a x : Word) (link ahead : Bool) : Ctx :=
  match c.w.get n with
  | some st =>
    if st.capt ∧ x = a ∧ !link then (if ahead then c else c.streamMiss n (some x)) else c.unprobed x
  | none => c

/-- The fill for the access or codebook operation at a place fails (R100): an access is over; a codebook operation stays
outstanding (R160). -/
def Ctx.accessFault (c : Ctx) (seq : Nat) (x : Word) : Ctx :=
  match c.sbAt seq with
  | some o => c.failSb o x
  | none => c.unprobed x

/-- WINDOW_FILL (R100): the line that the context of `act` waits for is filled, or the sector of it that the step picks:
for the access or codebook operation at place `num` of its trigger order, or for the stream register `strm` where `flag` is
set, for a byte that `num` names where it is read ahead. A fill that finds its page not present raises FATAL_UNPROBED, for a stream's source at the pop that needs it. Where
`hi` is not 0, the picked sector of the core's write-backs that are in flight performs instead. -/
def execWindowFill (s : State) : Host.Outcome State Fault Refusal :=
  let cid := s.act.cid
  let n := s.act.strm
  if s.act.hi ≠ 0 then s.landOne (.win cid.core) (s.act.pick.getD 0)
  else if s.act.flag then
    match streamMiss s cid n s.act.num with
    | some (slot, a) =>
      match (Eff.start s).fill cid slot a with
      | .fill e => done s (if s.act.num = 0 then e.ctx cid (fun c => c.streamMiss n none) else e)
      | .fault x =>
        let link := translate s (clusterOf cid.core) (s.ctx cid).pasid x.toNat false == .noPort
        done s ((Eff.start s).ctx cid (fun c => c.streamFault n a x link (s.act.num != 0)))
      | .wait => stutter s
    | none => stutter s
  else
    match accessMiss s cid s.act.num with
    | some (slot, a) =>
      match (Eff.start s).fill cid slot a with
      | .fill e => done s e
      | .fault x => done s ((Eff.start s).ctx cid (fun c => c.accessFault s.act.num x))
      | .wait => stutter s
    | none => stutter s

/-! ### Triggers (R180, R186, R187) -/

/-- The descriptor's address that WSET takes from b. -/
def In.descAddr (i : In) : Word := i.b.word &&& ~~~63

/-- The traps of WSET, as LDX's (R180). -/
def wsetCheck (i : In) : Option (Nat × Word) :=
  match locOf i.cid.core i.descAddr with
  | .bad => some (causeAddr, i.descAddr)
  | .glob _ => if ((i.s.core i.cid.core).coverOf i.descAddr).isNone then some (causeUnmapped, i.descAddr) else none
  | _ => none

/-- A reader at the start of its source. -/
def Reader.fresh : Reader := { pos := 0, lit := 0, zero := 0, acc := 0, accN := 0 }

/-- A stream as WSET binds it. -/
def In.bind (i : In) (seq : Nat) : Strm :=
  let cj : Fin 4 := xIx (field i.b.word 0 2)
  { seq := seq, desc := i.descAddr, win := (i.s.core i.cid.core).coverOf i.descAddr, vj := cj, cj := i.c.c.get cj, kpol := i.c.kpol,
    words := [], capt := false, ka := KReg.empty, kb := KReg.empty, kd := KReg.empty, xr := 0, tmap := [], dense := false,
    st := .active, reason := 0, koor := false, ovr := 0, popped := 0, made := 0, parsed := 0, skip := 0,
    rdA := Reader.fresh, rdB := Reader.fresh, elq := [], vecs := [], marks := [],
    start := { a := Reader.fresh, b := Reader.fresh, elq := [] }, buf := [], miss := none }

/-- The status word of a stream register (R187). A position that a WSKIP on a DESC stream has taken beyond 24 bits is one
that the spec gives no value: `free` stands for it (log entry 68). -/
def strmStatus (o : Option Strm) (free : Nat) : Word :=
  match o with
  | none => 0
  | some st =>
    let state : Nat := match st.st with | .active => 1 | .done => 2 | .error => 3
    let popped := if st.popped < 2 ^ 24 then st.popped else free % 2 ^ 24
    let made := if st.st = .active then max st.made popped else st.made
    BitVec.ofNat 64 (state * 2 ^ 60 + st.reason * 2 ^ 56 + st.koor.toNat * 2 ^ 55 + st.dense.toNat * 2 ^ 54 +
      min st.ovr 63 * 2 ^ 48 + popped * 2 ^ 24 + made)

/-- WSET (R180). -/
def opWset (n : Fin 8) : Op :=
  { bus := 12, t := n.val, acc := true
    chk := wsetCheck
    blk := fun i => i.c.pendC.getLsbD (field i.b.word 0 2)
    eff := fun i s => s.modCtx i.cid (fun c => { c.setW n (some (i.bind c.seq)) with seq := c.seq + 1 }) }

/-- The bundle whose one move triggers WSET. -/
def execWset (g : Guard) (src : Src) (n : Fin 8) (s : State) : Host.Outcome State Fault Refusal :=
  issueOne g src (opWset n) s

/-- WREL (R186). -/
def opWrel (n : Fin 8) : Op :=
  { bus := 12, t := 8 + n.val
    eff := fun i s => s.modCtx i.cid (fun c => c.setW n none) }

/-- The bundle whose one move triggers WREL. -/
def execWrel (g : Guard) (src : Src) (n : Fin 8) (s : State) : Host.Outcome State Fault Refusal :=
  issueOne g src (opWrel n) s

/-- WSTAT (R187). -/
def opWstat (n : Fin 8) : Op :=
  { bus := 12, t := 16 + n.val, res := true
    eff := fun i s => s.modCtx i.cid (fun c => c.result 12 2 (some (.sc (strmStatus (i.c.w.get n) i.s.freeWord.toNat))) none 0) }

/-- The bundle whose one move triggers WSTAT. -/
def execWstat (g : Guard) (src : Src) (n : Fin 8) (s : State) : Host.Outcome State Fault Refusal :=
  issueOne g src (opWstat n) s

/-- WSKIP (R186). -/
def opWskip (n : Fin 8) : Op :=
  { bus := 12, t := 24 + n.val
    eff := fun i s => s.modCtx i.cid (fun c => c.setW n ((c.w.get n).map (fun st => st.skipOn i.b.word.toNat (i.s.freeWord.toNat % 2 ^ 24)))) }

/-- The bundle whose one move triggers WSKIP. -/
def execWskip (g : Guard) (src : Src) (n : Fin 8) (s : State) : Host.Outcome State Fault Refusal :=
  issueOne g src (opWskip n) s

end Sys2Proof.Machine
end

