-- ==== Sys2Proof/Machine/Copies.lean ====
section
/-! DEFINITION. Class Y: copies, fills, CPST and sector atomics, and the steps in which they perform
(spec/16_copy_index.md R244 to R260; spec/15_ordering.md R238, R242). -/

namespace Sys2Proof.Machine

/-! ### The control word of a copy (R246) -/

/-- LEN. -/
def cwLen (x : Word) : Nat := field x 0 32
/-- CV. -/
def cwCv (x : Word) : Nat := field x 32 3
/-- RND. -/
def cwRnd (x : Word) : Nat := field x 35 2
/-- KQ. -/
def cwKq (x : Word) : Fin 16 := Fin.ofNat 16 (field x 40 4)
/-- VP. -/
def cwVp (x : Word) : Fin 4 := Fin.ofNat 4 (field x 44 2)
/-- VE. -/
def cwVe (x : Word) : Bool := x.getLsbD 46

/-- Whether the conversion decodes indices. -/
def cwIndexed (x : Word) : Bool := cwCv x == 5 || cwCv x == 6

/-- The control word as the verdict leaves it: where VE asks for the verdict and it is CODED, CV 0 (R247). -/
def cwDecided (x : Word) (preds : List Bool) : Word :=
  if cwIndexed x && cwVe x && !(preds.getD (cwVp x).val false) then x &&& ~~~((7 : Word) <<< 32) else x

/-- The bytes of a source element. -/
def cvSrc (cv : Nat) : Nat := if cv = 1 ∨ cv = 2 then 2 else 1

/-- The bytes of a destination element. -/
def cvDst (cv : Nat) : Nat := if cv = 0 ∨ cv = 1 ∨ cv = 2 then 1 else 2

/-- The destination bytes of `n` source bytes (R246). -/
def cvBytes (cv n : Nat) : Nat := match cv with | 1 | 2 => n / 2 | 3 | 4 | 6 => 2 * n | 5 => 4 * n | _ => n

/-- The source bytes that the first `n` destination bytes need. -/
def cvNeed (cv n : Nat) : Nat := match cv with | 1 | 2 => 2 * n | 3 | 4 | 6 => (n + 1) / 2 | 5 => (n + 3) / 4 | _ => n

/-- The source bytes that lie wholly before a destination byte. -/
def cvBefore (cv n : Nat) : Nat := match cv with | 1 | 2 => 2 * n | 3 | 4 | 6 => n / 2 | 5 => n / 4 | _ => n

/-- RoundTo of RND. -/
def cwMode (x : Word) : RMode := match cwRnd x with | 0 => .rne | 1 => .rtz | _ => .sat

/-- Bytes taken two at a time, little-endian. -/
def halves : List Byte → List Nat
  | a :: b :: r => (a.toNat + 256 * b.toNat) :: halves r
  | _ => []

/-- A rounded element of a conversion counts where it overflowed, saturated, or became NaN from no NaN (R247). -/
def strange (f : Fmt) (x : Rl) (r : Rounded) : Bool :=
  (r.fl &&& (flOF ||| flSAT)) != 0 || ((f.value r.pat).isNaN && !x.isNaN)

/-- A decoded index as BF16, and whether it counts: it lies at or above the count, or its entry overflows (R150, R247). -/
def decoded (k : KReg) (j : Nat) : List Byte × Nat :=
  let r := roundTo .bf16 (k.decode j) .rne
  (leBytes 2 r.pat, if j < k.n then (strange .bf16 (k.decode j) r).toNat else 1)

/-- The destination bytes of the elements of some source bytes, each with whether it counts as strange (R247). -/
def convertElems (ctl : Word) (k : KReg) (bs : List Byte) : List (List Byte × Nat) :=
  let narrow (f : Fmt) : List (List Byte × Nat) := (halves bs).map (fun p =>
    let x := Fmt.bf16.value p
    let r := roundTo f x (cwMode ctl)
    (leBytes 1 r.pat, (strange f x r).toNat))
  let widen (f : Fmt) : List (List Byte × Nat) := bs.map (fun b =>
    (leBytes 2 (roundTo .bf16 (f.value b.toNat) .rne).pat, 0))
  match cwCv ctl with
    | 1 => narrow .e4m3
    | 2 => narrow .e5m2
    | 3 => widen .e4m3
    | 4 => widen .e5m2
    | 5 => bs.flatMap (fun b => [decoded k (b.toNat % 16), decoded k (b.toNat / 16)])
    | 6 => bs.map (fun b => decoded k b.toNat)
    | _ => [(bs, 0)]

/-- The bytes of some elements, which begin at byte `p` of an item's destination, that lie from byte `lo` up to but not `hi`;
and how many of the elements that begin there are strange. -/
def cutElems (lo hi : Nat) : Nat → List (List Byte × Nat) → List Byte × Nat
  | _, [] => ([], 0)
  | p, (bs, odd) :: r =>
    let q := cutElems lo hi (p + bs.length) r
    ((bs.take (hi - p)).drop (lo - p) ++ q.1, (if lo ≤ p ∧ p < hi then odd else 0) + q.2)

/-! ### What a command copies -/

/-- The rows of a command: source and destination of each (R246, R248, R249). -/
def Cmd.rows (m : Cmd) : List (Word × Word) :=
  if m.t = 1 ∨ m.t = 2 then
    let d (i : Nat) : Word := m.desc.getD i 0
    let n1 := field (d 3) 0 32
    let n2 := if m.t = 2 then field (d 3) 32 32 else 1
    (List.range (n1 * n2)).map (fun r =>
      let i1 := BitVec.ofNat 64 (r % n1)
      let i2 := if m.t = 2 then BitVec.ofNat 64 (r / n1) else 0
      (d 0 + i2 * d 6 + i1 * d 4, d 1 + i2 * d 7 + i1 * d 5))
  else if m.t = 3 then [(m.b, m.b)]
  else [(m.o1, m.b)]

/-- The source bytes of a row; of FILL, its destination bytes. -/
def Cmd.rowLen (m : Cmd) : Nat := cwLen m.val2

/-- The conversion; FILL has none. -/
def Cmd.cv (m : Cmd) : Nat := if m.t = 3 then 0 else cwCv m.val2

/-- The destination bytes of a row. -/
def Cmd.rowOut (m : Cmd) : Nat := cvBytes m.cv m.rowLen

/-- Whether a control field, a length or an alignment is outside its limits (R246, R248). -/
def Cmd.badOpnd (m : Cmd) : Bool :=
  (m.t != 3 && (cwCv m.val2 == 7 || cwRnd m.val2 == 2)) || m.rowLen % cvSrc m.cv != 0 ||
  ((m.t == 1 || m.t == 2) && field (m.desc.getD 3 0) 0 32 == 0) ||
  (m.t == 2 && field (m.desc.getD 3 0) 32 32 == 0) ||
  (m.cv != 0 && m.rows.any (fun r => r.1.toNat % cvSrc m.cv != 0 || r.2.toNat % cvDst m.cv != 0))

/-- The extents that a command reads and writes. -/
def Cmd.extents (m : Cmd) : List (Word × Nat) :=
  m.rows.flatMap (fun r => (if m.t = 3 then [] else [(r.1, m.rowLen)]) ++ [(r.2, m.rowOut)])

/-- Whether an extent leaves its window class (R244). -/
def Cmd.badAddr (m : Cmd) : Bool := m.rowLen != 0 && m.extents.any (fun e => !extentIn m.cid.core e.1 e.2)

/-- Whether a row lies in a peer that no port reaches (R374). -/
def Cmd.badLink (m : Cmd) (s : State) : Bool :=
  m.rows.any (fun r =>
    (m.t != 3 && unlinked s m.cid.core (s.pasidOf m) r.1 m.rowLen false) ||
    unlinked s m.cid.core (s.pasidOf m) r.2 m.rowOut true)

/-- The work items of a command (R250): the pieces of each row in the 4 KiB blocks of its source. -/
def Cmd.items (m : Cmd) : List Item :=
  let l := m.rows.zipIdx.flatMap (fun (p : (Word × Word) × Nat) =>
    (pagePieces p.1.1 m.rowLen).map (fun q =>
      ({ uid := m.uid, k := 0, row := p.2, src := q.1,
         dst := p.1.2 + BitVec.ofNat 64 (cvBytes m.cv (q.1 - p.1.1).toNat), n := q.2, ord := 0, got := 0, buf := [] } : Item)))
  l.zipIdx.map (fun p => { p.1 with k := p.2 })

/-! ### Engine queues (R250) -/

/-- The items queued at an engine. -/
def engGet : List (Nat × List Item) → Nat → List Item
  | [], _ => []
  | (a, l) :: r, n => if a = n then l else engGet r n

/-- The queues with one set; an empty queue is not listed. -/
def engSet : List (Nat × List Item) → Nat → List Item → List (Nat × List Item)
  | [], n, l => if l.isEmpty then [] else [(n, l)]
  | (a, q) :: r, n, l =>
    if n < a then (if l.isEmpty then (a, q) :: r else (n, l) :: (a, q) :: r)
    else if n = a then (if l.isEmpty then r else (n, l) :: r)
    else (a, q) :: engSet r n l

/-- The engine at which item `k` of a command of a core is queued. -/
def engineOf (n : Fin 4112) (k : Nat) : Nat := 8 * (clusterOf n).val + (coreIx n + k) % 8

/-- An item queued at its engine, with its place in the order of queueing. -/
def State.queueItem (s : State) (n : Fin 4112) (x : Item) : State :=
  let g := engineOf n x.k
  { s with engines := engSet s.engines g (engGet s.engines g ++ [{ x with ord := s.nextUid }]), nextUid := s.nextUid + 1 }

/-- The engine at which an item was queued, while its command lives. -/
def State.engineAt (s : State) (x : Item) : Option Nat := (s.cmd x.uid).map (fun m => engineOf m.cid.core x.k)

/-- Whether an item may start: none that was queued before it on the same engine is still to start, wherever a steal has
taken it (R327). -/
def State.mayStart (s : State) (x : Item) : Bool :=
  s.engines.all (fun p => p.2.all (fun y => !(y.got == 0 && y.ord < x.ord && s.engineAt y == s.engineAt x)))

/-! ### Sector atomics (R256, R257) -/

/-- OP of an atomic's control word. -/
def atOp (x : Word) : Nat := field x 0 4
/-- TY. -/
def atTy (x : Word) : Nat := field x 4 2
/-- NEAR. -/
def atNear (x : Word) : Bool := x.getLsbD 8
/-- The bytes of the operand block. -/
def atLen (x : Word) : Nat := if atOp x = 7 then 64 else 32

/-- The reason for which an atomic's operands fail its checks (R244, R256). -/
def atomBad (n : Fin 4112) (b o1 ctl : Word) : Option Nat :=
  if 7 < atOp ctl ∨ (3 < atOp ctl ∧ atTy ctl = 3) ∨ b.toNat % 32 ≠ 0 ∨ o1.toNat % 32 ≠ 0 then some rsOpnd
  else
    let near := match locOf n o1 with
      | .own _ => true
      | .slice i _ => n.val < 4096 && i == coreIx n
      | _ => false
    if canonical b && extentOk b 32 && near && extentOk o1 (atLen ctl) then none else some rsAddr

/-- The bytes of an element. -/
def atomSize (ctl : Word) : Nat :=
  match atOp ctl with
  | 1 => 2
  | 3 => 8
  | 0 | 2 => 4
  | _ => if atTy ctl = 1 then 8 else 4

/-- The kind of lane of MIN and MAX. -/
def atLane (ctl : Word) : LaneTy := match atTy ctl with | 0 => .int 32 | 1 => .int 64 | _ => .fl .f32

/-- The new value of an element, from its old value, its operand and its compare value. -/
def atElement (ctl : Word) (m v c : Nat) : Nat :=
  let w := 8 * atomSize ctl
  match atOp ctl with
  | 0 => (roundTo .f32 ((Fmt.f32.value m).add false (Fmt.f32.value v)) .rne).pat
  | 1 => (roundTo .bf16 ((Fmt.bf16.value m).add false (Fmt.bf16.value v)) .rne).pat
  | 2 | 3 => (m + v) % 2 ^ w
  | 4 => (atLane ctl).pickBy false m v
  | 5 => (atLane ctl).pickBy true m v
  | 6 => v
  | _ => if m = c then v else m

/-- The sector after an atomic, and the count of its token (R257). -/
def atomSector (ctl : Word) (old opnd : List Byte) : List Byte × Nat :=
  let w := atomSize ctl
  let at' (l : List Byte) (e : Nat) : Nat := leNat ((l.drop (w * e)).take w)
  let out := (List.range (32 / w)).map (fun e =>
    let m := at' old e
    let c := at' (opnd.drop 32) e
    if field ctl (16 + e) 1 = 0 then (leBytes w m, 0)
    else (leBytes w (atElement ctl m (at' opnd e) c), if atOp ctl = 7 then (if m = c then 1 else 0) else 1))
  ((out.map (·.1)).flatten, (out.map (·.2)).sum)

/-! ### The operations and the bundles whose one move triggers them -/

/-- CPY (R245 to R247). -/
def opCpy : Op :=
  cmdOp 10 0
    (fun i => [(i.o1.word, cwLen i.o2.word),
      (i.b.word, cvBytes (cwCv (cwDecided i.o2.word i.c.c.toList)) (cwLen i.o2.word))])
    (fun i m =>
      { m with val2 := cwDecided i.o2.word i.c.c.toList, kregs := [i.c.kSeen (cwKq i.o2.word)] })
    (fun i => cwIndexed i.o2.word &&
      (i.s.kbWrites i.cid false (cwKq i.o2.word).val || (cwVe i.o2.word && i.c.pendC.getLsbD (cwVp i.o2.word).val)))

/-- The bundle whose one move triggers CPY. -/
def execCpy (g : Guard) (src : Src) (s : State) : Host.Outcome State Fault Refusal :=
  issueOne g src opCpy s

/-- CPY2D (R245, R248). The descriptor, and with it KQ and VP, is read only when the command starts: the trigger captures every
k-register and predicate (log entry 38). -/
def opCpy2d : Op :=
  cmdOp 10 1 (fun i => [(i.b.word, 64)])
    (fun i m => { m with kregs := (List.finRange 16).map i.c.kSeen, preds := i.c.c.toList })
    (fun i => i.c.pendC != 0 || (List.range 16).any (fun q => i.s.kbWrites i.cid false q))

/-- The bundle whose one move triggers CPY2D. -/
def execCpy2d (g : Guard) (src : Src) (s : State) : Host.Outcome State Fault Refusal :=
  issueOne g src opCpy2d s

/-- CPY3D (R245, R248): it captures as CPY2D does (log entry 38). -/
def opCpy3d : Op :=
  cmdOp 10 2 (fun i => [(i.b.word, 64)])
    (fun i m => { m with kregs := (List.finRange 16).map i.c.kSeen, preds := i.c.c.toList })
    (fun i => i.c.pendC != 0 || (List.range 16).any (fun q => i.s.kbWrites i.cid false q))

/-- The bundle whose one move triggers CPY3D. -/
def execCpy3d (g : Guard) (src : Src) (s : State) : Host.Outcome State Fault Refusal :=
  issueOne g src opCpy3d s

/-- FILL (R245, R249). -/
def opFill : Op :=
  cmdOp 10 3 (fun i => [(i.b.word, cwLen i.o2.word)])
    (fun i m => { m with val2 := i.o2.word &&& 0xFFFFFFFF }) (fun _ => false)

/-- The bundle whose one move triggers FILL. -/
def execFill (g : Guard) (src : Src) (s : State) : Host.Outcome State Fault Refusal :=
  issueOne g src opFill s

/-- CPST (R245, R254). -/
def opCpst : Op :=
  cmdOp 10 4 (fun i => [(i.b.word, 8)]) (fun _ m => m) (fun _ => false)

/-- The bundle whose one move triggers CPST. -/
def execCpst (g : Guard) (src : Src) (s : State) : Host.Outcome State Fault Refusal :=
  issueOne g src opCpst s

/-- ATOM (R245, R256). -/
def opAtom : Op :=
  cmdOp 10 5 (fun i => [(i.o1.word, atLen i.o2.word)]) (fun _ m => m) (fun _ => false)

/-- The bundle whose one move triggers ATOM. -/
def execAtom (g : Guard) (src : Src) (s : State) : Host.Outcome State Fault Refusal :=
  issueOne g src opAtom s

/-- ATOMNR (R245, R256, R258): its checks are made here, and it has no token. The argument of its ADDRCLASS is the target
address, whichever check fails (log entry 76). -/
def opAtomnr : Op :=
  { bus := 10, t := 6, acc := true
    chk := fun i => (atomBad i.cid.core i.b.word i.o1.word i.o2.word).map (fun _ => (causeAddr, i.b.word))
    blk := fun i => flightLimit 10 ≤ inFlight i.s i.cid.core 10
    eff := fun i s => i.enter 10 6 [(i.o1.word, atLen i.o2.word)] (fun m => { m with tok := none }) s }

/-- The bundle whose one move triggers ATOMNR. -/
def execAtomnr (g : Guard) (src : Src) (s : State) : Host.Outcome State Fault Refusal :=
  issueOne g src opAtomnr s

/-- AFENCE (R260): it waits for CY to have room as every trigger there does (R51). -/
def opAfence : Op :=
  { bus := 10, t := 7
    blk := fun i => flightLimit 10 ≤ inFlight i.s i.cid.core 10 || i.s.cmds.any (fun m => m.cid == i.cid && m.bus == 10 && m.t == 6)
    eff := fun _ s => s }

/-- The bundle whose one move triggers AFENCE. -/
def execAfence (g : Guard) (src : Src) (s : State) : Host.Outcome State Fault Refusal :=
  issueOne g src opAfence s

/-! ### Dispatch (R250, R251) -/

/-- A command touches extents (R97). -/
def Eff.touching (e : Eff) (m : Cmd) (exts : List (Word × Nat)) : Eff :=
  e.cmd m.uid (fun c =>
    let ts := (dedup (exts.flatMap (fun x => touched m.cid.core x.1 x.2))).filter (fun g =>
      !c.gran.contains g && !c.touch.contains g)
    { c with touch := c.touch ++ ts })

/-- The transfer ID of a command as a number. -/
def Cmd.idNat (m : Cmd) : Nat := m.id.toNat

/-- Whether the host has replied for every page of a command's rows. -/
def Cmd.known (m : Cmd) (s : State) : Bool := m.extents.all (fun x => pagesKnown s m.cid.core (s.pasidOf m) x.1 x.2)

/-- A copy or fill that has its control word starts: it fails a check (log entry 36), is over at once, or its items are
queued; none while the host's reply for a page of it is awaited. -/
def Eff.startCopy (e : Eff) (m : Cmd) : Option Eff :=
  if m.badOpnd then some (e.fail m rsOpnd m.idNat)
  else if m.badAddr then some (e.fail m rsAddr m.idNat)
  else if m.rowLen = 0 then some (e.fin m.uid codeDone 0 0 m.idNat)
  else if !m.known e.st then none
  else if m.badLink e.st then some (e.fail m rsLink m.idNat)
  else some (
    let its := m.items
    let e := e.cmd m.uid (fun _ => { m with st := .started, left := its.length })
    let e := if m.t = 1 ∨ m.t = 2 then e.grants { m with touch := [] } m.extents else e
    -- what a command touches besides is noted as its items perform
    let e := e.cmd m.uid (fun c => { c with touch := m.touch })
    e.on (fun s => its.foldl (fun s x => s.queueItem m.cid.core x) s))

/-- A CPY2D or CPY3D reads its descriptor and starts (R248); none while it has to wait. -/
def Eff.startRows (e : Eff) (m : Cmd) : Option Eff :=
  match readDesc e.st m m.b 64 8 with
  | .wait => none
  | .bad => some (e.fail m rsAddr m.idNat)
  | .ok w =>
    let ctl := cwDecided (w.getD 2 0) m.preds
    let m := { m with desc := w, val2 := ctl, kregs := [(m.kregs.getD (cwKq ctl).val KReg.empty)] }
    (e.touching m [(m.b, 64)]).startCopy { m with touch := (touched m.cid.core m.b 64).filter (fun g => !m.gran.contains g) }

/-- A CPST leaves the queue (R244, R245); none while the host's reply for its page is awaited. -/
def Eff.startCpst (e : Eff) (m : Cmd) : Option Eff :=
  if m.b.toNat % 8 ≠ 0 then some (e.fail m rsOpnd m.idNat)
  else if !extentIn m.cid.core m.b 8 then some (e.fail m rsAddr m.idNat)
  else if !pagesKnown e.st m.cid.core (e.st.pasidOf m) m.b 8 then none
  else if unlinked e.st m.cid.core (e.st.pasidOf m) m.b 8 true then some (e.fail m rsLink m.idNat)
  else some (e.cmd m.uid (fun c => { c with st := .started }))

/-- An atomic leaves the queue: it reads its operand block, and an ATOMNR gives its granules back (R256, R258). None
while the block's granules are held back from the engines. -/
def Eff.startAtom (e : Eff) (m : Cmd) : Option Eff :=
  match if m.t = 6 then none else atomBad m.cid.core m.b m.o1 m.o2 with
  | some r => some (e.fail m r m.idNat)
  | none =>
    let p := e.st.pasidOf m
    if !engineFree e.st m.cid p m.o1 (atLen m.o2) then none
    else
      let bs := readBytes e.st m.cid.core p m.o1 (atLen m.o2)
      let e := if m.t = 6 then e.on (fun s => s.leaveGranules m) else e
      some (e.cmd m.uid (fun c =>
        { c with st := .started, opnd := bs, gran := if m.t = 6 then [] else c.gran }))

/-- The oldest unstarted class Y command of a context: the head of its dispatch queue (R251). -/
def State.dispatchHead (s : State) (cid : Cid) : Option Cmd :=
  let q := s.cmds.filter (fun m => m.cid == cid && m.bus == 10 && m.st == .queued)
  q.find? (fun m => q.all (fun n => m.seq ≤ n.seq))

/-- COPY_DISPATCH (R251): the head of the dispatch queue of the context of `act` starts, once the context's earlier
stores have performed (R238). -/
def execCopyDispatch (s : State) : Host.Outcome State Fault Refusal :=
  let cid := s.act.cid
  match s.dispatchHead cid with
  | some m =>
    if !storesDone (s.ctx cid) m.seq then stutter s
    else
      let e := Eff.start s
      match (match m.t with
        | 0 | 3 => e.startCopy m
        | 1 | 2 => e.startRows m
        | 4 => e.startCpst m
        | _ => e.startAtom m) with
      | some e => done s e
      | none => stutter s
  | none => stutter s

/-! ### Items (R250, R252) -/

/-- The sectors of a row of which all, or the first `q`, destination bytes from `d` were written (R252). -/
def rowSectors (d q : Nat) (whole : Bool) : Nat :=
  if whole then (if q = 0 then 0 else (d + q - 1) / 32 - d / 32 + 1) else (d + q) / 32 - d / 32

/-- The leading destination sectors that were written, in rows of `out` bytes, from a row that began at `d` and of which `q`
bytes have been seen (R252). A row of which items are missing ends short of its last byte. -/
def leading (out row d q : Nat) : List ItemRes → Nat
  | [] => rowSectors d q (q == out)
  | x :: r =>
    if x.row = row then
      if x.done < x.want then rowSectors d (q + x.done) false else leading out row d (q + x.want) r
    else
      rowSectors d q true +
        (if x.done < x.want then rowSectors x.dst.toNat x.done false else leading out x.row x.dst.toNat x.want r)

/-- The count of a PARTIAL copy. -/
def Cmd.sectors (m : Cmd) : Nat :=
  match (((List.range m.res.length).map (fun k => m.res.find? (fun x => x.k == k))).takeWhile Option.isSome).filterMap (fun x => x) with
  | [] => 0
  | x :: r => leading m.rowOut x.row x.dst.toNat 0 (x :: r)

/-- The reason PREEMPT of a copy that pre-emption cut (R357). -/
def rsPreempt : Nat := 4

/-- A copy whose items have all finished, stopped or been dropped (R244, R247, R252, R357); `prog` tells that items were
dropped. -/
def Eff.endCopy (e : Eff) (m : Cmd) : Eff :=
  if m.reason ≠ 0 then e.fail m m.reason m.idNat
  else if m.res.any (·.page) then e.fin m.uid codePartial rsPage m.sectors m.idNat
  else if m.prog ≠ 0 then e.fin m.uid codePartial rsPreempt m.sectors m.idNat
  else e.fin m.uid codeDone 0 m.cnt m.idNat

/-- A copy all of whose items are dealt with ends. -/
def Eff.copyOver (e : Eff) (uid : Nat) : Eff :=
  match e.st.cmd uid with
  | some m => if m.left = 0 then e.endCopy m else e
  | none => e

/-- The items of a command that have not begun. -/
def State.unbegun (s : State) (m : Cmd) : Nat :=
  (s.engines.flatMap (fun p => p.2.filter (fun x => x.uid == m.uid && x.got == 0))).length

/-- Whether a command is a started CPY, CPY2D, CPY3D or FILL with items that have not begun. -/
def toCut (s : State) (m : Cmd) : Bool := m.bus == 10 && m.t < 4 && m.st == .started && s.unbegun m != 0

/-- A copy cut at item boundaries (R357): its items that have not begun are dropped; it completes once those that perform
have finished. -/
def Eff.cutCopy (e : Eff) (m : Cmd) : Eff :=
  let n := e.st.unbegun m
  let e := e.on (fun s => { s with
    engines := (s.engines.map (fun p => (p.1, p.2.filter (fun x => !(x.uid == m.uid && x.got == 0))))).filter (fun p => !p.2.isEmpty) })
  (e.cmd m.uid (fun c => { c with prog := 1, left := c.left - n })).copyOver m.uid

/-- The bytes of an item's source from byte `a` of it: of the sector read before, or of memory as the step reads it. Each sector
is read whole, and once (R240, R255). -/
def Item.source (x : Item) (s : State) (m : Cmd) (a len : Nat) : List Byte :=
  (List.range len).map (fun i =>
    let y := x.src + BitVec.ofNat 64 (a + i)
    match x.buf.find? (fun p => p.1 == y &&& ~~~31) with
    | some p => p.2.getD (y.toNat % 32) 0
    | none => (readBytes s m.cid.core (s.pasidOf m) y 1).headD 0)

/-- What an item keeps of its source once it has used the bytes before byte `a`: the sector that it has used in part. -/
def Item.keep (x : Item) (s : State) (m : Cmd) (a : Nat) : List (Word × List Byte) :=
  let y := x.src + BitVec.ofNat 64 a
  let z := y &&& ~~~31
  if m.t = 3 ∨ y.toNat % 32 = 0 ∨ a = 0 ∨ x.n ≤ a then []
  else if x.buf.any (fun p => p.1 == z) then x.buf
  else [(z, readBytes s m.cid.core (s.pasidOf m) z 32)]

/-- The bytes of an item's destination, from byte `lo` up to but not `hi`, with how many of their elements count as strange
(R247, R249). -/
def itemBytes (s : State) (m : Cmd) (x : Item) (lo hi : Nat) : List Byte × Nat :=
  if m.t = 3 then
    ((List.range (hi - lo)).map (fun j => m.o1.extractLsb' (8 * ((x.dst.toNat + lo + j) % 8)) 8), 0)
  else
    let a := cvBefore m.cv lo
    cutElems lo hi (cvBytes m.cv a) (convertElems m.val2 (m.kregs.headD KReg.empty)
      (x.source s m a (cvNeed m.cv hi - a)))

/-- The source extent that the same bytes come from; of FILL, none. -/
def itemSource (m : Cmd) (x : Item) (lo hi : Nat) : Word × Nat :=
  if m.t = 3 then (x.src, 0) else (x.src + BitVec.ofNat 64 (cvBefore m.cv lo), cvNeed m.cv hi - cvBefore m.cv lo)

/-- How far an item can go: the destination bytes before the first page that stops it, and whether that is a page of a peer
that no port reaches (R252, R374). -/
def itemStop (s : State) (m : Cmd) (x : Item) : Nat × Bool :=
  let n := m.cid.core
  let p := s.pasidOf m
  let want := cvBytes m.cv x.n
  let d := okBytes s n p x.dst want true
  let r := if m.t = 3 then (x.n, false) else okBytes s n p x.src x.n false
  let stop := min d.1 (cvBytes m.cv r.1)
  (stop, stop < want && ((d.2 && d.1 == stop) || (r.2 && cvBytes m.cv r.1 == stop)))

/-- An item performs (R250): all that is left of it up to the first page that stops it, or, where `units` is not 0, up to that
many sectors of its destination (R240). None while a granule is held back from the engines or the host's reply is awaited.
With it, what is left of the item. -/
def Eff.item (e : Eff) (m : Cmd) (x : Item) (units : Nat) : Option (Eff × Option Item) :=
  let s := e.st
  let n := m.cid.core
  let p := s.pasidOf m
  let want := cvBytes m.cv x.n
  let stop := (itemStop s m x).1
  let part := if units = 0 then stop else min stop ((x.dst.toNat + x.got) / 32 * 32 + 32 * units - x.dst.toNat)
  let hi := max x.got part
  let d := (x.dst + BitVec.ofNat 64 x.got, hi - x.got)
  let r := itemSource m x x.got hi
  if !(pagesKnown s n p x.dst want && (m.t == 3 || pagesKnown s n p x.src x.n)) then none
  else if !(engineFree s m.cid p d.1 d.2 && (m.t == 3 || engineFree s m.cid p r.1 r.2)) then none
  else
    let bytes := itemBytes s m x x.got hi
    let e := e.lay (.cmd m.uid) (writeBytes s n p d.1 bytes.1)
    let e := e.touching m ([d] ++ (if m.t = 3 then [] else [r]))
    if hi < stop then some (e.cmd m.uid (fun c => { c with cnt := c.cnt + bytes.2 }), 
      some { x with got := hi, buf := x.keep s m (cvNeed m.cv hi) })
    else
      some (e.cmd m.uid (fun c =>
        { c with
          left := c.left - 1, cnt := c.cnt + bytes.2, reason := if (itemStop s m x).2 then rsLink else c.reason
          res := c.res ++ [{ k := x.k, row := x.row, dst := x.dst, want := want, done := hi, page := hi < want }] }), none)

/-- An engine serves the item at the head of its queue: an item starts in its turn, and not once its launch has ended (R327,
R357). -/
def State.serveItem (s : State) (g : Nat) : Host.Outcome State Fault Refusal :=
  match engGet s.engines g with
  | [] => stutter s
  | x :: r =>
    let queue (l : List Item) (e : Eff) : Eff := e.on (fun s => { s with engines := engSet s.engines g l })
    match s.cmd x.uid with
    | none => done s (queue r (Eff.start s))
    | some m =>
      if x.got = 0 ∧ (!s.mayStart x || (s.launch.clearing && !isCsc m.cid)) then stutter s
      else
        match (Eff.start s).item m x s.act.num with
        | none => stutter s
        | some (e, rest) => done s ((queue (rest.toList ++ r) e).copyOver x.uid)

/-- COPY_ITEM (R250): engine `eng` serves the item at the head of its queue, `num` sectors of it where that is not 0; or,
where the step picks one, a sector in flight of the command `num` performs (R240). -/
def execCopyItem (s : State) : Host.Outcome State Fault Refusal :=
  match s.act.pick with
  | some j => s.landOne (.cmd s.act.num) j
  | none => s.serveItem s.act.eng.val

/-- The items of an engine's queue that have not begun; the one that performs is at its head. -/
def waiting (q : List Item) : List Item := q.filter (fun x => x.got == 0)

/-- GONDOLA_STEAL (R250): engine `eng`, whose queue is empty, takes the oldest half of the items of the nearest engine
that holds any. -/
def execGondolaSteal (s : State) : Host.Outcome State Fault Refusal :=
  let g := s.act.eng.val
  if !(engGet s.engines g).isEmpty then stutter s
  else
    match (List.range 127).find? (fun i => !(waiting (engGet s.engines ((g + i + 1) % 128))).isEmpty) with
    | some i =>
      let v := (g + i + 1) % 128
      let q := engGet s.engines v
      let h := ((waiting q).length + 1) / 2
      done s ((Eff.start s).on (fun s =>
        { s with engines := engSet (engSet s.engines v (q.filter (fun x => x.got != 0) ++ (waiting q).drop h)) g ((waiting q).take h) }))
    | none => stutter s

/-! ### CPST (R254) -/

/-- Whether every class Y command of the context with a lower transfer ID has completed (R253). -/
def State.lowerDone (s : State) (m : Cmd) : Bool :=
  s.cmds.all (fun c => !(c.cid == m.cid && c.bus == 10 && c.seq < m.seq) || (c.t == 6 && c.st == .accepted))

/-- CPST_PERFORM (R254): the CPST `num` stores or adds its value. -/
def execCpstPerform (s : State) : Host.Outcome State Fault Refusal :=
  match s.cmd s.act.num with
  | some m =>
    let p := s.pasidOf m
    if !(m.bus == 10 && m.t == 4 && m.st == .started && s.lowerDone m && engineFree s m.cid p m.b 8) then stutter s
    else
      let e := (Eff.start s).touching m [(m.b, 8)]
      match accessKey s m.cid.core p m.b true with
      | .ok k =>
        let x := if m.o2.getLsbD 0 then s.mem.word k + m.o1 else m.o1
        done s ((e.put (wrNat k 8 x.toNat)).fin m.uid codeDone 0 0 m.idNat)
      | .absent => done s (e.fin m.uid codePartial rsPage 0 m.idNat)
      | .noPort => done s (e.fail m rsLink m.idNat)
      | .wait => stutter s
  | none => stutter s

/-! ### Atomics at the home (R242, R257 to R261) -/

/-- A translated address of device memory before any forwarding. -/
def rawKey (s : State) (m : Cmd) : Option Nat :=
  match findPage s (clusterOf m.cid.core) (s.pasidOf m) m.b.toNat with
  | some g =>
    let a := g.pa + (m.b.toNat - g.va)
    if a < 2 ^ 40 then some a
    else if a / 2 ^ 48 % 256 = s.devnum.toNat then some (a % 2 ^ 40)
    else none
  | none => none

/-- The migration under whose new home a key lies, on a line whose end marker has not arrived (R261). -/
def State.awaitsMarker (s : State) (k : Nat) : Bool :=
  s.migrs.any (fun g => g.new ≤ k && k < g.new + 4096 && !(g.ended.any (fun l => l.val == (k - g.new) / 128)))

/-- Whether an atomic of the same context to the same sector, triggered earlier, has not been accepted (R242). -/
def State.behindAtomic (s : State) (m : Cmd) : Bool :=
  s.cmds.any (fun c => c.cid == m.cid && c.bus == 10 && (c.t == 5 || c.t == 6) && c.seq < m.seq &&
    c.st == .started && (c.b == m.b ||
      accessKey s c.cid.core (s.pasidOf c) c.b true == accessKey s m.cid.core (s.pasidOf m) m.b true))

/-- An ATOMNR leaves its context's account (R62, R253). -/
def Ctx.nrOver (c : Ctx) (m : Cmd) : Ctx := ({ c with cp := c.cp - 1 } : Ctx).transferDone m.id

/-- ATOMIC_ACCEPT (R242, R258): the atomic `num` is accepted at its home, or rejected there. `bits` notes one that came
under the new translation of a page that migrates; `prog` the order of acceptance; `left` the way in which the home keeps the
line meanwhile (R210). It waits while an invalidation that its context has acknowledged names its sector (R340). -/
def execAtomicAccept (s : State) : Host.Outcome State Fault Refusal :=
  match s.cmd s.act.num with
  | some m =>
    let e := Eff.start s
    if !(m.bus == 10 && (m.t == 5 || m.t == 6) && m.st == .started) || s.behindAtomic m || s.turned m.cid m.b 32 then stutter s
    else
      match accessKey s m.cid.core (s.pasidOf m) m.b true with
      | .ok k =>
        let late := match rawKey s m with | some r => r == k && s.awaitsMarker k | none => false
        let e := e.on (fun s => { s with nextUid := s.nextUid + 1 })
        let e := e.cmd m.uid (fun c =>
          { c with st := .accepted, key := k, prog := s.nextUid, left := s.wayFor k s.nextUid, bits := late.toNat })
        done s (if m.t = 6 then e.ctx m.cid (fun c => c.nrOver m) else e)
      | .wait => stutter s
      | x =>
        if m.t = 6 then
          done s ((e.ctx m.cid (fun c => (c.nrOver m).addDue causeUnprobed m.b)).on (fun s => s.dropCmd m.uid))
        else if x = .noPort then done s (e.fail m rsLink m.idNat)
        else done s (e.fin m.uid codePartial rsPage 0 m.idNat)
  | none => stutter s

/-- Whether an accepted atomic may perform: no atomic accepted before it on its sector is left, and the end marker of a
migrating line has come (R242, R261). -/
def mayPerform (s : State) (m : Cmd) : Bool :=
  m.bus == 10 && m.st == .accepted &&
  s.cmds.all (fun c => !(c.st == .accepted && c.key / 32 == m.key / 32 && c.prog < m.prog)) &&
  !(m.bits == 1 && s.awaitsMarker m.key)

/-- An accepted atomic performs on its sector, indivisibly (R257). -/
def Eff.atomic (e : Eff) (m : Cmd) : Eff :=
  let old := e.st.mem.bytes m.key 32
  let (new, cnt) := atomSector m.o2 old m.opnd
  let e := e.put (wrBytes m.key new)
  if m.t = 6 then e.on (fun s => s.dropCmd m.uid)
  else (e.fin m.uid codeDone 0 cnt m.idNat).cmd m.uid (fun c => { c with opnd := old })

/-- ATOMIC_PERFORM (R257): the accepted atomic `num`, not of the .NEAR form, performs at its home slice. -/
def execAtomicPerform (s : State) : Host.Outcome State Fault Refusal :=
  match s.cmd s.act.num with
  | some m => if mayPerform s m && !atNear m.o2 then done s ((Eff.start s).atomic m) else stutter s
  | none => stutter s

/-- NEAR_ATOMIC_PERFORM (R259): the accepted atomic `num` of the .NEAR form performs at the stack's memory-side unit. -/
def execNearAtomicPerform (s : State) : Host.Outcome State Fault Refusal :=
  match s.cmd s.act.num with
  | some m => if mayPerform s m && atNear m.o2 then done s ((Eff.start s).atomic m) else stutter s
  | none => stutter s

end Sys2Proof.Machine
end

