-- ==== Sys2Proof/Machine/Index.lean ====
section
/-! DEFINITION. Class G, gathers and scatters: the descriptor, batches, parking and the replay of parked elements
(spec/16_copy_index.md R262 to R269). -/

namespace Sys2Proof.Machine

/-! ### The captured policy (R262) -/

/-- BOUND. -/
def Cmd.bound (m : Cmd) : Nat := field m.ixpol 0 32
/-- PPOL; 3 acts as 0. -/
def Cmd.ppol (m : Cmd) : Nat := match field m.ixpol 34 2 with | 1 => 1 | 2 => 2 | _ => 0
/-- APOL; 1 and 3 act as 0. -/
def Cmd.apol (m : Cmd) : Nat := if field m.ixpol 36 2 = 2 then 2 else 0
/-- BPOL; 3 acts as 0. -/
def Cmd.bpol (m : Cmd) : Nat := match field m.ixpol 38 2 with | 1 => 1 | 2 => 2 | _ => 0

/-- Reason bits of a PARKED status (R263): BOUND. -/
def rsBound : Nat := 1
/-- ALIGN. -/
def rsAlign : Nat := 2
/-- PAGE. -/
def rsGPage : Nat := 4

/-! ### The descriptor (R264) -/

/-- Word `i` of a command's descriptor. -/
def Cmd.dw (m : Cmd) (i : Nat) : Word := m.desc.getD i 0
/-- TSTRIDE. -/
def Cmd.gTstride (m : Cmd) : Nat := field (m.dw 1) 0 32
/-- ROWB. -/
def Cmd.gRowb (m : Cmd) : Nat := field (m.dw 1) 32 21
/-- SWZ. -/
def Cmd.gSwz (m : Cmd) : Nat := field (m.dw 1) 53 3
/-- The bytes of an index. -/
def Cmd.gIw (m : Cmd) : Nat := if (m.dw 1).getLsbD 56 then 2 else 4
/-- NIDX. -/
def Cmd.gNidx (m : Cmd) : Nat := field (m.dw 3) 0 24
/-- DSTRIDE. -/
def Cmd.gDstride (m : Cmd) : Nat := field (m.dw 5) 0 32
/-- The bytes of the miss bitmap. -/
def Cmd.gMissLen (m : Cmd) : Nat := if m.dw 6 = 0 then 0 else (m.gNidx + 7) / 8
/-- The bytes of the progress counter. -/
def Cmd.gCntLen (m : Cmd) : Nat := if m.dw 7 = 0 then 0 else 8
/-- The bytes from the first local row to the end of the last. -/
def Cmd.gSpan (m : Cmd) : Nat := (m.gNidx - 1) * m.gDstride + m.gRowb

/-- Whether an address is chip scratchpad or canonical global. -/
def tableReach (a : Word) : Bool := match classify a with | .chip _ => true | .glob _ => true | _ => false

/-- Whether a field of the descriptor is outside its limits: OPND. -/
def Cmd.gBadOpnd (m : Cmd) : Bool :=
  5 < m.gSwz || m.gRowb % 4 != 0 || m.gRowb < 4 || 2 ^ 20 < m.gRowb || (m.gSwz != 0 && m.gRowb % (32 * 2 ^ m.gSwz) != 0) ||
  (m.dw 2).toNat % m.gIw != 0 || m.gNidx == 0 || (m.dw 4).toNat % 4 != 0 || m.gDstride % 4 != 0 ||
  (m.gSwz != 0 && m.gDstride % 32 != 0) || (m.dw 7).toNat % 8 != 0

/-- Whether an address is out of reach or an extent leaves its window class: ADDR. -/
def Cmd.gBadAddr (m : Cmd) : Bool :=
  let n := m.cid.core
  !tableReach (m.dw 0) || !nearAddr n (m.dw 2) (m.gNidx * m.gIw) || !extentIn n (m.dw 4) m.gSpan ||
  (m.dw 6 != 0 && !nearAddr n (m.dw 6) m.gMissLen) || (m.dw 7 != 0 && !extentIn n (m.dw 7) 8)

/-- The structure addresses of the descriptor (R97). -/
def Cmd.gExtents (m : Cmd) : List (Word × Nat) :=
  [(m.dw 2, m.gNidx * m.gIw), (m.dw 4, m.gSpan), (m.dw 6, m.gMissLen), (m.dw 7, m.gCntLen)]

/-- A GATHR or SCATR starts: it reads its descriptor and checks it (R264); none while it has to wait. -/
def Eff.startGather (e : Eff) (m : Cmd) : Option Eff :=
  match readDesc e.st m m.b 64 8 with
  | .wait => none
  | .bad => some (e.fail m rsAddr 0)
  | .ok w =>
    let m := { m with desc := w }
    let e := e.touching m [(m.b, 64)]
    if m.gBadOpnd then some (e.fail m rsOpnd m.gNidx)
    else if m.gBadAddr then some (e.fail m rsAddr m.gNidx)
    else if !pagesKnown e.st m.cid.core (e.st.pasidOf m) (m.dw 7) m.gCntLen then none
    else if unlinked e.st m.cid.core (e.st.pasidOf m) (m.dw 7) m.gCntLen true then some (e.fail m rsLink m.gNidx)
    else
      let e := e.cmd m.uid (fun c => { c with desc := w, st := .started })
      some ((e.grants m m.gExtents).cmd m.uid (fun c =>
        { c with touch := (touched m.cid.core m.b 64).filter (fun g => !c.gran.contains g) }))

/-! ### Elements (R265) -/

/-- The address of element `k`'s local row. -/
def Cmd.gLocal (m : Cmd) (el : Nat) : Word := m.dw 4 + BitVec.ofNat 64 (el * m.gDstride)

/-- The 32-byte pieces of a row: the offset in the table row, the offset in the local row, the bytes (R264 Loc). -/
def Cmd.gPieces (m : Cmd) (el : Nat) : List (Nat × Nat × Nat) :=
  (List.range ((m.gRowb + 31) / 32)).map (fun j =>
    (32 * j, 32 * (j ^^^ (el % 2 ^ m.gSwz)), min 32 (m.gRowb - 32 * j)))

/-- What becomes of an element: it is performed, parks, ends its command with LINK, or waits for the host's reply. -/
inductive Fate where
  | go (row : Word)
  | park (reason : Nat) (page : Nat) (write : Bool)
  | link
  | wait

/-- Whether two addresses are of one window class. -/
def sameClass (a b : Word) : Bool :=
  match classify a, classify b with
  | .chip _, .chip _ => true
  | .glob _, .glob _ => true
  | _, _ => false

/-- The fate of element `el` with index `i` (R265); it waits while an invalidation that its context has acknowledged names one
of its rows (R340). -/
def Cmd.fate (m : Cmd) (s : State) (el i : Nat) : Fate :=
  let n := m.cid.core
  let p := s.pasidOf m
  let scat := m.t == 1
  if m.bound ≠ 0 ∧ m.bound ≤ i then .park rsBound 0 false
  else
    let a := m.dw 0 + BitVec.ofNat 64 (i * m.gTstride)
    if a.toNat % 4 ≠ 0 then .park rsAlign 0 false
    else if !(sameClass (m.dw 0) a && extentOk a m.gRowb) then .park rsBound 0 false
    else if s.turned m.cid a m.gRowb || s.turned m.cid (m.gLocal el) m.gRowb then .wait
    else
      match firstBad s n p a m.gRowb scat with
      | some (_, .noPort) => .link
      | some (_, .wait) => .wait
      | some (x, _) => .park rsGPage (x.toNat / 4096 * 4096) scat
      | none =>
        match firstBad s n p (m.gLocal el) m.gRowb (!scat) with
        | some (_, .noPort) => .link
        | some (_, .wait) => .wait
        | some (x, _) => .park rsGPage (x.toNat / 4096 * 4096) (!scat)
        | none => .go a

/-- Whether the rows of an element may be reached now: the granules of its local row, and of the table row that a SCATR
writes, are the engines' (R97). A GATHR reads its table rows in chip scratchpad whatever the state of their granules (R364,
log entry 71). -/
def Cmd.rowsFree (m : Cmd) (s : State) (el : Nat) (a : Word) : Bool :=
  (if m.t = 0 then !backedAt s m.cid.core a m.gRowb && extentQuiet s m.cid (s.pasidOf m) a m.gRowb
   else engineFree s m.cid (s.pasidOf m) a m.gRowb) &&
    engineFree s m.cid (s.pasidOf m) (m.gLocal el) m.gRowb

/-- The bytes of `n` addresses from `a` that are copied to those from `b`, by their keys. -/
def keyPairs (s : State) (c : Fin 4112) (pasid : BitVec 20) (a b : Word) (n : Nat) : List (Nat × Nat) :=
  (List.range n).filterMap (fun i =>
    match accessKey s c pasid (a + BitVec.ofNat 64 i) false, accessKey s c pasid (b + BitVec.ofNat 64 i) true with
    | .ok k, .ok j => some (k, j)
    | _, _ => none)

/-- An element is performed (R265), sector by sector of the table row and of the local row (R267). -/
def Eff.element (e : Eff) (m : Cmd) (el : Nat) (a : Word) : Eff :=
  let n := m.cid.core
  let p := e.st.pasidOf m
  let l := m.gLocal el
  let ps := (m.gPieces el).map (fun x =>
    let t := a + BitVec.ofNat 64 x.1
    let d := l + BitVec.ofNat 64 x.2.1
    if m.t = 1 then keyPairs e.st n p d t x.2.2 else keyPairs e.st n p t d x.2.2)
  (e.layCopy (.cmd m.uid) el ps).touching m [(a, m.gRowb), (l, m.gRowb)]

/-! ### The fault queue (R266) -/

/-- The entries of a cluster's fault queue that firmware has not taken. -/
def State.fqLen (s : State) (c : Fin 16) : Nat := ((s.clu c).fq.filter (fun f => !f.taken)).length

/-- An entry placed in a cluster's fault queue. -/
def State.park (s : State) (c : Fin 16) (f : FqEnt) : State := s.modClu c (fun k => { k with fq := k.fq ++ [f] })

/-- An element parks. -/
def Eff.parkElem (e : Eff) (m : Cmd) (el ix reason : Nat) : Eff :=
  (e.on (fun s => s.park (clusterOf m.cid.core) { uid := m.uid, elem := el, ix := ix, reason := reason, asked := none, taken := false })).cmd
    m.uid (fun c => { c with parked := c.parked + 1, left := c.left + 1, reason := c.reason ||| reason })

/-! ### Batches (R265) -/

/-- The elements of the next batch with their indices. -/
def Cmd.batch (m : Cmd) (s : State) : List (Nat × Nat) :=
  let n := min 8 (m.gNidx - m.prog)
  let a := m.dw 2 + BitVec.ofNat 64 (m.prog * m.gIw)
  let bs := readBytes s m.cid.core (s.pasidOf m) a (n * m.gIw)
  (List.range n).map (fun j => (m.prog + j, leNat ((bs.drop (j * m.gIw)).take m.gIw)))

/-- An element of a batch is performed, or parks. -/
def Eff.batchElem (e : Eff) (m : Cmd) (x : Nat × Nat) : Eff :=
  match m.fate e.st x.1 x.2 with
  | .go a => e.element m x.1 a
  | .park r _ _ => e.parkElem m x.1 x.2 r
  | .link => e.cmd m.uid (fun c => { c with bits := 1 })
  | .wait => e

/-- The batches of a command that have been taken; `cnt` tells for how many of them the progress counter has been raised. -/
def Cmd.taken (m : Cmd) : Nat := (m.prog + 7) / 8

/-- Every element of the batches that the command `uid` has taken has performed, and the progress counter is raised for each,
where its page is present (R265); where no port reaches it, the command ends with LINK (R374). -/
def Eff.progress (e : Eff) (uid : Nat) : Eff :=
  match e.st.cmd uid with
  | none => e
  | some m =>
    let e := (e.landFlights (.cmd uid)).cmd uid (fun c => { c with cnt := m.taken })
    if m.dw 7 = 0 ∨ m.taken ≤ m.cnt then e
    else
      match accessKey e.st m.cid.core (e.st.pasidOf m) (m.dw 7) true with
      | .ok k => (e.put (wrNat k 8 (e.st.mem.word k + BitVec.ofNat 64 (m.taken - m.cnt)).toNat)).touching m [(m.dw 7, 8)]
      | .noPort => e.cmd uid (fun c => { c with bits := 1 })
      | _ => e

/-- Whether the progress counter may be raised now. -/
def Cmd.countFree (m : Cmd) (s : State) : Bool := engineFree s m.cid (s.pasidOf m) (m.dw 7) m.gCntLen

/-- The next batch of a command; none while it has to wait for granules, for the host's reply, or for room in the fault queue.
Where its rows perform later, its place in the counter is left, and up to four batches are in flight (R265). -/
def Eff.nextBatch (e : Eff) (m : Cmd) : Option Eff :=
  let s := e.st
  let n := m.cid.core
  let p := s.pasidOf m
  let ia := m.dw 2 + BitVec.ofNat 64 (m.prog * m.gIw)
  let il := min 8 (m.gNidx - m.prog) * m.gIw
  if !engineFree s m.cid p ia il || !m.countFree s || 4096 ≤ s.fqLen (clusterOf n) || m.cnt + 4 ≤ m.taken then none
  else
    let b := m.batch s
    let fates := b.map (fun x => (x.1, m.fate s x.1 x.2))
    let parks := (fates.filter (fun f => match f.2 with | .park _ _ _ => true | _ => false)).length
    let free := fates.all (fun f => match f.2 with | .go a => m.rowsFree s f.1 a | .wait => false | _ => true)
    if !free || 4096 < s.fqLen (clusterOf n) + parks then none
    else
      let e := e.touching m [(ia, il)]
      let e := (b.foldl (fun e x => e.batchElem m x) e).cmd m.uid (fun c => { c with prog := c.prog + b.length })
      some (if s.act.later then e else e.progress m.uid)

/-- The bytes of the miss bitmap (R267). -/
def Cmd.missBytes (m : Cmd) : List Byte :=
  (List.range m.gMissLen).map (fun j =>
    BitVec.ofNat 8 (packLanes 1 ((List.range 8).map (fun b => (m.miss.contains (8 * j + b)).toNat))))

/-- A command whose elements have all been performed or replayed writes its miss bitmap and ends (R267); none while the
bitmap's granules are held back. -/
def Eff.endGather (e : Eff) (m : Cmd) : Option Eff :=
  let p := e.st.pasidOf m
  if !engineFree e.st m.cid p (m.dw 6) m.gMissLen then none
  else
    let e := (e.lay (.cmd m.uid) (writeBytes e.st m.cid.core p (m.dw 6) m.missBytes)).touching m [(m.dw 6, m.gMissLen)]
    some (if m.bits = 1 then e.fail m rsLink m.gNidx
      else if m.parked = 0 then e.fin m.uid codeDone 0 0 m.gNidx
      else e.fin m.uid codeParked m.reason m.parked m.gNidx)

/-- FQCNT (R269). -/
def Eff.fqcnt (e : Eff) (m : Cmd) : Eff :=
  let s := e.st
  let q := (s.clu (clusterOf m.cid.core)).fq.filter (fun f => !f.taken)
  let mine := q.filter (fun f => s.cmds.any (fun c => c.uid == f.uid && c.cid == m.cid))
  e.fin m.uid codeDone 0 mine.length q.length

/-- A started gather or scatter goes on: its next batch, the counter for batches whose rows have been performing, or its
end; none while it has to wait. -/
def Eff.gather (e : Eff) (m : Cmd) : Option Eff :=
  if m.cnt < m.taken ∧ (e.st.act.flag ∨ m.gNidx ≤ m.prog) then if m.countFree e.st then some (e.progress m.uid) else none
  else if m.prog < m.gNidx then e.nextBatch m
  else if m.left = 0 then e.endGather m
  else none

/-- INDEX_BATCH (R265): the gather, scatter or count `num` starts, performs its next batch, or ends; where `flag` is set, it
raises its counter for the batches it has taken; and where the step picks one, a sector in flight of it performs, or, with
`flag`, has the sectors read that it copies (R267). -/
def execIndexBatch (s : State) : Host.Outcome State Fault Refusal :=
  match s.cmd s.act.num with
  | some m =>
    let e := Eff.start s
    if m.bus = 11 ∧ m.t = 5 ∧ m.st = .queued then done s (e.fqcnt m)
    else if !(m.bus == 11 && m.t < 2) then stutter s
    else
      match s.act.pick with
      | some j => if s.act.flag then done s (e.readFlight (.cmd m.uid) j) else s.landOne (.cmd m.uid) j
      | none =>
      match m.st with
      | .queued =>
        if !storesDone (s.ctx m.cid) m.seq then stutter s
        else
          match e.startGather m with
          | some e => done s e
          | none => stutter s
      | .started =>
        match e.gather m with
        | some e => done s e
        | none => stutter s
      | _ => stutter s
  | none => stutter s

/-! ### Replay (R266) -/

/-- An element is resolved as ZERO, or as TRAP where `trap`; none while its row is held back. -/
def Eff.zeroElem (e : Eff) (m : Cmd) (el : Nat) (trap : Bool) : Option Eff :=
  let p := e.st.pasidOf m
  let l := m.gLocal el
  if m.t = 0 ∧ !engineFree e.st m.cid p l m.gRowb then none
  else
    let e := if m.t = 0 then
        ((e.landFlights (.cmd m.uid)).lay (.cmd m.uid) (writeBytes e.st m.cid.core p l (List.replicate m.gRowb 0))).touching
          m [(l, m.gRowb)]
      else e
    some (e.cmd m.uid (fun c =>
      { c with left := c.left - 1, miss := c.miss ++ [el]
               trapAt := if trap then some (min el (c.trapAt.getD el)) else c.trapAt }))

/-- An element is performed at its replay, after those that were not parked (R268); none while its rows are held back. -/
def Eff.redo (e : Eff) (m : Cmd) (el : Nat) (a : Word) : Option Eff :=
  if m.rowsFree e.st el a then some (((e.landFlights (.cmd m.uid)).element m el a).cmd m.uid (fun c => { c with left := c.left - 1 })) else none

/-- An element finds at its replay that a peer is not reached (R374). -/
def Eff.lost (e : Eff) (m : Cmd) : Eff := e.cmd m.uid (fun c => { c with left := c.left - 1, bits := 1 })

/-- The entry leaves its queue. -/
def Eff.unpark (e : Eff) (c : Fin 16) (f : FqEnt) : Eff :=
  e.on (fun s => s.modClu c (fun k => { k with fq := k.fq.erase f }))

/-- The entry asks the host for a page, if a request can go out. -/
def Eff.askFor (e : Eff) (c : Fin 16) (f : FqEnt) (pasid : BitVec 20) (page : Nat) (write : Bool) : Eff :=
  let (s, u) := e.st.askPage pasid page write
  ({ e with st := s } : Eff).on (fun s => s.modClu c (fun k =>
    { k with fq := k.fq.map (fun x => if x = f then { f with asked := u } else x) }))

/-- The answer to an entry's request has been used. -/
def Eff.answered (e : Eff) (f : FqEnt) : Eff :=
  e.on (fun s => { s with pri := s.pri.filter (fun r => some r.uid != f.asked) })

/-- The replay of a PAGE element that is to be served (R266 Service). -/
def Eff.service (e : Eff) (c : Fin 16) (f : FqEnt) (m : Cmd) : Option Eff :=
  let s := e.st
  match m.fate s f.elem f.ix with
  | .go a => ((e.answered f).unpark c f).redo m f.elem a
  | .link => some (((e.answered f).unpark c f).lost m)
  | .wait => none
  | .park r page write =>
    if r ≠ rsGPage then ((e.answered f).unpark c f).zeroElem m f.elem (m.ppol == 2)
    else
      match f.asked.bind s.priCode with
      | some .success | none => some ((e.answered f).askFor c f (s.pasidOf m) page write)
      | some _ => ((e.answered f).unpark c f).zeroElem m f.elem (m.ppol == 2)

/-- The replay of an element under its captured policy (R266); none while its rows are held back. -/
def Eff.replayElem (e : Eff) (c : Fin 16) (f : FqEnt) (m : Cmd) : Option Eff :=
  if f.reason = rsBound then
    if m.bpol = 1 ∧ m.bound ≠ 0 then
      match m.fate e.st f.elem (m.bound - 1) with
      | .go a => (e.unpark c f).redo m f.elem a
      | .link => some ((e.unpark c f).lost m)
      | .wait => none
      | .park _ _ _ => (e.unpark c f).zeroElem m f.elem false
    else (e.unpark c f).zeroElem m f.elem (m.bpol == 2)
  else if f.reason = rsAlign then (e.unpark c f).zeroElem m f.elem (m.apol == 2)
  else if m.ppol = 1 then (e.unpark c f).zeroElem m f.elem false
  else e.service c f m

/-! ### The operations and the bundles whose one move triggers them -/

/-- GATHR (R263). -/
def opGathr : Op :=
  cmdOp 11 0 (fun i => [(i.b.word, 64)]) (fun _ m => m) (fun _ => false)

/-- The bundle whose one move triggers GATHR. -/
def execGathr (g : Guard) (src : Src) (s : State) : Host.Outcome State Fault Refusal :=
  issueOne g src opGathr s

/-- SCATR (R263). -/
def opScatr : Op :=
  cmdOp 11 1 (fun i => [(i.b.word, 64)]) (fun _ m => m) (fun _ => false)

/-- The bundle whose one move triggers SCATR. -/
def execScatr (g : Guard) (src : Src) (s : State) : Host.Outcome State Fault Refusal :=
  issueOne g src opScatr s

/-- FQCNT (R269). -/
def opFqcnt : Op :=
  cmdOp 11 5 (fun _ => []) (fun _ m => m) (fun _ => false)

/-- The bundle whose one move triggers FQCNT. -/
def execFqcnt (g : Guard) (src : Src) (s : State) : Host.Outcome State Fault Refusal :=
  issueOne g src opFqcnt s

end Sys2Proof.Machine
end

