-- ==== Sys2Proof/Machine/Bins.lean ====
section
/-! DEFINITION. Class G, bins: placing records, the staging lines, flushing and playing (spec/16_copy_index.md R270 to
R273). -/

namespace Sys2Proof.Machine

/-! ### The descriptor (R270) -/

/-- SHIFT. -/
def Cmd.bShift (m : Cmd) : Nat := field (m.dw 1) 40 6
/-- NBLOG. -/
def Cmd.bNblog (m : Cmd) : Nat := field (m.dw 1) 32 4
/-- BCAP. -/
def Cmd.bCap (m : Cmd) : Nat := field (m.dw 1) 0 32
/-- TCNT. -/
def Cmd.bTcnt (m : Cmd) : Nat := field (m.dw 4) 32 32
/-- POP. -/
def Cmd.bPop (m : Cmd) : Nat := field (m.dw 4) 0 2
/-- The bytes of all the bins. -/
def Cmd.bBytes (m : Cmd) : Nat := 8 * m.bCap * 2 ^ m.bNblog
/-- The bin of a key. -/
def Cmd.bBin (m : Cmd) (key : Nat) : Nat := key / 2 ^ m.bShift % 2 ^ m.bNblog
/-- The address of record `k` of bin `j`. -/
def Cmd.bSlot (m : Cmd) (j k : Nat) : Word := m.dw 0 + BitVec.ofNat 64 ((j * m.bCap + k) * 8)
/-- The address of a bin's count. -/
def Cmd.bCount (m : Cmd) (j : Nat) : Word := m.dw 2 + BitVec.ofNat 64 (8 * j)

/-- OPND. -/
def Cmd.bBadOpnd (m : Cmd) : Bool :=
  31 < m.bShift || 8 < m.bNblog || m.bCap == 0 || m.bCap % 16 != 0 || m.bPop == 3 || (m.t == 2 && m.o1.toNat % 8 != 0)

/-- N of a BINPUT. -/
def Cmd.bN (m : Cmd) : Nat := field m.o2 0 24

/-- ADDR: bin storage, count table and play target, as far as the bins and elements reach, and the list of a BINPUT. -/
def Cmd.bBadAddr (m : Cmd) : Bool :=
  !(tableReach (m.dw 0) && (m.dw 0).toNat % 128 == 0 && extentOk (m.dw 0) m.bBytes) ||
  !(tableReach (m.dw 2) && (m.dw 2).toNat % 8 == 0 && extentOk (m.dw 2) (8 * 2 ^ m.bNblog)) ||
  !(tableReach (m.dw 3) && (m.dw 3).toNat % 4 == 0 && (m.bTcnt == 0 || extentOk (m.dw 3) (4 * m.bTcnt))) ||
  (m.t == 2 && m.bN != 0 && !nearAddr m.cid.core m.o1 (8 * m.bN))

/-- A bin command starts (R264, R270); none while it has to wait. -/
def Eff.startBins (e : Eff) (m : Cmd) : Option Eff :=
  match readDesc e.st m m.b 64 8 with
  | .wait => none
  | .bad => some (e.fail m rsAddr 0)
  | .ok w =>
    let m := { m with desc := w }
    let e := e.touching m [(m.b, 64)]
    if m.bBadOpnd then some (e.fail m rsOpnd 0)
    else if m.bBadAddr then some (e.fail m rsAddr 0)
    else some (e.cmd m.uid (fun c => { c with desc := w, st := .started }))

/-- The codes and reasons that a status word of class G may hold, LINK apart (R76, R263, R271). -/
def binEnds : List (Nat × Nat) :=
  [(codeDone, 0), (codeError, rsOpnd), (codeError, rsAddr), (codeExhausted, 1)] ++ (List.range 7).map (fun r => (codeParked, r + 1))

/-- The id of a bin command (R263): records placed, lines written or records played. -/
def Cmd.bId (m : Cmd) : Nat := if m.t = 4 then m.left else m.prog

/-- A bin command meets a page that is not present or forbids the access, or a peer that no port reaches: LINK for the
peer (R374); for the page the spec states neither code nor count, which are then free, within what R76 lets be written (log
entry 26). -/
def Eff.binStop (e : Eff) (m : Cmd) (x : Xl) : Eff :=
  if x = .noPort then e.fail m rsLink 0
  else
    let w := e.st.freeWord.toNat
    let r := binEnds.getD (w % 11) (codeDone, 0)
    (e.on (fun s => { s with tick := s.tick + 1 })).fin m.uid r.1 r.2 (w / 2 ^ 8 % 2 ^ 24) m.bId

/-! ### Staging lines (R271) -/

/-- Whether a staging line's block may be written now. -/
def StgLine.free (l : StgLine) (s : State) : Bool := engineFree s l.cid (s.ctx l.cid).pasid l.block 128

/-- The bytes that a staging line writes: those of its staged records. -/
def StgLine.writes (l : StgLine) (s : State) : List Wr :=
  l.recs.flatMap (fun r =>
    writeBytes s l.cid.core (s.ctx l.cid).pasid (l.block + BitVec.ofNat 64 (8 * r.1)) (leBytes 8 r.2.toNat))

/-- Where a staging line goes. -/
def StgLine.home (l : StgLine) (s : State) : Xl := accessKey s l.cid.core (s.ctx l.cid).pasid l.block true

/-- A staging line is written and leaves its place, by a command that lets it; the command ends where the line's home does not
take it, and waits (none) for granules and for the host's reply. -/
def Eff.stage (e : Eff) (m : Cmd) (l : StgLine) (go : Eff → Eff) : Option Eff :=
  match l.home e.st with
  | .ok _ =>
    if l.free e.st then
      let e := (e.lay (.cmd m.uid) (l.writes e.st)).on (fun s => s.modClu (clusterOf m.cid.core) (fun k =>
        { k with stg := k.stg.filter (fun y => y.block != l.block) }))
      some ((go e).touching m [(l.block, 128)])
    else none
  | .wait => none
  | x => some (e.binStop m x)

/-- A record staged at an address by a command: its block's line takes it, and is written once it is full; a new line may need
the place of the oldest. -/
def Eff.record (e : Eff) (m : Cmd) (a x : Word) (go : Eff → Eff) : Option Eff :=
  let c := clusterOf m.cid.core
  let block := a &&& ~~~127
  let slot := a.toNat % 128 / 8
  let stg := (e.st.clu c).stg
  match stg.find? (fun l => l.block == block) with
  | some l =>
    let l' := { l with recs := l.recs.filter (fun r => r.1 != slot) ++ [(slot, x)] }
    if l'.recs.length = 16 then e.stage m l' go
    else some (go (e.on (fun s => s.modClu c (fun k => { k with stg := k.stg.map (fun y => if y.block = block then l' else y) }))))
  | none =>
    let add (e : Eff) : Eff := e.on (fun s => s.modClu c (fun k =>
      { k with stg := k.stg ++ [{ block := block, cid := m.cid, recs := [(slot, x)] }] }))
    if stg.length < 256 then some (go (add e))
    else
      match stg with
      | old :: _ => e.stage m old (fun e => go (add e))
      | [] => some (go (add e))

/-! ### BINPUT and BINFLUSH (R271, R272) -/

/-- The next record of a BINPUT is placed: its bin's count is raised, and it is staged at its slot (R271). Or the command ends:
its list is at its end, the bin is full, or a page or peer is not reached. None while it has to wait. -/
def Eff.place (e : Eff) (m : Cmd) : Option Eff :=
  let s := e.st
  let n := m.cid.core
  let p := s.pasidOf m
  if m.bN ≤ m.prog then some (e.fin m.uid codeDone 0 0 m.prog)
  else
    let ra := m.o1 + BitVec.ofNat 64 (8 * m.prog)
    if !engineFree s m.cid p ra 8 then none
    else
      let r := (readWords s n p ra 1).headD 0
      let j := m.bBin (r.toNat % 2 ^ 32)
      if !engineFree s m.cid p (m.bCount j) 8 then none
      else
        match accessKey s n p (m.bCount j) true with
        | .ok k =>
          let h := (s.mem.word k).toNat
          if m.bCap ≤ h then some (e.fin m.uid codeExhausted 1 m.prog m.prog)
          else
            match accessKey s n p (m.bSlot j h) true with
            | .ok _ =>
              e.record m (m.bSlot j h) r (fun e =>
                ((e.put (wrNat k 8 (h + 1))).touching m [(ra, 8), (m.bCount j, 8)]).cmd m.uid (fun c => { c with prog := c.prog + 1 }))
            | .wait => none
            | x => some (e.binStop m x)
        | x => some (e.binStop m x)

/-- The staging lines of a bin set. -/
def Cmd.lines (m : Cmd) (s : State) : List StgLine :=
  (s.clu (clusterOf m.cid.core)).stg.filter (fun l =>
    (m.dw 0).toNat ≤ l.block.toNat && l.block.toNat < (m.dw 0).toNat + m.bBytes)

/-- Whether lines that bin commands of a command's cluster have written are still in flight. -/
def Cmd.linesFly (m : Cmd) (s : State) : Bool :=
  s.cmds.any (fun c => c.uid != m.uid && c.bus == 11 && (c.t == 2 || c.t == 3) && clusterOf c.cid.core == clusterOf m.cid.core &&
    !(s.flightsOf (.cmd c.uid)).isEmpty)

/-- BINFLUSH writes the next line of its bin set, or ends; none while it has to wait: also for lines that another command
wrote before it, since the records of its set are in memory once it completes (R272). -/
def Eff.flush (e : Eff) (m : Cmd) : Option Eff :=
  match m.lines e.st with
  | [] => if m.linesFly e.st then none else some (e.fin m.uid codeDone 0 0 m.prog)
  | l :: _ => e.stage m l (fun e => e.cmd m.uid (fun c => { c with prog := c.prog + 1 }))

/-- BIN_RECORD_PLACE (R271): the BINPUT or BINFLUSH `num` starts, places its next record or writes its next line, or
ends; or, where the step picks one, a sector in flight of it performs (R240). -/
def execBinRecordPlace (s : State) : Host.Outcome State Fault Refusal :=
  match s.cmd s.act.num with
  | some m =>
    if !(m.bus == 11 && (m.t == 2 || m.t == 3)) then stutter s
    else
      match s.act.pick with
      | some j => s.landOne (.cmd m.uid) j
      | none =>
      match (match m.st with
        | .queued => if storesDone (s.ctx m.cid) m.seq then (Eff.start s).startBins m else none
        | .started => if m.t = 2 then (Eff.start s).place m else (Eff.start s).flush m
        | _ => none) with
      | some e => done s e
      | none => stutter s
  | none => stutter s

/-! ### BINPLAY (R273) -/

/-- FIRST. -/
def Cmd.bFirst (m : Cmd) : Nat := field m.o1 0 16

/-- One more than the last bin that is played: NB of 0 plays to the last bin. -/
def Cmd.bEnd (m : Cmd) : Nat :=
  let nb := field m.o1 16 16
  if nb = 0 then 2 ^ m.bNblog else min (m.bFirst + nb) (2 ^ m.bNblog)

/-- The new value of a target element. -/
def binUpdate (pop old v : Nat) : Nat :=
  match pop with
  | 0 => (roundTo .f32 ((Fmt.f32.value old).add false (Fmt.f32.value v)) .rne).pat
  | 1 => (old + v) % 2 ^ 32
  | _ => v

/-- Record `k` of bin `j` is applied, or skipped; `left` counts the records played, `cnt` those skipped. None while it has to
wait. -/
def Eff.play (e : Eff) (m : Cmd) (j k : Nat) : Option Eff :=
  let s := e.st
  let n := m.cid.core
  let p := s.pasidOf m
  let ra := m.bSlot j k
  if !engineFree s m.cid p ra 8 then none
  else
    match accessKey s n p ra false with
    | .ok rk =>
      let r := (s.mem.word rk).toNat
      let key := r % 2 ^ 32
      if m.bTcnt ≤ key then
        some ((e.touching m [(ra, 8)]).cmd m.uid (fun c => { c with cnt := c.cnt + 1, left := c.left + 1, key := c.key + 1 }))
      else
        let ta := m.dw 3 + BitVec.ofNat 64 (4 * key)
        if !engineFree s m.cid p ta 4 then none
        else
          match accessKey s n p ta true with
          | .ok tk =>
            let x := binUpdate m.bPop (s.mem.nat tk 4) (r / 2 ^ 32)
            some (((e.put (wrNat tk 4 x)).touching m [(ra, 8), (ta, 4)]).cmd m.uid (fun c =>
              { c with left := c.left + 1, key := c.key + 1 }))
          | x => some (e.binStop m x)
    | x => some (e.binStop m x)

/-- BINPLAY goes on: it reads the count of its next bin, which it is to write only where RST asks for it (`bits` tells that a
bin is open, `val2` holds its count), plays the bin's next record, or closes the bin, whose count it clears where RST asks for
it; or it ends. None while it has to wait. -/
def Eff.playOn (e : Eff) (m : Cmd) : Option Eff :=
  let s := e.st
  let n := m.cid.core
  let p := s.pasidOf m
  let j := m.bFirst + m.prog
  if m.bEnd ≤ j then some (e.fin m.uid codeDone 0 m.cnt m.left)
  else if m.bits = 1 ∧ m.key < m.val2.toNat then e.play m j m.key
  else if !engineFree s m.cid p (m.bCount j) 8 then none
  else
    match accessKey s n p (m.bCount j) (m.o1.getLsbD 32) with
    | .ok ck =>
      let e := e.touching m [(m.bCount j, 8)]
      if m.bits = 0 then some (e.cmd m.uid (fun c => { c with bits := 1, key := 0, val2 := s.mem.word ck }))
      else
        let e := if m.o1.getLsbD 32 then e.put (wrNat ck 8 0) else e
        some (e.cmd m.uid (fun c => { c with prog := c.prog + 1, bits := 0 }))
    | x => some (e.binStop m x)

/-- BIN_PLAY (R273): the BINPLAY `num` starts, goes on, or ends. -/
def execBinPlay (s : State) : Host.Outcome State Fault Refusal :=
  match s.cmd s.act.num with
  | some m =>
    if !(m.bus == 11 && m.t == 4) then stutter s
    else
      match (match m.st with
        | .queued => if storesDone (s.ctx m.cid) m.seq then (Eff.start s).startBins m else none
        | .started => (Eff.start s).playOn m
        | _ => none) with
      | some e => done s e
      | none => stutter s
  | none => stutter s

/-! ### The operations and the bundles whose one move triggers them -/

/-- BINPUT (R263). -/
def opBinput : Op :=
  cmdOp 11 2 (fun i => [(i.b.word, 64), (i.o1.word, 8 * field i.o2.word 0 24)]) (fun _ m => m) (fun _ => false)

/-- The bundle whose one move triggers BINPUT. -/
def execBinput (g : Guard) (src : Src) (s : State) : Host.Outcome State Fault Refusal :=
  issueOne g src opBinput s

/-- BINFLUSH (R263). -/
def opBinflush : Op :=
  cmdOp 11 3 (fun i => [(i.b.word, 64)]) (fun _ m => m) (fun _ => false)

/-- The bundle whose one move triggers BINFLUSH. -/
def execBinflush (g : Guard) (src : Src) (s : State) : Host.Outcome State Fault Refusal :=
  issueOne g src opBinflush s

/-- BINPLAY (R263). -/
def opBinplay : Op :=
  cmdOp 11 4 (fun i => [(i.b.word, 64)]) (fun _ m => m) (fun _ => false)

/-- The bundle whose one move triggers BINPLAY. -/
def execBinplay (g : Guard) (src : Src) (s : State) : Host.Outcome State Fault Refusal :=
  issueOne g src opBinplay s

end Sys2Proof.Machine
end

