-- ==== Sys2Proof/Machine/Matrix.lean ====
section
/-! DEFINITION. Class T: the matrix unit MX (spec/10_matrix.md R188 to R204; spec/06_arithmetic.md R125, R126), its
triggers and the steps in which its operations run. -/

namespace Sys2Proof.Machine

/-! ### Triggers (R189, R190) -/

/-- Whether an address lies in the reach of the bases of A and B (R190). -/
def baseReach (a : Word) : Bool := match classify a with | .chip _ => true | .glob _ => true | _ => false

/-- Whether an address lies in the MX reach of a core (R190). -/
def mxReach (n : Fin 4112) (a : Word) : Bool :=
  match locOf n a with
  | .chip _ => true
  | .glob _ => true
  | .own _ => true
  | .slice i _ => n.val < 4096 && i == coreIx n
  | _ => false

/-- ADDRCLASS for an address outside its reach. -/
def reachTrap (ok : Bool) (a : Word) : Option (Nat × Word) := if ok then none else some (causeAddr, a)

/-- An operation enters the core's queue of 8: tl counts it (R189). The operation that runs holds none of the 8 places (log
entry 69). -/
def mxOp (t : Nat) (chk : In → Option (Nat × Word)) : Op :=
  { bus := 9, t := t, acc := true
    chk := chk
    blk := fun i => 8 ≤ (i.s.core i.cid.core).mxq.length
    eff := fun i s => s.modCore i.cid.core (fun k =>
      let c := k.at i.cid.ctx
      let o : MxOp := { ctx := i.cid.ctx, seq := c.seq, t := t, b := i.b.word, o1 := i.o1.word, o2 := i.o2.word }
      let k := k.setAt i.cid.ctx { c.note 3 with tl := c.tl + 1, seq := c.seq + 1 }
      { k with mxq := k.mxq ++ [o] }) }

/-! ### The operations and the bundles whose one move triggers them -/


/-- MMA (R190, R195). -/
def opMma (sp : Bool) (h : Bool) : Op :=
  mxOp (2 * sp.toNat + h.toNat) (fun i =>
    (reachTrap (baseReach i.b.word) i.b.word).or (reachTrap (baseReach i.o1.word) i.o1.word))

/-- The bundle whose one move triggers MMA. -/
def execMma (g : Guard) (src : Src) (sp : Bool) (h : Bool) (s : State) : Host.Outcome State Fault Refusal :=
  issueOne g src (opMma sp h) s

/-- MZERO (R200). -/
def opMzero (h : Bool) : Op :=
  mxOp (16 + h.toNat) (fun _ => none)

/-- The bundle whose one move triggers MZERO. -/
def execMzero (g : Guard) (src : Src) (h : Bool) (s : State) : Host.Outcome State Fault Refusal :=
  issueOne g src (opMzero h) s

/-- MDRAIN (R203). -/
def opMdrain (h : Bool) : Op :=
  mxOp (32 + h.toNat) (fun i => reachTrap (i.b.word == 0 || mxReach i.cid.core i.b.word) i.b.word)

/-- The bundle whose one move triggers MDRAIN. -/
def execMdrain (g : Guard) (src : Src) (h : Bool) (s : State) : Host.Outcome State Fault Refusal :=
  issueOne g src (opMdrain h) s

/-- MLOAD (R200). -/
def opMload (h : Bool) : Op :=
  mxOp (48 + h.toNat) (fun i => reachTrap (mxReach i.cid.core i.b.word) i.b.word)

/-- The bundle whose one move triggers MLOAD. -/
def execMload (g : Guard) (src : Src) (h : Bool) (s : State) : Host.Outcome State Fault Refusal :=
  issueOne g src (opMload h) s

/-- MSETQ (R201). -/
def opMsetq : Op :=
  mxOp 64 (fun i => reachTrap (i.o1.word.getLsbD 1 || mxReach i.cid.core i.b.word) i.b.word)

/-- The bundle whose one move triggers MSETQ. -/
def execMsetq (g : Guard) (src : Src) (s : State) : Host.Outcome State Fault Refusal :=
  issueOne g src opMsetq s

/-- MSETD (R202). -/
def opMsetd : Op :=
  mxOp 80 (fun i => reachTrap (mxReach i.cid.core i.b.word) i.b.word)

/-- The bundle whose one move triggers MSETD. -/
def execMsetd (g : Guard) (src : Src) (s : State) : Host.Outcome State Fault Refusal :=
  issueOne g src opMsetd s

/-- MCFG (R191). -/
def opMcfg : Op :=
  mxOp 96 (fun _ => none)

/-- The bundle whose one move triggers MCFG. -/
def execMcfg (g : Guard) (src : Src) (s : State) : Host.Outcome State Fault Refusal :=
  issueOne g src opMcfg s

/-! ### Tiles (R188) -/

/-- The place of an operation in its class: t = 16n + sub (R61). -/
def MxOp.n (o : MxOp) : Nat := o.t / 16

/-- The tile that an operation names: tile 2i + h of its context (R188). -/
def MxOp.tile (o : MxOp) : Fin 8 :=
  Fin.ofNat 8 (2 * o.ctx.val + (if o.n = 4 ∨ o.n = 5 then field o.o1 0 1 else o.t % 2))

/-- The core with a tile changed. -/
def Core.modTile (k : Core) (i : Fin 8) (f : Tile → Tile) : Core :=
  { k with tiles := k.tiles.set i.val (f (k.tiles.get i)) i.isLt }

/-- Poisoned (R188): CFG, ADDR or FAULT is set. -/
def Tile.poisoned (t : Tile) : Bool := t.status &&& 0xE#4 != 0

/-- STATUS.CFG, ADDR and FAULT (R188). -/
def stCfg : BitVec 4 := 2
/-- ADDR. -/
def stAddr : BitVec 4 := 4
/-- FAULT. -/
def stFault : BitVec 4 := 8

/-! ### Configuration and pairings (R191, R192) -/

/-- What an MMA runs under. -/
structure Mma where
  a    : Word
  b    : Word
  k    : Nat
  afmt : Nat
  bfmt : Nat
  sp   : Nat
  lda  : Nat
  ldb  : Nat

/-- The parameters of an MMA: SP only where it is sparse. -/
def mmaOf (c : MxCfg) (o : MxOp) : Mma :=
  { a := o.o1, b := o.b, k := field o.o2 0 12, afmt := field c.fmt 0 3, bfmt := field c.fmt 4 3,
    sp := if o.t / 2 % 2 = 1 then field c.fmt 8 2 else 0, lda := c.lda, ldb := c.ldb }

/-- Whether the configuration is valid (R191). -/
def MxCfg.valid (c : MxCfg) : Bool := c.fmt.toNat / 2 ^ 10 == 0 && c.fmt.toNat / 2 ^ 7 % 2 == 0 && c.fmt.toNat / 2 ^ 3 % 2 == 0 && field c.fmt 0 3 < 5

/-- Whether an MMA may run on a tile (R192). -/
def mmaPairs (m : Mma) (sparse int : Bool) : Bool :=
  (if m.afmt = 4 then (m.bfmt == 4 || m.bfmt == 5) && int else m.bfmt != 4 && !int) &&
  (!sparse || (m.sp != 0 && (m.bfmt == 0 || m.bfmt == 5 || m.bfmt == 7)))

/-! ### Operand layout (R193) -/

/-- The bytes of an A element. -/
def Mma.asz (m : Mma) : Nat := if m.afmt = 2 ∨ m.afmt = 3 then 2 else 1

/-- The bits of a dense B element, or of a stored value of a run. -/
def Mma.bbits (m : Mma) : Nat := match m.bfmt with | 2 | 3 => 16 | 5 | 6 | 7 => 4 | _ => 8

/-- The bytes of a run of an S-form. -/
def Mma.run (m : Mma) : Nat := 12 * m.sp * m.bbits / 8 + 3 * m.sp

/-- The bytes of a row of A. -/
def Mma.arow (m : Mma) : Nat := m.k * m.asz

/-- The bytes of a column of B. -/
def Mma.bcol (m : Mma) : Nat :=
  if m.bfmt = 6 then (m.k + 255) / 256 * 136
  else if m.sp ≠ 0 then (m.k + 47) / 48 * m.run
  else (m.k * m.bbits + 7) / 8

/-- Whether `n` rows or columns of `len` bytes, `ld` bytes apart, lie in the window class of their base. -/
def rowsFit (base : Word) (ld len n : Nat) : Bool := len == 0 || extentOk base ((n - 1) * ld + len)

/-- Alignment and extent (R193). -/
def Mma.placed (m : Mma) : Bool :=
  let bal := if m.bfmt = 2 ∨ m.bfmt = 3 then 2 else if m.bfmt = 6 then 4 else 1
  m.a.toNat % m.asz == 0 && m.lda % m.asz == 0 && m.b.toNat % bal == 0 && m.ldb % bal == 0 &&
  rowsFit m.a m.lda m.arow 32 && rowsFit m.b m.ldb m.bcol 32

/-- Row `i` of A. -/
def Mma.rowAt (m : Mma) (i : Nat) : Word := m.a + BitVec.ofNat 64 (i * m.lda)

/-- Column `j` of B. -/
def Mma.colAt (m : Mma) (j : Nat) : Word := m.b + BitVec.ofNat 64 (j * m.ldb)

/-- The elements of chunk `c` (R195). -/
def Mma.len (m : Mma) (c : Nat) : Nat := min 48 (m.k - 48 * c)

/-- The bytes of a row of A that chunk `c` needs: offset and count. -/
def Mma.aPart (m : Mma) (c : Nat) : Nat × Nat := (48 * c * m.asz, m.len c * m.asz)

/-- The bytes of a column of B that chunk `c` needs: the elements, the run, or the superblocks that cover them. -/
def Mma.bPart (m : Mma) (c : Nat) : Nat × Nat :=
  if m.bfmt = 6 then
    let lo := 48 * c / 256
    let hi := (48 * c + m.len c - 1) / 256
    (136 * lo, 136 * (hi - lo + 1))
  else if m.sp ≠ 0 then (m.run * c, m.run)
  else
    let lo := 48 * c * m.bbits / 8
    (lo, ((48 * c + m.len c) * m.bbits + 7) / 8 - lo)

/-- The address of a line. -/
def lineOf (a : Word) : Word := a &&& ~~~127

/-- The lines of an extent. -/
def linesOf (a : Word) (n : Nat) : List Word :=
  if n = 0 then []
  else (List.range ((a.toNat % 128 + n - 1) / 128 + 1)).map (fun i => lineOf a + BitVec.ofNat 64 (128 * i))

/-- Words without repeats. -/
def dedupWords : List Word → List Word
  | [] => []
  | g :: r => if r.contains g then dedupWords r else g :: dedupWords r

/-- The lines that chunk `c` needs (R198). -/
def Mma.lines (m : Mma) (c : Nat) : List Word :=
  let (ao, an) := m.aPart c
  let (bo, bn) := m.bPart c
  dedupWords ((List.range 32).flatMap (fun i =>
    linesOf (m.rowAt i + BitVec.ofNat 64 ao) an ++ linesOf (m.colAt i + BitVec.ofNat 64 bo) bn))

/-- The chunks of an MMA. -/
def Mma.chunks (m : Mma) : Nat := (m.k + 47) / 48

/-- A byte of an operand, from the lines at hand: a pinned line is read in place (R198). -/
def lineByte (mem : Mem) (ls : List TileLine) (a : Word) : Byte :=
  match ls.find? (fun l => l.addr == lineOf a) with
  | some l => match l.bytes with
    | some bs => bs.getD (a.toNat % 128) 0
    | none => mem.get (l.key + a.toNat % 128)
  | none => 0

/-- Operand bytes as a number. -/
def lineNat (mem : Mem) (ls : List TileLine) (a : Word) (n : Nat) : Nat :=
  leNat ((List.range n).map (fun i => lineByte mem ls (a + BitVec.ofNat 64 i)))

/-! ### Chunks (R126, R193 to R195) -/

/-- The value of an element of format `f` (R193), and whether it is an IX4 index out of range. -/
def mxValue (f : Nat) (k0 : KReg) (x : Nat) : Rl × Bool :=
  match f with
  | 0 => (Fmt.e4m3.value x, false)
  | 1 => (Fmt.e5m2.value x, false)
  | 2 => (Fmt.bf16.value x, false)
  | 3 => (Fmt.f16.value x, false)
  | 4 => (rlInt (signedOf 8 x), false)
  | 5 => (rlInt x, false)
  | 6 => (Fmt.f32.value x, false)
  | _ => if x < k0.n then (k0.tag.fmt.value (k0.entry x), false) else (rlZero false, true)

/-- Element `e` of a run whose quads store `q` values of `w` bits (R113, R194); none where no entry names it. -/
def runElement (q w x e : Nat) : Option Nat :=
  (List.range q).foldl (fun v t =>
    let i := e / 4 * q + t
    if x / 2 ^ (12 * q * w + 2 * i) % 4 = e % 4 then some (laneOf w x i) else v) none

/-- The elements of row `i` of A in chunk `c`. -/
def Mma.aVals (m : Mma) (mem : Mem) (ls : List TileLine) (c i : Nat) : List Rl :=
  let (o, n) := m.aPart c
  let x := lineNat mem ls (m.rowAt i + BitVec.ofNat 64 o) n
  (List.range (m.len c)).map (fun e => (mxValue m.afmt KReg.empty (laneOf (8 * m.asz) x e)).1)

/-- The elements of column `j` of B in chunk `c`. -/
def Mma.bVals (m : Mma) (k0 : KReg) (mem : Mem) (ls : List TileLine) (c j : Nat) : List (Rl × Bool) :=
  let (o, n) := m.bPart c
  let x := lineNat mem ls (m.colAt j + BitVec.ofNat 64 o) n
  (List.range (m.len c)).map (fun e =>
    if m.bfmt = 6 then
      let g := 48 * c + e
      let y := x / 2 ^ (1088 * (g / 256 - 48 * c / 256))
      let p := sn4Decode (laneOf 4 y (g % 256)) (laneOf 8 (y / 2 ^ 1024) (g % 256 / 64)) (y / 2 ^ 1056 % 2 ^ 32)
      (Fmt.f32.value p, false)
    else if m.sp ≠ 0 then
      (match runElement m.sp m.bbits x e with
       | some v => mxValue m.bfmt k0 v
       | none => (rlZero false, false))
    else mxValue m.bfmt k0 (laneOf m.bbits x e))

/-- The exact sum of a chunk (R126): +0 for a zero sum. -/
def chunkSum (l : List Rl) : Rl :=
  let x := l.foldl (Rl.add false) (rlZero false)
  if x.isZero then rlZero false else x

/-- One accumulator word with a chunk's sum added (R195). -/
def accumulate (int : Bool) (w : BitVec 32) (x : Rl) : BitVec 32 :=
  if int then
    match x with
    | .fin n q e _ => w + BitVec.ofInt 32 (scaled n q e 0)
    | _ => w
  else BitVec.ofNat 32 (roundTo .f32 ((Fmt.f32.value w.toNat).add false x) .rne).pat

/-- A tile after chunk `c` (R195). -/
def Mma.chunkTile (m : Mma) (k0 : KReg) (mem : Mem) (ls : List TileLine) (c : Nat) (t : Tile) : Tile :=
  let rows := (List.range 32).map (m.aVals mem ls c)
  let cols := (List.range 32).map (m.bVals k0 mem ls c)
  let sums := rows.flatMap (fun a => cols.map (fun b => chunkSum (List.zipWith (fun x y => x.mul y.1) a b)))
  let koor : BitVec 4 := if cols.any (fun b => b.any (·.2)) then 1 else 0
  { t with acc := List.zipWith (accumulate t.int) t.acc sums
           rs := List.zipWith (fun w a => accumulate t.int w (chunkSum a)) t.rs rows
           status := t.status ||| koor }

/-! ### Starting (R189, R195 to R197) -/

/-- What an MMA finds as it starts: a status bit to set, or nothing. -/
def mmaFails (c : MxCfg) (o : MxOp) (t : Tile) : Option (BitVec 4) :=
  let m := mmaOf c o
  if !c.valid || !mmaPairs m (o.t / 2 % 2 == 1) t.int then some stCfg
  else if !m.placed then some stAddr
  else none

/-- Whether every KB operation that the context triggered before a place in its order has completed (R196). -/
def kbDone (s : State) (cid : Cid) (seq : Nat) : Bool := (s.kbOps cid).all (fun o => seq ≤ o.seq)

/-- A queued operation starts to run. -/
def Core.mxStart (k : Core) (o : MxOp) (k0 : KReg) (fin : Bool) : Core :=
  { k with mxq := k.mxq.tail, mxRun := some { op := o, chunk := 0, kreg := k0, lines := [], fin := fin, sum := none } }

/-- MX_OPERATION_START (R189): the oldest operation in the queue of the core of `act` starts once the one before it has
completed and its context's earlier stores have performed; an MMA of IX4 weights after the context's earlier KB
operations too, capturing k0. -/
def execMxOperationStart (s : State) : Host.Outcome State Fault Refusal :=
  let n := s.act.cid.core
  let k := s.core n
  match k.mxRun, k.mxq with
  | none, o :: _ =>
    let cid : Cid := { core := n, ctx := o.ctx }
    let c := s.ctx cid
    if o.n ≠ 1 ∧ o.n ≠ 6 ∧ !storesDone c o.seq then stutter s
    else if o.n ≠ 0 then done s ((Eff.start s).on (fun s => s.modCore n (fun k => k.mxStart o KReg.empty true)))
    else
      let cfg := k.mxCfg.get o.ctx
      let t := k.tiles.get o.tile
      let m := mmaOf cfg o
      if t.poisoned then done s ((Eff.start s).on (fun s => s.modCore n (fun k => k.mxStart o KReg.empty true)))
      else
        match mmaFails cfg o t with
        | some b => done s ((Eff.start s).on (fun s => s.modCore n (fun k =>
            (k.mxStart o KReg.empty true).modTile o.tile (fun t => { t with status := t.status ||| b }))))
        | none =>
          if m.bfmt = 7 ∧ !kbDone s cid o.seq then stutter s
          else done s ((Eff.start s).on (fun s => s.modCore n (fun k => k.mxStart o (c.k.get 0) (m.k == 0))))
  | _, _ => stutter s

/-- The MMA that runs in a core, with its parameters, while chunks are left. -/
def mmaRuns (s : State) (n : Fin 4112) : Option (MxRun × Mma) :=
  match (s.core n).mxRun with
  | some r => if r.op.n = 0 ∧ !r.fin then some (r, mmaOf ((s.core n).mxCfg.get r.op.ctx) r.op) else none
  | none => none

/-- The core with its running operation changed. -/
def Core.modRun (k : Core) (f : MxRun → MxRun) : Core := { k with mxRun := k.mxRun.map f }

/-- The lines that are pinned at the slices, of all MX units (R198). -/
def State.pins (s : State) : List TileLine :=
  s.cores.flatMap (fun p => match p.2.mxRun with | some r => r.lines.filter (·.pin) | none => [])

/-- Whether a line of device memory may be pinned at its slice: fewer than 4 other lines of its set are (R198). -/
def State.mayPin (s : State) (k : Nat) : Bool :=
  k < 2 ^ 40 && (dedup ((s.pins.filter (fun l => l.key < 2 ^ 40 && l.key / 128 != k / 128 && homeSlice l.key == homeSlice k &&
    Config.lineSet (l.key / 128) == Config.lineSet (k / 128))).map (fun l => l.key / 128))).length < 4

/-- A field of a drain descriptor (R202). -/
def dfield (d : List Word) (w lo n : Nat) : Nat := field (d.getD w 0) lo n

/-- OFMT. -/
def dOfmt (d : List Word) : Nat := dfield d 1 32 3

/-- The size of an output element (R202). -/
def dSize (d : List Word) : Nat := match dOfmt d with | 0 | 6 => 4 | 1 | 2 => 2 | _ => 1

/-- The size of a residual element. -/
def dResSize (d : List Word) : Nat := if dfield d 1 40 1 = 0 then 4 else 2

/-- The address of an output element. -/
def drainOut (d : List Word) (e : Nat) : Word := d.getD 0 0 + BitVec.ofNat 64 (e / 32 * dfield d 1 0 32 + e % 32 * dSize d)

/-- The address of a residual element. -/
def drainRes (d : List Word) (e : Nat) : Word := d.getD 2 0 + BitVec.ofNat 64 (e / 32 * dfield d 3 0 32 + e % 32 * dResSize d)

/-- Whether a drain reads residuals: RAW does not, nor does a poisoned tile (R203). -/
def hasResidual (t : Tile) (d : List Word) : Bool := d.getD 2 0 != 0 && dOfmt d != 6 && !t.poisoned

/-- The bytes of an MLOAD, MSETQ or MSETD. -/
def MxOp.readLen (o : MxOp) : Nat :=
  match o.n with
  | 3 => if o.o1.getLsbD 0 then 4224 else 4096
  | 4 => if o.o1.getLsbD 1 then 0 else 256
  | 5 => 64
  | _ => 0

/-- Whether the running operation of a core reads a line: an MMA for its chunk or the next one, an MLOAD, MSETQ or MSETD
from its table, an MDRAIN for its residuals. -/
def wantsLine (s : State) (n : Fin 4112) (r : MxRun) (a : Word) : Bool :=
  match mmaRuns s n with
  | some (_, m) => (m.lines r.chunk).contains a || (r.chunk + 1 < m.chunks && (m.lines (r.chunk + 1)).contains a)
  | none =>
    if r.op.n = 2 then
      let t := (s.core n).tiles.get r.op.tile
      match t.drain with
      | some d => r.sum.isNone && hasResidual t d && (List.range 1024).any (fun e => lineOf (drainRes d e) == a)
      | none => false
    else (linesOf r.op.b r.op.readLen).contains a && extentOk r.op.b r.op.readLen

/-- A line at hand of which one sector is read again, as it arrives later than the others (R197). -/
def TileLine.refresh (l : TileLine) (m : Mem) (j : Nat) : TileLine :=
  let bs := l.bytes.getD (m.bytes l.key 128)
  { l with bytes := some (bs.take (32 * j) ++ m.bytes (l.key + 32 * j) 32 ++ bs.drop (32 * j + 32)) }

/-- A line that arrives from its key: pinned, and then read in place, where the limit lets it be (R198). -/
def arriving (s : State) (a : Word) (k : Nat) : TileLine :=
  let pin := s.mayPin k
  { addr := a, key := k, pin := pin, way := s.wayFor k s.tick,
    bytes := if pin then none else some (s.mem.bytes k 128) }

/-- TILE_LINE_ARRIVAL (R197 to R199): the line `word` that the operation of the core of `act` reads arrives, pinned where the
limits of R198 let it be; or, where the step picks a sector of a line at hand, that sector arrives only now. A page that is
not present stops an MMA with FAULT and FATAL_UNPROBED, whose argument is the start of the line (log entry 77). -/
def execTileLineArrival (s : State) : Host.Outcome State Fault Refusal :=
  let n := s.act.cid.core
  match (s.core n).mxRun with
  | none => stutter s
  | some r =>
    let a := s.act.word
    let cid : Cid := { core := n, ctx := r.op.ctx }
    let pasid := (s.ctx cid).pasid
    let lines (f : List TileLine → List TileLine) (e : Eff) : Eff :=
      e.on (fun s => s.modCore n (fun k => k.modRun (fun r => { r with lines := f r.lines })))
    if !wantsLine s n r a || localHeld s n a 128 || !extentQuiet s cid pasid a 128 then stutter s
    else
      match r.lines.find? (fun l => l.addr == a), s.act.pick with
      | some _, some j => done s (lines (fun ls => ls.map (fun l => if l.addr = a then l.refresh s.mem (j % 4) else l)) (Eff.start s))
      | some _, none => stutter s
      | none, _ =>
        match accessKey s n pasid a false with
        | .ok key => done s ((lines (fun ls => ls ++ [arriving s a key]) (Eff.start s)).on (fun s => { s with tick := s.tick + 1 }))
        | _ =>
          if (mmaRuns s n).isNone then stutter s
          else
            let e := (Eff.start s).on (fun s => s.modCore n (fun k =>
              (k.modRun (fun r => { r with fin := true, lines := [] })).modTile r.op.tile
                (fun t => { t with status := t.status ||| stFault })))
            done s (e.ctx cid (fun c => c.addDue causeUnprobed a))

/-- MMA_CHUNK (R195): the array adds the next chunk of the MMA of the core of `act`, whose lines have arrived; the lines
that the following chunk does not need are let go. -/
def execMmaChunk (s : State) : Host.Outcome State Fault Refusal :=
  let n := s.act.cid.core
  match mmaRuns s n with
  | some (r, m) =>
    if !((m.lines r.chunk).all (fun a => r.lines.any (fun l => l.addr == a))) then stutter s
    else
      let last := r.chunk + 1 == m.chunks
      let keep := if last then [] else m.lines (r.chunk + 1)
      done s ((Eff.start s).on (fun s => s.modCore n (fun k =>
        (k.modTile r.op.tile (m.chunkTile r.kreg s.mem r.lines r.chunk)).modRun (fun r =>
          { r with chunk := r.chunk + 1, fin := last, lines := r.lines.filter (fun l => keep.contains l.addr) }))))
  | none => stutter s

/-! ### Zeroing, loading, tables and descriptors (R200 to R202) -/

/-- MZERO (R200). -/
def Tile.zeroed (t : Tile) (b : Word) : Tile :=
  { t with acc := List.replicate 1024 0, rs := List.replicate 32 0, int := b.getLsbD 0, status := 0 }

/-- `n` 32-bit words of some bytes. -/
def words32 (n : Nat) (bs : List Byte) : List (BitVec 32) :=
  let x := leNat bs
  (List.range n).map (fun i => BitVec.ofNat 32 (laneOf 32 x i))

/-- The drain configuration is invalid, and QEN is 0 (R201). -/
def Tile.badTable (t : Tile) : Tile := { t with qen := false, drain := none }

/-- Whether a drain descriptor is valid (R202). -/
def drainOk (n : Fin 4112) (d : List Word) : Bool :=
  let out := d.getD 0 0
  let res := d.getD 2 0
  let os := dfield d 1 0 32
  let rs := dfield d 3 0 32
  dOfmt d != 7 && mxReach n out && out.toNat % dSize d == 0 && os % dSize d == 0 && rs % dResSize d == 0 &&
  extentOk out (31 * os + 32 * dSize d) &&
  (res == 0 || (mxReach n res && res.toNat % dResSize d == 0 && extentOk res (31 * rs + 32 * dResSize d)))

/-- An MX operation is over: tl counts it no more. -/
def State.mxOver (s : State) (cid : Cid) : State :=
  (s.modCore cid.core (fun k => { k with mxRun := none })).modCtx cid (fun c => { c with tl := c.tl - 1 })

/-- The bytes that an operation reads: those of lines that have arrived as they came, the others now (R197). -/
def mxBytes (s : State) (cid : Cid) (a : Word) (len : Nat) : List Byte :=
  let ls := (((s.core cid.core).mxRun.map (·.lines)).getD [])
  (List.range len).map (fun i =>
    let x := a + BitVec.ofNat 64 i
    if ls.any (fun l => l.addr == lineOf x) then lineByte s.mem ls x
    else (readBytes s cid.core (s.ctx cid).pasid x 1).headD 0)

/-- The effect of an operation that reads `len` bytes at b: `bad` where the address is misaligned or leaves its window
class, `fault` where a page is not present, else `ok` of the bytes. None while it has to wait. -/
def Eff.mxRead (e : Eff) (cid : Cid) (o : MxOp) (al len : Nat) (bad fault : Tile → Tile) (ok : List Byte → Tile → Tile) :
    Option Eff :=
  let s := e.st
  let pasid := (s.ctx cid).pasid
  let set (f : Tile → Tile) (e : Eff) : Eff := e.on (fun s => s.modCore cid.core (fun k => k.modTile o.tile f))
  if o.b.toNat % al ≠ 0 ∨ !extentOk o.b len then some (set bad e)
  else if localHeld s cid.core o.b len || !extentQuiet s cid pasid o.b len then none
  else
    match firstBad s cid.core pasid o.b len false with
    | some (a, _) => some ((set fault e).ctx cid (fun c => c.addDue causeUnprobed a))
    | none => some (set (ok (mxBytes s cid o.b len)) e)

/-- MLOAD (R200, R197). -/
def Eff.mload (e : Eff) (cid : Cid) (o : MxOp) : Option Eff :=
  let sums := o.o1.getLsbD 0
  e.mxRead cid o 128 (if sums then 4224 else 4096) (fun t => { t with status := stAddr }) (fun t => { t with status := stFault })
    (fun bs t =>
      let w := words32 (if sums then 1056 else 1024) bs
      { t with acc := w.take 1024, rs := if sums then w.drop 1024 else List.replicate 32 0,
               int := o.o1.getLsbD 1, status := 0 })

/-- MSETQ (R201). -/
def Eff.msetq (e : Eff) (cid : Cid) (o : MxOp) : Option Eff :=
  if o.o1.getLsbD 1 then
    some (e.on (fun s => s.modCore cid.core (fun k => k.modTile o.tile (fun t => { t with qen := false }))))
  else
    e.mxRead cid o 8 256 Tile.badTable Tile.badTable (fun bs t =>
      let w := words32 64 bs
      { t with qen := true, sc := w.take 32, zp := w.drop 32 })

/-- MSETD (R202). -/
def Eff.msetd (e : Eff) (cid : Cid) (o : MxOp) : Option Eff :=
  let none' (t : Tile) : Tile := { t with drain := none }
  e.mxRead cid o 64 64 none' none' (fun bs t =>
    let x := leNat bs
    let d := (List.range 8).map (fun i => BitVec.ofNat 64 (laneOf 64 x i))
    { t with drain := if drainOk cid.core d then some d else none })

/-! ### MDRAIN (R203, R204) -/

/-- The keyed hash of an element (R125). -/
def keyedHash (key step : Word) (row col : Nat) : Word :=
  mix64 (key ^^^ (BitVec.ofNat 64 row <<< 40) ^^^ (BitVec.ofNat 64 col <<< 20) ^^^ step)

/-- A rounding to F32 as a real (R203). -/
def toF32 (x : Rl) : Rl := Fmt.f32.value (roundTo .f32 x .rne).pat

/-- A word of a tile in F32 (R203). -/
def Tile.real (t : Tile) (w : BitVec 32) : Rl := if t.int then toF32 (rlInt w.toInt) else Fmt.f32.value w.toNat

/-- An output element: its pattern, and whether it was dropped, overflowed, or is NaN (R203, R204). -/
structure Drained where
  pat  : Nat
  drop : Bool
  ovf  : Bool
  nan  : Bool

/-- The output format of OFMT 0 to 4. -/
def drainFmt (x : Nat) : Fmt := match x with | 0 => .f32 | 1 => .bf16 | 2 => .f16 | 3 => .e4m3 | _ => .e5m2

/-- Convert(v, OFMT, ORND, h) (R204). -/
def drainConvert (d : List Word) (h : Word) (v : Rl) (drop : Bool) : Drained :=
  let ornd := dfield d 1 36 2
  if dOfmt d = 5 then
    let (x, fl) := convertInt (-128) 127 v (if ornd = 1 then .rtz else .rne)
    { pat := patOf 8 x, drop := drop, ovf := !v.isNaN && fl &&& (flSAT ||| flNV) != 0, nan := v.isNaN }
  else
    let m : RMode := match ornd with | 0 => .rne | 1 => .rtz | 2 => .sr (h.toNat % 65536) | _ => .sat
    let f := drainFmt (dOfmt d)
    let x := roundTo f v m
    { pat := x.pat, drop := drop, ovf := !v.isNaN && x.fl &&& (flOF ||| flSAT ||| flNV) != 0, nan := f.isNaN x.pat }

/-- Steps 1 to 3 (R203). -/
def Tile.scaled (t : Tile) (i j : Nat) (v : Rl) : Rl :=
  if t.qen then
    let t1 := toF32 ((Fmt.f32.value (t.zp.getD j 0).toNat).mul (t.real (t.rs.getD i 0)))
    let t2 := toF32 (v.add false t1.minus)
    toF32 ((Fmt.f32.value (t.sc.getD j 0).toNat).mul t2)
  else v

/-- Element (i, j) of a drain (R203), with the residual where there is one. -/
def Tile.drained (t : Tile) (d : List Word) (i j : Nat) (res : Option Rl) : Drained :=
  let w := t.acc.getD (32 * i + j) 0
  if dOfmt d = 6 then
    let x := if t.poisoned then (if t.int then 0 else 0x7FC00000) else w.toNat
    { pat := x, drop := false, ovf := false, nan := !t.int && Fmt.f32.isNaN x }
  else if t.poisoned then
    (if dOfmt d = 5 then { pat := 0, drop := false, ovf := false, nan := false }
     else { pat := (drainFmt (dOfmt d)).qnan, drop := false, ovf := false, nan := true })
  else
    let v := t.scaled i j (t.real w)
    let v := match res with | some r => toF32 (v.add false r) | none => v
    let h := keyedHash (d.getD 4 0) (d.getD 5 0) ((dfield d 7 0 24 + i) % 2 ^ 24) ((dfield d 7 32 20 + j) % 2 ^ 20)
    if dfield d 1 41 1 = 1 then
      if h.toNat / 2 ^ 32 < dfield d 6 0 32 then drainConvert d h (rlZero false) true
      else drainConvert d h (toF32 (v.mul (Fmt.f32.value (dfield d 6 32 32)))) false
    else drainConvert d h v false

/-- A drain on its way: the memory as its writes leave it, these writes, the counts, the address at which it stopped, and
whether an element has to wait. -/
structure Drain where
  mem  : Mem
  wr   : List Wr
  drop : Nat
  ovf  : Nat
  nan  : Nat
  stop : Option Word
  held : Bool

/-- Whether MX may access an extent now (R197). -/
def mxFree (s : State) (cid : Cid) (a : Word) (len : Nat) : Bool :=
  !localHeld s cid.core a len && extentQuiet s cid (s.ctx cid).pasid a len

/-- One element of a drain (R197, R203): its residual is read, as the elements before it have left it, and it is written. -/
def drainElement (s : State) (cid : Cid) (t : Tile) (d : List Word) (x : Drain) (e : Nat) : Drain :=
  if x.stop.isSome || x.held then x
  else
    let ra := drainRes d e
    let oa := drainOut d e
    let res := hasResidual t d
    if !((!res || mxFree s cid ra (dResSize d)) && mxFree s cid oa (dSize d)) then { x with held := true }
    else
      match (if res then accessKey s cid.core (s.ctx cid).pasid ra false else .ok 0) with
      | .ok rk =>
        match accessKey s cid.core (s.ctx cid).pasid oa true with
        | .ok ok =>
          let f := if dResSize d = 4 then Fmt.f32 else Fmt.bf16
          let y := t.drained d (e / 32) (e % 32) (if res then some (f.value (x.mem.nat rk (dResSize d))) else none)
          let w := wrNat ok (dSize d) y.pat
          { x with mem := if res then x.mem.applyAll w else x.mem, wr := w.reverse ++ x.wr, drop := x.drop + y.drop.toNat,
                   ovf := x.ovf + y.ovf.toNat, nan := x.nan + y.nan.toNat }
        | _ => { x with stop := some oa }
      | _ => { x with stop := some ra }

/-- Memory as an operation reads it that has lines at hand: their bytes as they arrived, the others as they stand (R197). -/
def lineMem (s : State) (n : Fin 4112) : Mem :=
  s.mem.applyAll ((((s.core n).mxRun.map (·.lines)).getD []).flatMap (fun l => wrBytes l.key (l.bytes.getD [])))

/-- The elements of a drain. -/
def drainAll (s : State) (cid : Cid) (t : Tile) (d : List Word) : Drain :=
  (List.range 1024).foldl (drainElement s cid t d)
    { mem := lineMem s cid.core, wr := [], drop := 0, ovf := 0, nan := 0, stop := none, held := false }

/-- The summary word of a drain (R204). -/
def summaryOf (t : Tile) (x : Drain) : Nat := t.status.toNat * 2 ^ 48 + x.drop * 2 ^ 32 + x.ovf * 2 ^ 16 + x.nan

/-- Whether a summary address is written: it is not 0, is a multiple of 8 and stays in its window class (R204). -/
def summaryAt (a : Word) : Bool := a != 0 && a.toNat % 8 == 0 && extentOk a 8

/-- What is in flight of a drain performs, and the summary word is written; FATAL_UNPROBED where its page is not present. None
while it has to wait. -/
def Eff.summary (e : Eff) (cid : Cid) (a : Word) (x : Option Nat) : Option Eff :=
  match x with
  | some x =>
    if !summaryAt a then some (e.landFlights (.mx cid.core))
    else if !mxFree e.st cid a 8 then none
    else
      let e := e.landFlights (.mx cid.core)
      match accessKey e.st cid.core (e.st.ctx cid).pasid a true with
      | .ok k => some (e.put (wrNat k 8 x))
      | _ => some (e.ctx cid (fun c => c.addDue causeUnprobed a))
  | none => some (e.landFlights (.mx cid.core))

/-- MDRAIN (R203): its elements are written, or laid out to perform sector by sector where the step says so; with the summary
word that is left, if any. None while it has to wait. -/
def Eff.mdrain (e : Eff) (cid : Cid) (o : MxOp) : Option (Eff × Option Nat) :=
  let s := e.st
  let t := (s.core cid.core).tiles.get o.tile
  match t.drain with
  | none => some (e, some (2 ^ 52))
  | some d =>
    let x := drainAll s cid t d
    if x.held then none
    else
      let e := e.lay (.mx cid.core) x.wr.reverse
      match x.stop with
      | some a => some (e.ctx cid (fun c => c.addDue causeUnprobed a), none)
      | none => some (e, some (summaryOf t x))

/-! ### Completion (R189) -/

/-- The effect of an operation at its completion; an MMA's is in its tile already. None while it has to wait. -/
def Eff.mxFinish (e : Eff) (cid : Cid) (o : MxOp) : Option Eff :=
  match o.n with
  | 1 => some (e.on (fun s => s.modCore cid.core (fun k => k.modTile o.tile (fun t => t.zeroed o.b))))
  | 2 => (e.mdrain cid o).bind (fun p => p.1.summary cid o.b p.2)
  | 3 => e.mload cid o
  | 4 => e.msetq cid o
  | 5 => e.msetd cid o
  | 6 => some (e.on (fun s => s.modCore cid.core (fun k =>
      { k with mxCfg := k.mxCfg.set o.ctx.val { fmt := o.b, lda := field o.o1 0 32, ldb := field o.o2 0 32 } o.ctx.isLt })))
  | _ => some e

/-- An operation that has run comes to its end: a drain that the step lets perform later leaves its sectors and its summary
word; every other operation, and such a drain then, completes. None while it has to wait. -/
def Eff.mxEnd (e : Eff) (cid : Cid) (r : MxRun) : Option Eff :=
  let finish (e : Eff) : Eff := e.on (fun s => s.mxOver cid)
  match r.sum with
  | some x => (e.summary cid r.op.b x).map finish
  | none =>
    if r.op.n = 2 ∧ e.st.act.later then
      (e.mdrain cid r.op).map (fun p => p.1.on (fun s => s.modCore cid.core (fun k =>
        k.modRun (fun r => { r with sum := some p.2 }))))
    else (e.mxFinish cid r.op).map finish

/-- MX_OPERATION_COMPLETE (R189): the operation of the core of `act` that has run writes its outputs; or, where the step picks
one, a sector in flight of its drain performs (R197). -/
def execMxOperationComplete (s : State) : Host.Outcome State Fault Refusal :=
  let n := s.act.cid.core
  match (s.core n).mxRun with
  | some r =>
    let cid : Cid := { core := n, ctx := r.op.ctx }
    if !r.fin then stutter s
    else
      match s.act.pick with
      | some j => s.landOne (.mx n) j
      | none =>
        match (Eff.start s).mxEnd cid r with
        | some e => done s e
        | none => stutter s
  | none => stutter s

end Sys2Proof.Machine
end

