-- ==== Sys2Proof/Machine/Pack.lean ====
section
/-! DEFINITION. Class X: the special-function unit VS; class U: the unpack unit UP; class P: the pack unit PK
(spec/07_vector.md R142 to R149; spec/03_portmap.md R56 to R58). -/

namespace Sys2Proof.Machine

/-! ### Class X (R142) -/

/-- The code of a class X type (R56). -/
def xNum : XTy → Nat | .f32 => 0 | .bf16 => 1 | .f16 => 2

/-- A special function of every lane of b, rounded by FPC.RM. -/
def vSpecial (fn : SpFn) (ty : XTy) (i : VIn) : VOut :=
  let f := xFmt ty
  ofLanes f.width ((i.bl f.width).map (fun y => assistLane f i.fpc (fn.round f f y (modeOf i.fpc))))

/-- The division of lanes, with DZ for a finite non-zero dividend and a zero divisor (R106). -/
def divLane (f : Fmt) (fpc : Word) (a b : Nat) : Rounded :=
  let x := f.value a
  let y := f.value b
  let r := roundLane f fpc (x.div y) [x, y]
  if y.isZero && !x.isZero && !x.isNaN && !x.isInf then { r with fl := r.fl ||| flDZ } else r

/-- XDIV: .o1 divided by b. -/
def fnXdiv (ty : XTy) (i : VIn) : VOut :=
  let f := xFmt ty
  ofLanes f.width ((i.zip3 f.width).map (fun p => divLane f i.fpc p.1 p.2.1))

/-- A class X operation of place `n`. -/
def specOp (n lat : Nat) (ty : XTy) (f : XTy → VIn → VOut) : Op :=
  laneOp 8 (8 * n + xNum ty) lat false (fun _ => (xFmt ty).width) (fun _ => (xFmt ty).width) (f ty)

/-! ### Class U (R143 to R146) -/

/-- Element `e` of width `w` of a packed source; zero beyond its last whole element (R109, R143). -/
def elemOf (w : Nat) (b : Vec) (e : Nat) : Nat := if e < 1024 / w then laneOf w b.toNat e else 0

/-- 64 elements from a number on, sign- or zero-extended to 16 bits. -/
def unpack64 (w : Nat) (sgn : Bool) (b : Vec) (first : Nat) : Val :=
  .vc (vecOf 16 ((List.range 64).map (fun j =>
    let x := elemOf w b (first + j)
    if sgn then patOf 16 (signedOf w x) else x)))

/-- The index width that a WID field selects. -/
def widOf (x : Nat) : Nat := match x % 4 with | 0 => 2 | 1 => 4 | 2 => 6 | _ => 8

/-- A class U operation: latency 2; no flag but those of `f`. -/
def unpackOp (t : Nat) (f : VIn → VOut) : Op :=
  { bus := 4, t := t, res := true
    eff := fun i s =>
      let o := f i.v
      s.modCtx i.cid (fun c => c.result 4 2 (o.r.map Val.vc) o.q o.fl) }

/-- The packed source of a class U operation; a scalar broadcast fills lanes of 16 bits (R129, log entry 22). -/
def VIn.src (i : VIn) : Vec := i.b.lanes 16

/-- UNPK4S and UNPK4Z. -/
def fnUnpk4 (sgn : Bool) (i : VIn) : VOut :=
  let h := 128 * (i.o3.toNat % 2)
  match unpack64 4 sgn i.src h with
  | .vc r => { r := some r, q := some (unpack64 4 sgn i.src (h + 64)) }
  | .sc _ => {}

/-- UNPK6S and UNPK6Z: P = 3 gives zero lanes. -/
def fnUnpk6 (sgn : Bool) (i : VIn) : VOut := { r := some (unpack64 6 sgn i.src (64 * (i.o3.toNat % 4))).vec }

/-- UNPK8S and UNPK8Z. -/
def fnUnpk8 (sgn : Bool) (i : VIn) : VOut := { r := some (unpack64 8 sgn i.src (64 * (i.o3.toNat % 2))).vec }

/-- UNPKE4 and UNPKE5: bytes widened exactly to BF16 or F16 (R144). -/
def fnUnpkE (f : Fmt) (i : VIn) : VOut :=
  let g : Fmt := if i.o3.getLsbD 1 then .f16 else .bf16
  { r := some (vecOf 16 ((List.range 64).map (fun j =>
      (roundTo g (f.value (elemOf 8 i.src (64 * (i.o3.toNat % 2) + j))) .rne).pat))) }

/-- UNPKSN4 (R145): NV in the invalid cases of R111. A scalar source fills lanes of 32 bits, the width of its results (log entry
22). -/
def fnUnpksn4 (i : VIn) : VOut :=
  let b := i.b.lanes 32
  let sw := i.o2.word.toNat
  let sc := sw / 2 ^ 32
  let q := i.o3.toNat % 8
  ofLanes 32 ((List.range 32).map (fun j =>
    let e := 32 * q + j
    let x := sn4Exact (laneOf 4 b.toNat e) (laneOf 8 sw (e / 64)) sc
    { pat := (roundTo .f32 x .rne).pat, fl := invalid x [Fmt.f32.value sc], sub := false }))

/-- UNPKIX. -/
def fnUnpkix (i : VIn) : VOut :=
  let w := widOf i.o3.toNat
  let c := 128 * (i.o3.toNat / 4 % 8)
  { r := some (unpack64 w false i.src c).vec, q := some (unpack64 w false i.src (c + 64)) }

/-- BSINIT for one lane: the window and the count. -/
def bsInitLane (lo hi skip : Nat) : BitVec 64 × BitVec 8 :=
  let s := skip % 32
  (BitVec.ofNat 64 ((hi * 2 ^ 32 + lo) / 2 ^ s), BitVec.ofNat 8 (64 - s))

/-- BSREAD for one lane: the window and the count after it, and the result lane. -/
def bsReadLane (wd : BitVec 64) (p : BitVec 8) (f o1 : Nat) : BitVec 64 × BitVec 8 × Nat :=
  let f := f % 32
  if p.toNat < f then (wd, p, 0)
  else
    let v := wd.toNat % 2 ^ f
    let w := wd.toNat / 2 ^ f
    let q := p.toNat - f
    if q < 32 then (BitVec.ofNat 64 (w ||| o1 * 2 ^ q), BitVec.ofNat 8 (q + 32), 2 ^ 31 + v)
    else (BitVec.ofNat 64 w, BitVec.ofNat 8 q, v)

/-- BSINIT (R146): the bit cursors of the context, from b above .o1, past the bits that .o2 skips. -/
def opBsinit : Op :=
  { bus := 4, t := 10, res := true
    eff := fun i s => s.modCtx i.cid (fun c =>
      let lane (k : Fin 32) :=
        bsInitLane (laneOf 32 (i.o1.lanes 32).toNat k.val) (laneOf 32 (i.b.lanes 32).toNat k.val)
          (laneOf 32 (i.o2.lanes 32).toNat k.val)
      { c with bsWin := Vector.ofFn (fun k : Fin 32 => (lane k).1),
               bsCnt := Vector.ofFn (fun k : Fin 32 => (lane k).2) }.result 4 2 (some (.vc 0)) none 0) }

/-- BSREAD (R146): a field of every lane's bit stream. -/
def opBsread : Op :=
  { bus := 4, t := 9, res := true
    eff := fun i s => s.modCtx i.cid (fun c =>
      let lane (k : Fin 32) :=
        bsReadLane (c.bsWin.get k) (c.bsCnt.get k) (laneOf 32 (i.b.lanes 32).toNat k.val)
          (laneOf 32 (i.o1.lanes 32).toNat k.val)
      let r := vecOf 32 ((List.finRange 32).map (fun k => (lane k).2.2))
      { c with bsWin := Vector.ofFn (fun k : Fin 32 => (lane k).1),
               bsCnt := Vector.ofFn (fun k : Fin 32 => (lane k).2.1) }.result 4 2 (some (.vc r)) none 0) }

/-! ### Class P (R147 to R149) -/

/-- The elements of width `w` that a field of `n` elements from `first` keeps, written into .o1. -/
def packField (w first : Nat) (base : Vec) (l : List Nat) : Vec :=
  let b := base.toNat
  BitVec.ofNat 1024 (l.zipIdx.foldl (fun a p =>
    let e := first + p.2
    if (e + 1) * w ≤ 1024 then a - laneOf w a e * 2 ^ (w * e) + p.1 * 2 ^ (w * e) else a) b)

/-- Whether an element of a field is kept. -/
def packKept (w first k : Nat) : Bool := (first + k + 1) * w ≤ 1024

/-- A class P operation with code `t`. -/
def packOp (t : Nat) (rnd : Bool) (w : VIn → Nat) (f : VIn → VOut) : Op := laneOp 5 t 2 rnd w w f

/-- An integer pack (R148) of 64 lanes into elements of width `w` from element `first`: saturating, with the mask of
the clamped lanes in .q and SAT, or wrapping. -/
def packInt (w : VIn → Nat) (first : VIn → Nat) (sgn wrap : Bool) (i : VIn) : VOut :=
  let w := w i
  let first := first i
  let lo : Int := if sgn then -(2 ^ (w - 1)) else 0
  let hi : Int := if sgn then 2 ^ (w - 1) - 1 else 2 ^ w - 1
  let l := (i.bl 16).zipIdx.map (fun p =>
    let x : Int := if sgn then signedOf 16 p.1 else (p.1 : Int)
    let y := if wrap then x else max lo (min hi x)
    (patOf w y, !wrap && y != x && packKept w first p.2))
  { r := some (packField w first (i.o1.lanes 16) (l.map (·.1)))
    q := if wrap then none else some (.sc (bitsOf (l.map (·.2))))
    fl := if l.any (·.2) then flSAT else 0 }

/-- The code of a rounding field (R58). -/
def rmNum : PRm → Nat | .rne => 0 | .rtz => 1 | .sr => 2 | .rnes => 3

/-- The mode of a rounding field for an element (R149, R117): SR acts as RNE while SRE is 0 (R82). -/
def rmMode (rm : PRm) (i : VIn) (k : Nat) : RMode :=
  match rm with
  | .rne => .rne
  | .rtz => .rtz
  | .sr => if i.fpc.getLsbD 3 then .sr (srBits i.rnd k) else .rne
  | .rnes => .sat

/-- A floating pack (R149) of `n` lanes of format `f` into elements of format `g` from element `first`. -/
def packFl (f g : Fmt) (n first : Nat) (rm : PRm) (assist : Bool) (i : VIn) : VOut :=
  let l := (lanesOf f.width n (i.b.lanes f.width)).zipIdx.map (fun p =>
    let r := roundTo g (f.value p.1) (rmMode rm i p.2)
    if assist then assistLane g i.fpc r else { r with sub := false })
  { r := some (packField g.width first (i.o1.lanes f.width) (l.map (·.pat)))
    q := if rm = .rnes then some (.sc (bitsOf (l.map (fun r => r.fl &&& flSAT != 0)))) else none
    fl := (l.map (·.fl)).foldl (· ||| ·) 0
    sub := l.any (·.sub) }

/-- PACKE4 and PACKE5: from 32 F32 lanes, or 64 BF16 lanes where SRC is 1. -/
def packE (g : Fmt) (rm : PRm) (i : VIn) : VOut :=
  if i.o3.getLsbD 2 then packFl .bf16 g 64 (64 * (i.o3.toNat % 2)) rm false i
  else packFl .f32 g 32 (32 * (i.o3.toNat % 4)) rm false i

/-- PACKB16 and PACKH16. -/
def packH (g : Fmt) (rm : PRm) (i : VIn) : VOut := packFl .f32 g 32 (32 * (i.o3.toNat % 2)) rm true i

/-! ### The operations and the bundles whose one move triggers them -/


/-- XRCP (R142). -/
def opXrcp (ty : XTy) : Op := specOp 0 12 ty (vSpecial .rcp)

/-- The bundle whose one move triggers XRCP. -/
def execXrcp (g : Guard) (src : Src) (ty : XTy) (s : State) : Host.Outcome State Fault Refusal :=
  issueOne g src (opXrcp ty) s

/-- XRSQ (R142). -/
def opXrsq (ty : XTy) : Op := specOp 1 12 ty (vSpecial .rsq)

/-- The bundle whose one move triggers XRSQ. -/
def execXrsq (g : Guard) (src : Src) (ty : XTy) (s : State) : Host.Outcome State Fault Refusal :=
  issueOne g src (opXrsq ty) s

/-- XSQRT (R142). -/
def opXsqrt (ty : XTy) : Op := specOp 2 12 ty (vSpecial .sqrt)

/-- The bundle whose one move triggers XSQRT. -/
def execXsqrt (g : Guard) (src : Src) (ty : XTy) (s : State) : Host.Outcome State Fault Refusal :=
  issueOne g src (opXsqrt ty) s

/-- XEXP2 (R142). -/
def opXexp2 (ty : XTy) : Op := specOp 3 12 ty (vSpecial .exp2)

/-- The bundle whose one move triggers XEXP2. -/
def execXexp2 (g : Guard) (src : Src) (ty : XTy) (s : State) : Host.Outcome State Fault Refusal :=
  issueOne g src (opXexp2 ty) s

/-- XLOG2 (R142). -/
def opXlog2 (ty : XTy) : Op := specOp 4 12 ty (vSpecial .log2)

/-- The bundle whose one move triggers XLOG2. -/
def execXlog2 (g : Guard) (src : Src) (ty : XTy) (s : State) : Host.Outcome State Fault Refusal :=
  issueOne g src (opXlog2 ty) s

/-- XEXP (R142). -/
def opXexp (ty : XTy) : Op := specOp 5 12 ty (vSpecial .exp)

/-- The bundle whose one move triggers XEXP. -/
def execXexp (g : Guard) (src : Src) (ty : XTy) (s : State) : Host.Outcome State Fault Refusal :=
  issueOne g src (opXexp ty) s

/-- XSIN (R142). -/
def opXsin (ty : XTy) : Op := specOp 6 12 ty (vSpecial .sin)

/-- The bundle whose one move triggers XSIN. -/
def execXsin (g : Guard) (src : Src) (ty : XTy) (s : State) : Host.Outcome State Fault Refusal :=
  issueOne g src (opXsin ty) s

/-- XCOS (R142). -/
def opXcos (ty : XTy) : Op := specOp 7 12 ty (vSpecial .cos)

/-- The bundle whose one move triggers XCOS. -/
def execXcos (g : Guard) (src : Src) (ty : XTy) (s : State) : Host.Outcome State Fault Refusal :=
  issueOne g src (opXcos ty) s

/-- XTANH (R142). -/
def opXtanh (ty : XTy) : Op := specOp 8 12 ty (vSpecial .tanh)

/-- The bundle whose one move triggers XTANH. -/
def execXtanh (g : Guard) (src : Src) (ty : XTy) (s : State) : Host.Outcome State Fault Refusal :=
  issueOne g src (opXtanh ty) s

/-- XSIGM (R142). -/
def opXsigm (ty : XTy) : Op := specOp 9 12 ty (vSpecial .sigm)

/-- The bundle whose one move triggers XSIGM. -/
def execXsigm (g : Guard) (src : Src) (ty : XTy) (s : State) : Host.Outcome State Fault Refusal :=
  issueOne g src (opXsigm ty) s

/-- XGELU (R142). -/
def opXgelu (ty : XTy) : Op := specOp 10 12 ty (vSpecial .gelu)

/-- The bundle whose one move triggers XGELU. -/
def execXgelu (g : Guard) (src : Src) (ty : XTy) (s : State) : Host.Outcome State Fault Refusal :=
  issueOne g src (opXgelu ty) s

/-- XSILU (R142). -/
def opXsilu (ty : XTy) : Op := specOp 11 12 ty (vSpecial .silu)

/-- The bundle whose one move triggers XSILU. -/
def execXsilu (g : Guard) (src : Src) (ty : XTy) (s : State) : Host.Outcome State Fault Refusal :=
  issueOne g src (opXsilu ty) s

/-- XDIV (R142). -/
def opXdiv (ty : XTy) : Op := specOp 12 16 ty fnXdiv

/-- The bundle whose one move triggers XDIV. -/
def execXdiv (g : Guard) (src : Src) (ty : XTy) (s : State) : Host.Outcome State Fault Refusal :=
  issueOne g src (opXdiv ty) s

/-- UNPK4S (R143, R144, R145). -/
def opUnpk4s : Op := unpackOp 0 (fnUnpk4 true)

/-- The bundle whose one move triggers UNPK4S. -/
def execUnpk4s (g : Guard) (src : Src) (s : State) : Host.Outcome State Fault Refusal :=
  issueOne g src opUnpk4s s

/-- UNPK4Z (R143, R144, R145). -/
def opUnpk4z : Op := unpackOp 1 (fnUnpk4 false)

/-- The bundle whose one move triggers UNPK4Z. -/
def execUnpk4z (g : Guard) (src : Src) (s : State) : Host.Outcome State Fault Refusal :=
  issueOne g src opUnpk4z s

/-- UNPK6S (R143, R144, R145). -/
def opUnpk6s : Op := unpackOp 2 (fnUnpk6 true)

/-- The bundle whose one move triggers UNPK6S. -/
def execUnpk6s (g : Guard) (src : Src) (s : State) : Host.Outcome State Fault Refusal :=
  issueOne g src opUnpk6s s

/-- UNPK6Z (R143, R144, R145). -/
def opUnpk6z : Op := unpackOp 3 (fnUnpk6 false)

/-- The bundle whose one move triggers UNPK6Z. -/
def execUnpk6z (g : Guard) (src : Src) (s : State) : Host.Outcome State Fault Refusal :=
  issueOne g src opUnpk6z s

/-- UNPK8S (R143, R144, R145). -/
def opUnpk8s : Op := unpackOp 4 (fnUnpk8 true)

/-- The bundle whose one move triggers UNPK8S. -/
def execUnpk8s (g : Guard) (src : Src) (s : State) : Host.Outcome State Fault Refusal :=
  issueOne g src opUnpk8s s

/-- UNPK8Z (R143, R144, R145). -/
def opUnpk8z : Op := unpackOp 5 (fnUnpk8 false)

/-- The bundle whose one move triggers UNPK8Z. -/
def execUnpk8z (g : Guard) (src : Src) (s : State) : Host.Outcome State Fault Refusal :=
  issueOne g src opUnpk8z s

/-- UNPKE4 (R143, R144, R145). -/
def opUnpke4 : Op := unpackOp 6 (fnUnpkE .e4m3)

/-- The bundle whose one move triggers UNPKE4. -/
def execUnpke4 (g : Guard) (src : Src) (s : State) : Host.Outcome State Fault Refusal :=
  issueOne g src opUnpke4 s

/-- UNPKE5 (R143, R144, R145). -/
def opUnpke5 : Op := unpackOp 7 (fnUnpkE .e5m2)

/-- The bundle whose one move triggers UNPKE5. -/
def execUnpke5 (g : Guard) (src : Src) (s : State) : Host.Outcome State Fault Refusal :=
  issueOne g src opUnpke5 s

/-- UNPKSN4 (R143, R144, R145). -/
def opUnpksn4 : Op := unpackOp 8 (fnUnpksn4)

/-- The bundle whose one move triggers UNPKSN4. -/
def execUnpksn4 (g : Guard) (src : Src) (s : State) : Host.Outcome State Fault Refusal :=
  issueOne g src opUnpksn4 s

/-- UNPKIX (R143). -/
def opUnpkix : Op := unpackOp 11 fnUnpkix

/-- The bundle whose one move triggers UNPKIX. -/
def execUnpkix (g : Guard) (src : Src) (s : State) : Host.Outcome State Fault Refusal :=
  issueOne g src opUnpkix s

/-- The bundle whose one move triggers BSREAD. -/
def execBsread (g : Guard) (src : Src) (s : State) : Host.Outcome State Fault Refusal :=
  issueOne g src opBsread s

/-- The bundle whose one move triggers BSINIT. -/
def execBsinit (g : Guard) (src : Src) (s : State) : Host.Outcome State Fault Refusal :=
  issueOne g src opBsinit s

/-- PACK4S (R148). -/
def opPack4s (wrap : Bool) : Op := packOp (4 * 0 + wrap.toNat) false (fun _ => 16)
  (packInt (fun _ => 4) (fun i => 64 * (i.o3.toNat % 4)) true wrap)

/-- The bundle whose one move triggers PACK4S. -/
def execPack4s (g : Guard) (src : Src) (wrap : Bool) (s : State) : Host.Outcome State Fault Refusal :=
  issueOne g src (opPack4s wrap) s

/-- PACK4Z (R148). -/
def opPack4z (wrap : Bool) : Op := packOp (4 * 1 + wrap.toNat) false (fun _ => 16)
  (packInt (fun _ => 4) (fun i => 64 * (i.o3.toNat % 4)) false wrap)

/-- The bundle whose one move triggers PACK4Z. -/
def execPack4z (g : Guard) (src : Src) (wrap : Bool) (s : State) : Host.Outcome State Fault Refusal :=
  issueOne g src (opPack4z wrap) s

/-- PACK6S (R148). -/
def opPack6s (wrap : Bool) : Op := packOp (4 * 2 + wrap.toNat) false (fun _ => 16)
  (packInt (fun _ => 6) (fun i => 64 * (i.o3.toNat % 4)) true wrap)

/-- The bundle whose one move triggers PACK6S. -/
def execPack6s (g : Guard) (src : Src) (wrap : Bool) (s : State) : Host.Outcome State Fault Refusal :=
  issueOne g src (opPack6s wrap) s

/-- PACK6Z (R148). -/
def opPack6z (wrap : Bool) : Op := packOp (4 * 3 + wrap.toNat) false (fun _ => 16)
  (packInt (fun _ => 6) (fun i => 64 * (i.o3.toNat % 4)) false wrap)

/-- The bundle whose one move triggers PACK6Z. -/
def execPack6z (g : Guard) (src : Src) (wrap : Bool) (s : State) : Host.Outcome State Fault Refusal :=
  issueOne g src (opPack6z wrap) s

/-- PACK8S (R148). -/
def opPack8s (wrap : Bool) : Op := packOp (4 * 4 + wrap.toNat) false (fun _ => 16)
  (packInt (fun _ => 8) (fun i => 64 * (i.o3.toNat % 2)) true wrap)

/-- The bundle whose one move triggers PACK8S. -/
def execPack8s (g : Guard) (src : Src) (wrap : Bool) (s : State) : Host.Outcome State Fault Refusal :=
  issueOne g src (opPack8s wrap) s

/-- PACK8Z (R148). -/
def opPack8z (wrap : Bool) : Op := packOp (4 * 5 + wrap.toNat) false (fun _ => 16)
  (packInt (fun _ => 8) (fun i => 64 * (i.o3.toNat % 2)) false wrap)

/-- The bundle whose one move triggers PACK8Z. -/
def execPack8z (g : Guard) (src : Src) (wrap : Bool) (s : State) : Host.Outcome State Fault Refusal :=
  issueOne g src (opPack8z wrap) s

/-- PACKIX (R148). -/
def opPackix (wrap : Bool) : Op := packOp (40 + wrap.toNat) false (fun _ => 16)
  (packInt (fun i => widOf i.o3.toNat) (fun i => 64 * (i.o3.toNat / 4 % 8)) false wrap)

/-- The bundle whose one move triggers PACKIX. -/
def execPackix (g : Guard) (src : Src) (wrap : Bool) (s : State) : Host.Outcome State Fault Refusal :=
  issueOne g src (opPackix wrap) s

/-- PACKE4 (R149). -/
def opPacke4 (rm : PRm) : Op := packOp (4 * 6 + rmNum rm) (rm == .sr) (fun i => if i.o3.getLsbD 2 then 16 else 32) (packE .e4m3 rm)

/-- The bundle whose one move triggers PACKE4. -/
def execPacke4 (g : Guard) (src : Src) (rm : PRm) (s : State) : Host.Outcome State Fault Refusal :=
  issueOne g src (opPacke4 rm) s

/-- PACKE5 (R149). -/
def opPacke5 (rm : PRm) : Op := packOp (4 * 7 + rmNum rm) (rm == .sr) (fun i => if i.o3.getLsbD 2 then 16 else 32) (packE .e5m2 rm)

/-- The bundle whose one move triggers PACKE5. -/
def execPacke5 (g : Guard) (src : Src) (rm : PRm) (s : State) : Host.Outcome State Fault Refusal :=
  issueOne g src (opPacke5 rm) s

/-- PACKB16 (R149). -/
def opPackb16 (rm : PRm) : Op := packOp (4 * 8 + rmNum rm) (rm == .sr) (fun _ => 32) (packH .bf16 rm)

/-- The bundle whose one move triggers PACKB16. -/
def execPackb16 (g : Guard) (src : Src) (rm : PRm) (s : State) : Host.Outcome State Fault Refusal :=
  issueOne g src (opPackb16 rm) s

/-- PACKH16 (R149). -/
def opPackh16 (rm : PRm) : Op := packOp (4 * 9 + rmNum rm) (rm == .sr) (fun _ => 32) (packH .f16 rm)

/-- The bundle whose one move triggers PACKH16. -/
def execPackh16 (g : Guard) (src : Src) (rm : PRm) (s : State) : Host.Outcome State Fault Refusal :=
  issueOne g src (opPackh16 rm) s

end Sys2Proof.Machine
end

