-- ==== Sys2Proof/Machine/Rink.lean ====
section
/-! DEFINITION. Class L: rink sets and their commands (spec/11_rink.md R206 to R220; spec/14_prog_rink.md R224). Rows and
tags are sets of lanes, held as numbers whose bit L stands for lane L. -/

namespace Sys2Proof.Machine

/-! ### Reasons (R209) -/

/-- HANDLE. -/
def rsHandle : Nat := 2
/-- BUSY. -/
def rsBusy : Nat := 3
/-- ADDR. -/
def rsRAddr : Nat := 4
/-- PAGE. -/
def rsRPage : Nat := 5
/-- PARITY. -/
def rsParity : Nat := 6

/-! ### Sets and ranges (R207, R208) -/

/-- The number of set bits of a mask of `n` bits. -/
def bitCount (x : Nat) : Nat → Nat
  | 0 => 0
  | n + 1 => bitCount x n + (x.testBit n).toNat

/-- The lanes of a set. -/
def RinkSet.lanes (r : RinkSet) : Nat := 4096 * r.slices.length * bitCount r.wm.toNat 8

/-- The slice, way and bit line of a lane (R207); way 16 stands for a lane that the set does not have. -/
def RinkSet.laneHome (r : RinkSet) (l : Nat) : Option (Fin 128) × Nat × Nat :=
  let ways := (List.range 8).filter (fun i => r.wm.getLsbD i)
  let grp := l / 4096
  (r.slices[grp / ways.length]?, 8 + ways.getD (grp % ways.length) 8, l % 4096)

/-- The handle that a command names. -/
def Cmd.handle (m : Cmd) : Nat := field m.o1 0 16

/-- The set that a handle names for commands (R206, R209). -/
def State.liveSet (s : State) (h : Nat) : Option RinkSet := s.sets.find? (fun r => r.handle == h && r.live && !r.off)

/-- FIRST. -/
def Cmd.first (m : Cmd) : Nat := field m.o1 16 24

/-- The number of lanes of a command's range. -/
def Cmd.count (m : Cmd) (r : RinkSet) : Nat :=
  let n := field m.o1 40 24
  if n = 0 then r.lanes - m.first else n

/-- Whether a range starts at or ends beyond the set's last lane: R209's words, which shut the last lane out as a start (log
entry 72). -/
def Cmd.badRange (m : Cmd) (r : RinkSet) : Bool := r.lanes ≤ m.first + 1 || r.lanes < m.first + m.count r

/-- A range as a set of lanes. -/
def Cmd.range (m : Cmd) (r : RinkSet) : Nat := (2 ^ m.count r - 1) * 2 ^ m.first

/-- A row of a set. -/
def RinkSet.row (r : RinkSet) (i : Nat) : Nat := r.rows.getD i 0

/-- The lanes of `sel` in which a row is 0, or 1. -/
def RinkSet.lit (r : RinkSet) (sel i : Nat) (b : Bool) : Nat := if b then sel &&& r.row i else sel ^^^ (sel &&& r.row i)

/-- A row set to a bit in the lanes of `sel`. -/
def RinkSet.fill (r : RinkSet) (sel i : Nat) (b : Bool) : RinkSet :=
  { r with rows := r.rows.set i (if b then r.row i ||| sel else r.row i ^^^ (r.row i &&& sel)) }

/-- A row that takes the bits `x` in the lanes of `sel`. -/
def RinkSet.load (r : RinkSet) (sel i x : Nat) : RinkSet :=
  { r with rows := r.rows.set i ((r.row i ^^^ (r.row i &&& sel)) ||| (x &&& sel)) }

/-! ### Passes (R212 to R216) -/

/-- Whether a row of those that a mask of 16 selects from a base lies past row 511. -/
def rowsPast (base mask : Nat) : Bool := (List.range 16).any (fun i => mask.testBit i && 511 < base + i)

/-- The lanes of `sel` that match the key (R213). -/
def RinkSet.matches (r : RinkSet) (sel : Nat) : Nat :=
  (List.range 16).foldl (fun m i =>
    if r.mask.getLsbD i then r.lit m (r.kbase + i) (r.key.getLsbD i) else m) sel

/-- RKCMP (R213). -/
def RinkSet.compare (r : RinkSet) (sel op : Nat) : RinkSet :=
  let m := r.matches sel
  let out := r.tags ^^^ (r.tags &&& sel)
  let own := r.tags &&& sel
  { r with tags := out ||| (match op with | 0 => m | 1 => own &&& m | 2 => own ||| m | _ => own ^^^ (own &&& m)) }

/-- RKWR (R213). -/
def RinkSet.pattern (r : RinkSet) (sel : Nat) (b : Word) : RinkSet :=
  let sel := if b.getLsbD 41 then sel else sel &&& r.tags
  (List.range 16).foldl (fun r i =>
    if b.getLsbD (16 + i) then r.fill sel (field b 32 9 + i) (b.getLsbD i) else r) r

/-- Input row `j` of RKTT. -/
def ttIn (b : Word) (j : Nat) : Nat := field b (9 * j) 9

/-- The lanes of `sel` whose inputs form an index with bit 1 in a table (R214). -/
def RinkSet.table (r : RinkSet) (sel : Nat) (b : Word) (t : Nat) : Nat :=
  let n := field b 54 3
  (List.range (2 ^ n)).foldl (fun acc ix =>
    if t.testBit ix then
      acc ||| (List.range n).foldl (fun m j => r.lit m (ttIn b j) (ix.testBit j)) sel
    else acc) 0

/-- RKTT (R214). -/
def RinkSet.truth (r : RinkSet) (sel : Nat) (b o2 : Word) : RinkSet :=
  let sel := if b.getLsbD 58 then sel &&& r.tags else sel
  let x0 := r.table sel b (field o2 0 16)
  let x1 := r.table sel b (field o2 16 16)
  let q := r.load sel (field b 36 9) x0
  if b.getLsbD 57 then q.load sel (field b 45 9) x1 else q

/-- The lanes of `sel` whose `w`-bit field at a base holds a value. -/
def RinkSet.holds (r : RinkSet) (sel base w v : Nat) : Nat :=
  (List.range w).foldl (fun m i => r.lit m (base + i) (v.testBit i)) sel

/-- WID of RKMAPI: the width of the plane. -/
def mapWidth (b : Word) : Nat := match field b 11 2 with | 0 => 2 | 1 => 4 | 2 => 6 | _ => 8

/-- RKMAPI (R216): the set after it, and how many entries were clamped. -/
def RinkSet.remap (r : RinkSet) (sel : Nat) (b : Word) (x : BitVec 2048) : RinkSet × Nat :=
  let w := mapWidth b
  let base := field b 2 9
  let (q, _, n) := (List.range (2 ^ w)).foldl (fun (p : RinkSet × Nat × Nat) j =>
    let (q, todo, n) := p
    let v := min (xAt x j) (2 ^ w - 1)
    let n := if 2 ^ w ≤ xAt x j then n + 1 else n
    if v = j then (q, todo, n)
    else
      let hit := q.holds todo base w j
      ((List.range w).foldl (fun q i => q.fill hit (base + i) (v.testBit i)) q, todo ^^^ hit, n)) (r, sel, 0)
  (q, n)

/-- The lowest lane of a set of lanes, among the first `n`. -/
def lowest (x n : Nat) : Option Nat := (List.range n).find? (fun i => x.testBit i)

/-! ### Transposing loads and stores (R217, R218) -/

/-- BASE. -/
def Cmd.rBase (m : Cmd) : Nat := field m.o2 0 9
/-- The element width. -/
def Cmd.rWidth (m : Cmd) : Nat := field m.o2 9 5 + 1
/-- The bytes of the bit string. -/
def Cmd.rBytes (m : Cmd) (n : Nat) : Nat := (m.rWidth * n + 7) / 8

/-- RKLDT of the first `k` elements of the range from a bit string. -/
def RinkSet.loadBits (r : RinkSet) (m : Cmd) (k x : Nat) : RinkSet :=
  let w := m.rWidth
  let sel := (2 ^ k - 1) * 2 ^ m.first
  (List.range w).foldl (fun r j =>
    r.load sel (m.rBase + j)
      ((List.range k).foldl (fun a i => a + (x.testBit (w * i + j)).toNat * 2 ^ (m.first + i)) 0)) r

/-- The bit string of RKSTT. -/
def RinkSet.bitString (r : RinkSet) (m : Cmd) (n : Nat) : Nat :=
  let w := m.rWidth
  (List.range n).foldl (fun a i =>
    a + ((List.range w).foldl (fun v j => v + ((r.row (m.rBase + j)).testBit (m.first + i)).toNat * 2 ^ j) 0) * 2 ^ (w * i)) 0

/-! ### RKON (R210, R224) -/

/-- The slices that an RKON names. -/
def Cmd.sliceSet (m : Cmd) : List (Fin 128) :=
  (List.finRange 128).filter (fun i => if i.val < 64 then m.o1.getLsbD i.val else m.o2.getLsbD (i.val - 64))

/-- The lowest handle that is neither live nor reserved. -/
def State.freeHandle (s : State) : Option Nat :=
  (List.range 256).findSome? (fun i => if s.sets.any (fun r => r.handle == i + 1) then none else some (i + 1))

/-- RKON_ADMIT (R210): the RKON `num` passes the admission point; a context's RKONs pass in trigger order. -/
def execRkonAdmit (s : State) : Host.Outcome State Fault Refusal :=
  match s.cmd s.act.num with
  | some m =>
    if !(m.bus == 14 && m.t == 0 && m.st == .queued) ||
        s.cmds.any (fun c => c.cid == m.cid && c.bus == 14 && c.t == 0 && c.st == .queued && c.seq < m.seq) then stutter s
    else
      let e := Eff.start s
      let wm : BitVec 8 := m.b.setWidth 8
      let sl := m.sliceSet
      if wm = 0 ∨ sl = [] then done s (e.fail m rsOpnd 0)
      else if s.sets.any (fun r => r.wm &&& wm != 0 && r.slices.any (fun i => sl.contains i)) then
        done s (e.fail m rsBusy 0)
      else
        match s.freeHandle with
        | none => done s (e.fail m rsBusy 0)
        | some h =>
          let r : RinkSet :=
            { handle := h, live := false, off := false, wm := wm, slices := sl, rows := List.replicate 512 0, tags := 0,
              key := 0, mask := 0, kbase := 0 }
          let e := e.on (fun s => { s with sets := s.sets ++ [r] })
          done s (e.cmd m.uid (fun c => { c with st := .started, slices := sl, prog := h }))
  | none => stutter s

/-- Whether a line of device memory lies in one of the ways of a mask in a slice, as it is kept on an occasion. -/
def lineIn (wm : BitVec 8) (i : Fin 128) (k way : Nat) : Bool :=
  k < 2 ^ 40 && homeSlice k == i.val && 8 ≤ way && wm.getLsbD (way - 8)

/-- Whether a slice must wait before it switches the ways of a mask: a tile-fetch pin is in them, or a home atomic is pending
on a line of theirs (R198, R210). -/
def sliceBusy (s : State) (wm : BitVec 8) (i : Fin 128) : Bool :=
  s.pins.any (fun l => lineIn wm i l.key l.way) ||
  s.cmds.any (fun c => c.st == .accepted && lineIn wm i c.key c.left)

/-- RKON_SLICE_SWITCH (R210): slice `eng` switches the ways of the RKON `num`. -/
def execRkonSliceSwitch (s : State) : Host.Outcome State Fault Refusal :=
  match s.cmd s.act.num with
  | some m =>
    if !(m.bus == 14 && m.t == 0 && m.st == .started && m.slices.contains s.act.eng) ||
        sliceBusy s (m.b.setWidth 8) s.act.eng then stutter s
    else
      let left := m.slices.filter (fun i => i != s.act.eng)
      let e := (Eff.start s).cmd m.uid (fun c => { c with slices := left })
      done s (if left = [] then e.fin m.uid codeDone 0 0 m.prog else e)
  | none => stutter s

/-! ### The sequencer (R219, R220) -/

/-- The row check of a command (R209). -/
def Cmd.badRows (m : Cmd) : Bool :=
  match m.t with
  | 2 | 3 => 511 < m.rBase + m.rWidth - 1
  | 4 => rowsPast (field m.b 32 9) (field m.b 16 16)
  | 6 => rowsPast (field m.b 32 9) (field m.b 16 16)
  | 7 => 4 < field m.b 54 3 || (m.b.getLsbD 57 && field m.b 36 9 == field m.b 45 9)
  | 10 => 511 < field m.b 2 9 + mapWidth m.b - 1
  | _ => false

/-- Whether a command reads rows, so that a row's parity may fail it (R220). -/
def Cmd.readsRows (m : Cmd) (r : RinkSet) : Bool :=
  match m.t with
  | 3 => true
  | 5 => r.mask != 0
  | 7 => field m.b 54 3 != 0
  | 10 => (List.range (2 ^ mapWidth m.b)).any (fun j => min (xAt m.xreg j) (2 ^ mapWidth m.b - 1) != j)
  | _ => false

/-- Whether a pass reads a row in the 64-lane group `g` (R220): any group of the set, also one outside the command's range
(log entry 48). -/
def Cmd.readsGroup (m : Cmd) (r : RinkSet) (g : Nat) : Bool := m.readsRows r && 64 * g < r.lanes

/-- A set in which the lanes below a bound hold the new values and the others the old ones. -/
def RinkSet.cut (old new : RinkSet) (bound : Nat) : RinkSet :=
  let lo := 2 ^ bound - 1
  { new with tags := (new.tags &&& lo) ||| (old.tags ^^^ (old.tags &&& lo))
             rows := (List.range 512).map (fun i => (new.row i &&& lo) ||| (old.row i ^^^ (old.row i &&& lo))) }

/-- The set of a handle replaced. -/
def Eff.putSet (e : Eff) (r : RinkSet) : Eff :=
  e.on (fun s => { s with sets := s.sets.map (fun q => if q.handle = r.handle then r else q) })

/-- The reason for which RKLDT or RKSTT fails its checks on its extent, ADDR before LINK (R218, R374, log entry 36); none within
while the host's reply for a page is awaited. -/
def Cmd.extentBad (m : Cmd) (s : State) (r : RinkSet) : Option (Option Nat) :=
  let n := m.cid.core
  let len := m.rBytes (m.count r)
  if !(mxReach n m.b && extentOk m.b len) then some (some rsRAddr)
  else if !pagesKnown s n (s.pasidOf m) m.b len then none
  else if unlinked s n (s.pasidOf m) m.b len (m.t == 3) then some (some rsLink)
  else some none

/-- The bytes that an RKLDT reads: of the sectors that it has read ahead, or of memory as the step reads it. Each sector is
read whole, and once (R219, R240). -/
def Cmd.loadBytes (m : Cmd) (s : State) (len : Nat) : List Byte :=
  (List.range len).map (fun i =>
    let a := m.b + BitVec.ofNat 64 i
    match m.seen.find? (fun p => p.1 == a.toNat / 32) with
    | some p => p.2.getD (a.toNat % 32) 0
    | none => (readBytes s m.cid.core (s.pasidOf m) a 1).headD 0)

/-- The extent of an RKLDT or RKSTT takes its grant as the set's sequencer admits it, where NUM is 0 (R97). -/
def Eff.rinkGrants (e : Eff) (m : Cmd) (r : RinkSet) : Eff :=
  if field m.o1 40 24 = 0 then e.grants m [(m.b, m.rBytes (m.count r))] else e

/-- An RKLDT that is admitted reads sector `j` of its extent (R219, R240); none where it may not read it now, or has. -/
def Eff.loadSector (e : Eff) (m : Cmd) (r : RinkSet) (j : Nat) : Option Eff :=
  let e := e.rinkGrants m r
  let s := e.st
  let p := s.pasidOf m
  let ok := (okBytes s m.cid.core p m.b (m.rBytes (m.count r)) false).1
  let a := (m.b &&& ~~~31) + BitVec.ofNat 64 (32 * j)
  if ok + m.b.toNat % 32 ≤ 32 * j ∨ m.seen.any (fun q => q.1 == a.toNat / 32) ∨ !engineFree s m.cid p m.b ok then none
  else some ((e.touching m [(m.b, ok)]).cmd m.uid (fun c =>
    { c with st := .started, seen := c.seen ++ [(a.toNat / 32, readBytes s m.cid.core p a 32)] }))

/-- RKLDT or RKSTT, whose checks it passes (R217, R218); none while its granules are held back. -/
def Eff.transpose (e : Eff) (m : Cmd) (r : RinkSet) : Option Eff :=
  let n := m.cid.core
  let cnt := m.count r
  let len := m.rBytes cnt
  let e := e.rinkGrants m r
  let s := e.st
  let p := s.pasidOf m
  let ok := (okBytes s n p m.b len (m.t == 3)).1
  if !engineFree s m.cid p m.b ok then none
  else
    let e := e.touching m [(m.b, ok)]
    let e := if m.t = 2 then
        let k := if ok = len then cnt else 8 * ok / m.rWidth
        e.putSet (r.loadBits m k (leNat (m.loadBytes s ok)))
      else e.lay (.cmd m.uid) (writeBytes s n p m.b ((leBytes len (r.bitString m cnt)).take ok))
    some (if ok = len then e.fin m.uid codeDone 0 0 m.handle
      else e.fin m.uid codePartial rsRPage ((m.b.toNat + ok) / 32 - m.b.toNat / 32) m.handle)

/-- A command that its set's sequencer has admitted and whose checks it passes. -/
def Eff.rinkRun (e : Eff) (m : Cmd) (r : RinkSet) : Option Eff :=
  let sel := m.range r
  let ok (q : RinkSet) (cnt : Nat) : Option Eff := some ((e.putSet q).fin m.uid codeDone 0 cnt m.handle)
  match m.t with
  | 1 => ok { r with off := true } 0
  | 2 | 3 => e.transpose m r
  | 4 => ok { r with key := m.b.setWidth 16, mask := m.b.extractLsb' 16 16, kbase := field m.b 32 9 } 0
  | 5 => ok (r.compare sel (field m.b 0 2)) 0
  | 6 => ok (r.pattern sel m.b) 0
  | 7 => ok (r.truth sel m.b m.o2) 0
  | 8 => some (e.fin m.uid codeDone 0 (bitCount (r.tags &&& sel) r.lanes) m.handle)
  | 9 =>
    match lowest (r.tags &&& sel) r.lanes with
    | some l => some (e.fin m.uid codeDone 0 1 l)
    | none => some (e.fin m.uid codeDone 0 0 0xFFFFFFFF)
  | 10 => let (q, n) := r.remap sel m.b m.xreg; ok q n
  | _ => none

/-- A command whose pass fails the parity of a row in the 64-lane group from lane `64 g` on: the groups before it hold
the command's writes, it and the later ones none, and the launch ends with the fault (R220, R363). -/
def Eff.rinkParity (e : Eff) (m : Cmd) (r : RinkSet) (g : Nat) : Eff :=
  let sel := m.range r
  let new := match m.t with
    | 5 => r.compare sel (field m.b 0 2)
    | 7 => r.truth sel m.b m.o2
    | 10 => (r.remap sel m.b m.xreg).1
    | _ => r
  ((e.putSet (r.cut new (64 * g))).fail m rsParity m.handle).on (fun s => s.launchFault ⟨0, 0⟩ 7)

/-- Whether a set is still at work for another command: an RKLDT that has read some of its bytes, or an RKSTT of which sectors
are in flight (R219). -/
def State.setBusy (s : State) (m : Cmd) : Bool :=
  s.cmds.any (fun c => c.uid != m.uid && c.bus == 14 && c.t != 0 && c.handle == m.handle &&
    (c.st == .started || (c.st == .fin && !(s.flightsOf (.cmd c.uid)).isEmpty)))

/-- RINK_SET_ADMIT (R219): the command `num` is admitted at its set and performed in every slice. `flag` says that a row that
it reads in the group `hi` fails its parity. Where the step picks one, an RKLDT reads that sector of its extent, or a sector
in flight of the command performs. -/
def execRinkSetAdmit (s : State) : Host.Outcome State Fault Refusal :=
  match s.cmd s.act.num with
  | some m =>
    if !(m.bus == 14 && m.t != 0 && (m.st == .queued || (m.st == .started && m.t == 2))) || s.setBusy m || !storesDone (s.ctx m.cid) m.seq ||
        s.cmds.any (fun c => c.cid == m.cid && c.bus == 14 && c.t != 0 && c.st == .queued && c.seq < m.seq &&
          c.handle == m.handle) then
      (match s.act.pick with
       | some j => if m.bus = 14 then s.landOne (.cmd m.uid) j else stutter s
       | none => stutter s)
    else
      let e := Eff.start s
      match s.liveSet m.handle with
      | none => done s (e.fail m rsHandle m.handle)
      | some r =>
        if m.badRows || (m.t != 1 && m.t != 4 && m.badRange r) then done s (e.fail m rsOpnd m.handle)
        else
          match (if m.t = 2 ∨ m.t = 3 then m.extentBad s r else some none) with
          | none => stutter s
          | some (some x) => done s (e.fail m x m.handle)
          | some none =>
            if m.t = 2 ∧ s.act.pick.isSome then
              match e.loadSector m r (s.act.pick.getD 0) with
              | some e => done s e
              | none => stutter s
            else if s.act.flag && m.readsGroup r s.act.hi then done s (e.rinkParity m r s.act.hi)
            else
              match e.rinkRun m r with
              | some e => done s e
              | none => stutter s
  | none => stutter s

/-! ### The operations and the bundles whose one move triggers them -/

/-- RKON (R208). -/
def opRkon : Op :=
  cmdOp 14 0 (fun _ => []) (fun _ m => m) (fun _ => false)

/-- The bundle whose one move triggers RKON. -/
def execRkon (g : Guard) (src : Src) (s : State) : Host.Outcome State Fault Refusal :=
  issueOne g src opRkon s

/-- RKOFF (R208). -/
def opRkoff : Op :=
  cmdOp 14 1 (fun _ => []) (fun _ m => m) (fun _ => false)

/-- The bundle whose one move triggers RKOFF. -/
def execRkoff (g : Guard) (src : Src) (s : State) : Host.Outcome State Fault Refusal :=
  issueOne g src opRkoff s

/-- RKLDT (R208); with NUM 0 its granules are named when it is admitted (R97). -/
def opRkldt : Op :=
  cmdOp 14 2
    (fun i =>
      let n := field i.o1.word 40 24
      [(i.b.word, ((field i.o2.word 9 5 + 1) * n + 7) / 8)])
    (fun _ m => m) (fun _ => false)

/-- The bundle whose one move triggers RKLDT. -/
def execRkldt (g : Guard) (src : Src) (s : State) : Host.Outcome State Fault Refusal :=
  issueOne g src opRkldt s

/-- RKSTT (R208); with NUM 0 its granules are named when it is admitted (R97). -/
def opRkstt : Op :=
  cmdOp 14 3
    (fun i =>
      let n := field i.o1.word 40 24
      [(i.b.word, ((field i.o2.word 9 5 + 1) * n + 7) / 8)])
    (fun _ m => m) (fun _ => false)

/-- The bundle whose one move triggers RKSTT. -/
def execRkstt (g : Guard) (src : Src) (s : State) : Host.Outcome State Fault Refusal :=
  issueOne g src opRkstt s

/-- RKKEY (R208). -/
def opRkkey : Op :=
  cmdOp 14 4 (fun _ => []) (fun _ m => m) (fun _ => false)

/-- The bundle whose one move triggers RKKEY. -/
def execRkkey (g : Guard) (src : Src) (s : State) : Host.Outcome State Fault Refusal :=
  issueOne g src opRkkey s

/-- RKCMP (R208). -/
def opRkcmp : Op :=
  cmdOp 14 5 (fun _ => []) (fun _ m => m) (fun _ => false)

/-- The bundle whose one move triggers RKCMP. -/
def execRkcmp (g : Guard) (src : Src) (s : State) : Host.Outcome State Fault Refusal :=
  issueOne g src opRkcmp s

/-- RKWR (R208). -/
def opRkwr : Op :=
  cmdOp 14 6 (fun _ => []) (fun _ m => m) (fun _ => false)

/-- The bundle whose one move triggers RKWR. -/
def execRkwr (g : Guard) (src : Src) (s : State) : Host.Outcome State Fault Refusal :=
  issueOne g src opRkwr s

/-- RKTT (R208). -/
def opRktt : Op :=
  cmdOp 14 7 (fun _ => []) (fun _ m => m) (fun _ => false)

/-- The bundle whose one move triggers RKTT. -/
def execRktt (g : Guard) (src : Src) (s : State) : Host.Outcome State Fault Refusal :=
  issueOne g src opRktt s

/-- RKCNT (R208). -/
def opRkcnt : Op :=
  cmdOp 14 8 (fun _ => []) (fun _ m => m) (fun _ => false)

/-- The bundle whose one move triggers RKCNT. -/
def execRkcnt (g : Guard) (src : Src) (s : State) : Host.Outcome State Fault Refusal :=
  issueOne g src opRkcnt s

/-- RKFIND (R208). -/
def opRkfind : Op :=
  cmdOp 14 9 (fun _ => []) (fun _ m => m) (fun _ => false)

/-- The bundle whose one move triggers RKFIND. -/
def execRkfind (g : Guard) (src : Src) (s : State) : Host.Outcome State Fault Refusal :=
  issueOne g src opRkfind s

/-- RKMAPI (R208, R216): it captures its x register, and waits for KB to write it. -/
def opRkmapi : Op :=
  cmdOp 14 10 (fun _ => []) (fun i m => { m with xreg := i.c.xSeen (xIx (field i.b.word 0 2)) })
    (fun i => i.s.kbWrites i.cid true (field i.b.word 0 2))

/-- The bundle whose one move triggers RKMAPI. -/
def execRkmapi (g : Guard) (src : Src) (s : State) : Host.Outcome State Fault Refusal :=
  issueOne g src opRkmapi s

end Sys2Proof.Machine
end

