-- ==== Sys2Proof/Machine/Scalar.lean ====
section
/-! DEFINITION. Class S: the scalar units SA0 and SA1 (spec/04_core_ops.md R67, R68; spec/03_portmap.md R54). -/

namespace Sys2Proof.Machine

/-! ### Results at width N (R67) -/

/-- Leading zero bits of an N-bit value; N for zero. -/
def clzN (n : Nat) (b : BitVec n) : Nat := if b.toNat = 0 then n else n - 1 - Nat.log2 b.toNat

/-- Trailing zero bits of a number, counted up to `n`. -/
def ctzFrom (x : Nat) : Nat → Nat → Nat
  | 0, k => k
  | n + 1, k => if x.testBit k then k else ctzFrom x n (k + 1)

/-- One bits of a number below 2^n. -/
def popcount (n x : Nat) : Nat := ((List.range n).filter (fun i => x.testBit i)).length

/-- The length field of EXTB and INSB. -/
def fieldLen {n : Nat} (b : BitVec n) : Nat := min (b.toNat / 256 % 128) 64

/-- The position field of EXTB and INSB. -/
def fieldPos {n : Nat} (b : BitVec n) : Nat := b.toNat % 64

/-- The mask of INSB: bits at or above N are dropped. -/
def fieldMask {n : Nat} (b : BitVec n) : BitVec n := BitVec.ofNat n ((2 ^ fieldLen b - 1) * 2 ^ fieldPos b)

/-- 1 or 0. -/
def bit01 (n : Nat) (p : Bool) : BitVec n := BitVec.ofNat n p.toNat

/-- An operation at width N by the W bit (R67): 64, or 32 with the result sign-extended. -/
def atWidth (w : Bool) (f : (n : Nat) → BitVec n → BitVec n → BitVec n → BitVec n) (a b c : Word) : Word :=
  if w then (f 32 (a.setWidth 32) (b.setWidth 32) (c.setWidth 32)).signExtend 64 else f 64 a b c

/-- SEXT and ZEXT: the width field in a[6:0]. -/
def extendField (sgn : Bool) (a b : Word) : Word :=
  let w := a.toNat % 128
  if w = 0 ∨ 64 ≤ w then b
  else if sgn ∧ b.getLsbD (w - 1) then BitVec.ofNat 64 (b.toNat % 2 ^ w) ||| BitVec.ofNat 64 (2 ^ 64 - 2 ^ w)
  else BitVec.ofNat 64 (b.toNat % 2 ^ w)

/-- The bytes of a value in reverse order. -/
def byteSwap (n : Nat) (b : BitVec n) : BitVec n := BitVec.ofNat n (leNat (leBytes (n / 8) b.toNat).reverse)

/-! ### Division (R68) -/

/-- Quotient and remainder, signed: toward zero, with the two fixed cases. -/
def divS (n : Nat) (a b : BitVec n) : BitVec n × BitVec n :=
  if b = 0 then (BitVec.allOnes n, a)
  else (BitVec.ofInt n (a.toInt.tdiv b.toInt), BitVec.ofInt n (a.toInt.tmod b.toInt))

/-- Quotient and remainder, unsigned. -/
def divU (n : Nat) (a b : BitVec n) : BitVec n × BitVec n :=
  if b = 0 then (BitVec.allOnes n, a) else (a / b, a % b)

/-! ### The operations -/

/-- The unit of SA0 or SA1. -/
def saUnit (u : Fin 2) : Fin 15 := ⟨u.val, by omega⟩

/-- A class S operation with code `t` and latency `lat` whose result is a function of a, b and c. -/
def scalarOp (u : Fin 2) (t lat : Nat) (f : Word → Word → Word → Word) : Op :=
  { bus := saUnit u, t := t, res := true
    eff := fun i s => s.modCtx i.cid (fun c =>
      c.result (saUnit u) lat (some (.sc (f i.o1.word i.b.word i.o2.word))) none 0) }

/-- A division with code `t`: `q` tells which of quotient and remainder goes to .r; DZ with a zero divisor (R68). -/
def divOp (u : Fin 2) (t : Nat) (w quot : Bool) (f : (n : Nat) → BitVec n → BitVec n → BitVec n × BitVec n) : Op :=
  { bus := saUnit u, t := t, res := true
    eff := fun i s =>
      let a := i.o1.word
      let b := i.b.word
      let x := atWidth w (fun n a b _ => (f n a b).1) a b 0
      let y := atWidth w (fun n a b _ => (f n a b).2) a b 0
      let dz : Bool := if w then b.setWidth 32 = 0#32 else b = 0
      s.modCtx i.cid (fun c => c.result (saUnit u) 12
        (some (.sc (if quot then x else y))) (some (.sc (if quot then y else x))) (if dz then 2 else 0)) }

/-- ADD (R67): Scalar add. -/
def opAdd (u : Fin 2) (w : Bool) : Op :=
  scalarOp u (0 + w.toNat) 1 (atWidth w (fun _ a b _ => a + b))

/-- The bundle whose one move triggers ADD. -/
def execAdd (u : Fin 2) (g : Guard) (src : Src) (w : Bool) (s : State) :
    Host.Outcome State Fault Refusal := issueOne g src (opAdd u w) s

/-- SUB (R67): Scalar subtract o1 − b. -/
def opSub (u : Fin 2) (w : Bool) : Op :=
  scalarOp u (2 + w.toNat) 1 (atWidth w (fun _ a b _ => a - b))

/-- The bundle whose one move triggers SUB. -/
def execSub (u : Fin 2) (g : Guard) (src : Src) (w : Bool) (s : State) :
    Host.Outcome State Fault Refusal := issueOne g src (opSub u w) s

/-- MUL (R67): Scalar multiply, low bits. -/
def opMul (u : Fin 2) (w : Bool) : Op :=
  scalarOp u (4 + w.toNat) 3 (atWidth w (fun _ a b _ => a * b))

/-- The bundle whose one move triggers MUL. -/
def execMul (u : Fin 2) (g : Guard) (src : Src) (w : Bool) (s : State) :
    Host.Outcome State Fault Refusal := issueOne g src (opMul u w) s

/-- MULH (R67): High bits of the signed product. -/
def opMulh (u : Fin 2) (w : Bool) : Op :=
  scalarOp u (6 + w.toNat) 3 (atWidth w (fun n a b _ => BitVec.ofInt n (a.toInt * b.toInt / 2 ^ n)))

/-- The bundle whose one move triggers MULH. -/
def execMulh (u : Fin 2) (g : Guard) (src : Src) (w : Bool) (s : State) :
    Host.Outcome State Fault Refusal := issueOne g src (opMulh u w) s

/-- MULHU (R67): High bits of the unsigned product. -/
def opMulhu (u : Fin 2) (w : Bool) : Op :=
  scalarOp u (8 + w.toNat) 3 (atWidth w (fun n a b _ => BitVec.ofNat n (a.toNat * b.toNat / 2 ^ n)))

/-- The bundle whose one move triggers MULHU. -/
def execMulhu (u : Fin 2) (g : Guard) (src : Src) (w : Bool) (s : State) :
    Host.Outcome State Fault Refusal := issueOne g src (opMulhu u w) s

/-- DIV (R68): Signed division, quotient to .r and remainder to .q. -/
def opDiv (u : Fin 2) (w : Bool) : Op := divOp u (10 + w.toNat) w true divS

/-- The bundle whose one move triggers DIV. -/
def execDiv (u : Fin 2) (g : Guard) (src : Src) (w : Bool) (s : State) :
    Host.Outcome State Fault Refusal := issueOne g src (opDiv u w) s

/-- DIVU (R68): Unsigned division, quotient to .r and remainder to .q. -/
def opDivu (u : Fin 2) (w : Bool) : Op := divOp u (12 + w.toNat) w true divU

/-- The bundle whose one move triggers DIVU. -/
def execDivu (u : Fin 2) (g : Guard) (src : Src) (w : Bool) (s : State) :
    Host.Outcome State Fault Refusal := issueOne g src (opDivu u w) s

/-- REM (R68): Signed remainder to .r, quotient to .q. -/
def opRem (u : Fin 2) (w : Bool) : Op := divOp u (14 + w.toNat) w false divS

/-- The bundle whose one move triggers REM. -/
def execRem (u : Fin 2) (g : Guard) (src : Src) (w : Bool) (s : State) :
    Host.Outcome State Fault Refusal := issueOne g src (opRem u w) s

/-- REMU (R68): Unsigned remainder to .r, quotient to .q. -/
def opRemu (u : Fin 2) (w : Bool) : Op := divOp u (16 + w.toNat) w false divU

/-- The bundle whose one move triggers REMU. -/
def execRemu (u : Fin 2) (g : Guard) (src : Src) (w : Bool) (s : State) :
    Host.Outcome State Fault Refusal := issueOne g src (opRemu u w) s

/-- AND (R67): Bitwise AND. -/
def opAnd (u : Fin 2) (w : Bool) : Op :=
  scalarOp u (18 + w.toNat) 1 (atWidth w (fun _ a b _ => a &&& b))

/-- The bundle whose one move triggers AND. -/
def execAnd (u : Fin 2) (g : Guard) (src : Src) (w : Bool) (s : State) :
    Host.Outcome State Fault Refusal := issueOne g src (opAnd u w) s

/-- OR (R67): Bitwise OR. -/
def opOr (u : Fin 2) (w : Bool) : Op :=
  scalarOp u (20 + w.toNat) 1 (atWidth w (fun _ a b _ => a ||| b))

/-- The bundle whose one move triggers OR. -/
def execOr (u : Fin 2) (g : Guard) (src : Src) (w : Bool) (s : State) :
    Host.Outcome State Fault Refusal := issueOne g src (opOr u w) s

/-- XOR (R67): Bitwise XOR. -/
def opXor (u : Fin 2) (w : Bool) : Op :=
  scalarOp u (22 + w.toNat) 1 (atWidth w (fun _ a b _ => a ^^^ b))

/-- The bundle whose one move triggers XOR. -/
def execXor (u : Fin 2) (g : Guard) (src : Src) (w : Bool) (s : State) :
    Host.Outcome State Fault Refusal := issueOne g src (opXor u w) s

/-- ANDN (R67): A AND NOT B. -/
def opAndn (u : Fin 2) (w : Bool) : Op :=
  scalarOp u (24 + w.toNat) 1 (atWidth w (fun _ a b _ => a &&& ~~~b))

/-- The bundle whose one move triggers ANDN. -/
def execAndn (u : Fin 2) (g : Guard) (src : Src) (w : Bool) (s : State) :
    Host.Outcome State Fault Refusal := issueOne g src (opAndn u w) s

/-- SHL (R67): Shift left. -/
def opShl (u : Fin 2) (w : Bool) : Op :=
  scalarOp u (26 + w.toNat) 1 (atWidth w (fun n a b _ => a <<< (b.toNat % n)))

/-- The bundle whose one move triggers SHL. -/
def execShl (u : Fin 2) (g : Guard) (src : Src) (w : Bool) (s : State) :
    Host.Outcome State Fault Refusal := issueOne g src (opShl u w) s

/-- SHR (R67): Logical shift right. -/
def opShr (u : Fin 2) (w : Bool) : Op :=
  scalarOp u (28 + w.toNat) 1 (atWidth w (fun n a b _ => a >>> (b.toNat % n)))

/-- The bundle whose one move triggers SHR. -/
def execShr (u : Fin 2) (g : Guard) (src : Src) (w : Bool) (s : State) :
    Host.Outcome State Fault Refusal := issueOne g src (opShr u w) s

/-- SAR (R67): Arithmetic shift right. -/
def opSar (u : Fin 2) (w : Bool) : Op :=
  scalarOp u (30 + w.toNat) 1 (atWidth w (fun n a b _ => a.sshiftRight (b.toNat % n)))

/-- The bundle whose one move triggers SAR. -/
def execSar (u : Fin 2) (g : Guard) (src : Src) (w : Bool) (s : State) :
    Host.Outcome State Fault Refusal := issueOne g src (opSar u w) s

/-- ROL (R67): Rotate left. -/
def opRol (u : Fin 2) (w : Bool) : Op :=
  scalarOp u (32 + w.toNat) 1 (atWidth w (fun n a b _ => a.rotateLeft (b.toNat % n)))

/-- The bundle whose one move triggers ROL. -/
def execRol (u : Fin 2) (g : Guard) (src : Src) (w : Bool) (s : State) :
    Host.Outcome State Fault Refusal := issueOne g src (opRol u w) s

/-- CLZ (R67): Count leading zeros of b. -/
def opClz (u : Fin 2) (w : Bool) : Op :=
  scalarOp u (34 + w.toNat) 1 (atWidth w (fun n _ b _ => BitVec.ofNat n (clzN n b)))

/-- The bundle whose one move triggers CLZ. -/
def execClz (u : Fin 2) (g : Guard) (src : Src) (w : Bool) (s : State) :
    Host.Outcome State Fault Refusal := issueOne g src (opClz u w) s

/-- CTZ (R67): Count trailing zeros of b. -/
def opCtz (u : Fin 2) (w : Bool) : Op :=
  scalarOp u (36 + w.toNat) 1 (atWidth w (fun n _ b _ => BitVec.ofNat n (ctzFrom b.toNat n 0)))

/-- The bundle whose one move triggers CTZ. -/
def execCtz (u : Fin 2) (g : Guard) (src : Src) (w : Bool) (s : State) :
    Host.Outcome State Fault Refusal := issueOne g src (opCtz u w) s

/-- POPC (R67): Count one bits of b. -/
def opPopc (u : Fin 2) (w : Bool) : Op :=
  scalarOp u (38 + w.toNat) 1 (atWidth w (fun n _ b _ => BitVec.ofNat n (popcount n b.toNat)))

/-- The bundle whose one move triggers POPC. -/
def execPopc (u : Fin 2) (g : Guard) (src : Src) (w : Bool) (s : State) :
    Host.Outcome State Fault Refusal := issueOne g src (opPopc u w) s

/-- MIN (R67): Signed minimum. -/
def opMin (u : Fin 2) (w : Bool) : Op :=
  scalarOp u (40 + w.toNat) 1 (atWidth w (fun _ a b _ => if b.slt a then b else a))

/-- The bundle whose one move triggers MIN. -/
def execMin (u : Fin 2) (g : Guard) (src : Src) (w : Bool) (s : State) :
    Host.Outcome State Fault Refusal := issueOne g src (opMin u w) s

/-- MAX (R67): Signed maximum. -/
def opMax (u : Fin 2) (w : Bool) : Op :=
  scalarOp u (42 + w.toNat) 1 (atWidth w (fun _ a b _ => if a.slt b then b else a))

/-- The bundle whose one move triggers MAX. -/
def execMax (u : Fin 2) (g : Guard) (src : Src) (w : Bool) (s : State) :
    Host.Outcome State Fault Refusal := issueOne g src (opMax u w) s

/-- MINU (R67): Unsigned minimum. -/
def opMinu (u : Fin 2) (w : Bool) : Op :=
  scalarOp u (44 + w.toNat) 1 (atWidth w (fun _ a b _ => if b.ult a then b else a))

/-- The bundle whose one move triggers MINU. -/
def execMinu (u : Fin 2) (g : Guard) (src : Src) (w : Bool) (s : State) :
    Host.Outcome State Fault Refusal := issueOne g src (opMinu u w) s

/-- MAXU (R67): Unsigned maximum. -/
def opMaxu (u : Fin 2) (w : Bool) : Op :=
  scalarOp u (46 + w.toNat) 1 (atWidth w (fun _ a b _ => if a.ult b then b else a))

/-- The bundle whose one move triggers MAXU. -/
def execMaxu (u : Fin 2) (g : Guard) (src : Src) (w : Bool) (s : State) :
    Host.Outcome State Fault Refusal := issueOne g src (opMaxu u w) s

/-- CMPEQ (R67): 1 if equal. -/
def opCmpeq (u : Fin 2) (w : Bool) : Op :=
  scalarOp u (48 + w.toNat) 1 (atWidth w (fun n a b _ => bit01 n (a == b)))

/-- The bundle whose one move triggers CMPEQ. -/
def execCmpeq (u : Fin 2) (g : Guard) (src : Src) (w : Bool) (s : State) :
    Host.Outcome State Fault Refusal := issueOne g src (opCmpeq u w) s

/-- CMPNE (R67): 1 if not equal. -/
def opCmpne (u : Fin 2) (w : Bool) : Op :=
  scalarOp u (50 + w.toNat) 1 (atWidth w (fun n a b _ => bit01 n (a != b)))

/-- The bundle whose one move triggers CMPNE. -/
def execCmpne (u : Fin 2) (g : Guard) (src : Src) (w : Bool) (s : State) :
    Host.Outcome State Fault Refusal := issueOne g src (opCmpne u w) s

/-- CMPLT (R67): 1 if signed less. -/
def opCmplt (u : Fin 2) (w : Bool) : Op :=
  scalarOp u (52 + w.toNat) 1 (atWidth w (fun n a b _ => bit01 n (a.slt b)))

/-- The bundle whose one move triggers CMPLT. -/
def execCmplt (u : Fin 2) (g : Guard) (src : Src) (w : Bool) (s : State) :
    Host.Outcome State Fault Refusal := issueOne g src (opCmplt u w) s

/-- CMPLTU (R67): 1 if unsigned less. -/
def opCmpltu (u : Fin 2) (w : Bool) : Op :=
  scalarOp u (54 + w.toNat) 1 (atWidth w (fun n a b _ => bit01 n (a.ult b)))

/-- The bundle whose one move triggers CMPLTU. -/
def execCmpltu (u : Fin 2) (g : Guard) (src : Src) (w : Bool) (s : State) :
    Host.Outcome State Fault Refusal := issueOne g src (opCmpltu u w) s

/-- CMPLE (R67): 1 if signed less or equal. -/
def opCmple (u : Fin 2) (w : Bool) : Op :=
  scalarOp u (56 + w.toNat) 1 (atWidth w (fun n a b _ => bit01 n (a.sle b)))

/-- The bundle whose one move triggers CMPLE. -/
def execCmple (u : Fin 2) (g : Guard) (src : Src) (w : Bool) (s : State) :
    Host.Outcome State Fault Refusal := issueOne g src (opCmple u w) s

/-- CMPLEU (R67): 1 if unsigned less or equal. -/
def opCmpleu (u : Fin 2) (w : Bool) : Op :=
  scalarOp u (58 + w.toNat) 1 (atWidth w (fun n a b _ => bit01 n (a.ule b)))

/-- The bundle whose one move triggers CMPLEU. -/
def execCmpleu (u : Fin 2) (g : Guard) (src : Src) (w : Bool) (s : State) :
    Host.Outcome State Fault Refusal := issueOne g src (opCmpleu u w) s

/-- SEL (R67): b if o1 non-zero, else o2. -/
def opSel (u : Fin 2) : Op := scalarOp u 60 1 (fun a b c => if a ≠ 0 then b else c)

/-- The bundle whose one move triggers SEL. -/
def execSel (u : Fin 2) (g : Guard) (src : Src) (s : State) :
    Host.Outcome State Fault Refusal := issueOne g src (opSel u) s

/-- EXTB (R67): Extract a bit field. -/
def opExtb (u : Fin 2) (w : Bool) : Op :=
  scalarOp u (62 + w.toNat) 1 (atWidth w (fun n a b _ => BitVec.ofNat n (a.toNat / 2 ^ fieldPos b % 2 ^ fieldLen b)))

/-- The bundle whose one move triggers EXTB. -/
def execExtb (u : Fin 2) (g : Guard) (src : Src) (w : Bool) (s : State) :
    Host.Outcome State Fault Refusal := issueOne g src (opExtb u w) s

/-- INSB (R67): Insert a bit field from o2. -/
def opInsb (u : Fin 2) (w : Bool) : Op :=
  scalarOp u (64 + w.toNat) 1 (atWidth w (fun _ a b c => (a &&& ~~~fieldMask b) ||| ((c <<< fieldPos b) &&& fieldMask b)))

/-- The bundle whose one move triggers INSB. -/
def execInsb (u : Fin 2) (g : Guard) (src : Src) (w : Bool) (s : State) :
    Host.Outcome State Fault Refusal := issueOne g src (opInsb u w) s

/-- SEXT (R67): Sign-extend b from width o1. -/
def opSext (u : Fin 2) : Op := scalarOp u 66 1 (fun a b _ => extendField true a b)

/-- The bundle whose one move triggers SEXT. -/
def execSext (u : Fin 2) (g : Guard) (src : Src) (s : State) :
    Host.Outcome State Fault Refusal := issueOne g src (opSext u) s

/-- ZEXT (R67): Zero-extend b from width o1. -/
def opZext (u : Fin 2) : Op := scalarOp u 68 1 (fun a b _ => extendField false a b)

/-- The bundle whose one move triggers ZEXT. -/
def execZext (u : Fin 2) (g : Guard) (src : Src) (s : State) :
    Host.Outcome State Fault Refusal := issueOne g src (opZext u) s

/-- MOV (R67): Copy b. -/
def opMov (u : Fin 2) (w : Bool) : Op :=
  scalarOp u (70 + w.toNat) 1 (atWidth w (fun _ _ b _ => b))

/-- The bundle whose one move triggers MOV. -/
def execMov (u : Fin 2) (g : Guard) (src : Src) (w : Bool) (s : State) :
    Host.Outcome State Fault Refusal := issueOne g src (opMov u w) s

/-- LEA (R67): o1 + b × 2^o2. -/
def opLea (u : Fin 2) : Op := scalarOp u 72 1 (fun a b c => a + b * BitVec.ofNat 64 (2 ^ (c.toNat % 8)))

/-- The bundle whose one move triggers LEA. -/
def execLea (u : Fin 2) (g : Guard) (src : Src) (s : State) :
    Host.Outcome State Fault Refusal := issueOne g src (opLea u) s

/-- BSWAP (R67): Reverse bytes of b. -/
def opBswap (u : Fin 2) (w : Bool) : Op :=
  scalarOp u (74 + w.toNat) 1 (atWidth w (fun n _ b _ => byteSwap n b))

/-- The bundle whose one move triggers BSWAP. -/
def execBswap (u : Fin 2) (g : Guard) (src : Src) (w : Bool) (s : State) :
    Host.Outcome State Fault Refusal := issueOne g src (opBswap u w) s

end Sys2Proof.Machine
end

