-- ==== Sys2Proof/Machine/Trees.lean ====
section
/-! DEFINITION. Class G, sparse coordinate regions: the tree unit's operations, cursors, boxes, and the replay of a
cluster's fault queue (spec/17_trees.md R275 to R295; spec/22_recovery.md R361). -/

namespace Sys2Proof.Machine

/-! ### Why an operation stops (R281, R286, R295) -/

/-- Why a tree operation does not go on: a status code with its reason; a page of the pool or descriptor that is not
present; a pool that lacks room for some nodes; or a wait, for the host's reply or a pending atomic. -/
inductive TStop where
  | err (code reason : Nat)
  | page (va : Nat) (write : Bool)
  | pool (need : Nat)
  | wait

/-- Reasons of R281: REGION. -/
def rsRegion : Nat := 3
/-- COORD. -/
def rsCoord : Nat := 4
/-- NODE. -/
def rsNode : Nat := 5
/-- PAGE of a tree command. -/
def rsTPage : Nat := 6
/-- CURSOR. -/
def rsCursor : Nat := 7
/-- LIVE. -/
def rsLive : Nat := 8
/-- POOL, with EXHAUSTED. -/
def rsPool : Nat := 1
/-- POOL in a fault queue (R286). -/
def fqPool : Nat := 8

/-- An ERROR. -/
def tErr {α : Type} (reason : Nat) : Except TStop α := .error (.err codeError reason)

/-- The PASID under which a tree unit translates: the launch's, also for a command of a CSC (R295). -/
def State.treePasid (s : State) (m : Cmd) : BitVec 20 := if isCsc m.cid then s.launch.pasid else s.pasidOf m

/-- The key of an access of a tree unit to `n` bytes of the pool or the descriptor, which waits for a pending atomic there
(R242, R295), and for an invalidation of it that the context has acknowledged (R340). -/
def treeKey (s : State) (m : Cmd) (a : Word) (n : Nat) (wr : Bool) : Except TStop Nat :=
  if !tableReach a then tErr rsAddr
  else if s.turned m.cid a n then .error .wait
  else
    match accessKey s m.cid.core (s.treePasid m) a wr with
    | .ok k =>
      if atomicHeld s k n then .error .wait
      else if 128 < n ∧ accessKey s m.cid.core (s.treePasid m) (a + 128) wr ≠ .ok (k + 128) then .error .wait
      else .ok k
    | .wait => .error .wait
    | .noPort => tErr rsLink
    | .absent => .error (.page (a.toNat / 4096 * 4096) wr)

/-! ### Regions (R275 to R277) -/

/-- A region as its descriptor gives it. -/
structure Region where
  d : Word
  w : List Word
  deriving DecidableEq, Repr

/-- Word `i` of a region's descriptor. -/
def Region.word (r : Region) (i : Nat) : Word := r.w.getD i 0
/-- POOL. -/
def Region.pool (r : Region) : Word := r.word 0
/-- CAP. -/
def Region.cap (r : Region) : Nat := field (r.word 1) 0 32
/-- LIVE. -/
def Region.live (r : Region) : Bool := (r.word 2).getLsbD 63
/-- NEXT. -/
def Region.next (r : Region) : Nat := field (r.word 2) 0 32
/-- KEYS. -/
def Region.keys (r : Region) : Word := r.word 3
/-- SLICE0. -/
def Region.slice0 (r : Region) : Nat := field (r.word 4) 48 7
/-- H. -/
def Region.h (r : Region) : Nat := field (r.word 4) 40 3
/-- FMT: 0 F32, 1 BF16, 2 I32, 3 I64, 4 F64. -/
def Region.fmt (r : Region) : Nat := field (r.word 4) 36 3
/-- The rank. -/
def Region.rank (r : Region) : Nat := field (r.word 4) 32 2 + 1
/-- The width of coordinate `i`. -/
def Region.width (r : Region) (i : Nat) : Nat := field (r.word 4) (8 * i) 8
/-- The sum of the widths of the coordinates. -/
def Region.bits (r : Region) : Nat := ((List.range r.rank).map r.width).sum
/-- GROW. -/
def Region.grow (r : Region) : Bool := (r.word 5).getLsbD 63
/-- GSTEP. -/
def Region.gstep (r : Region) : Nat := field (r.word 5) 32 16
/-- MAXCAP. -/
def Region.maxcap (r : Region) : Nat := field (r.word 5) 0 32
/-- The shard of a key (R276). -/
def Region.shard (r : Region) (k : Nat) : Nat := if r.h = 0 then 0 else k / 2 ^ (r.bits - r.h)
/-- The bits of an element. -/
def Region.size (r : Region) : Nat := match r.fmt with | 0 | 2 => 32 | 1 => 16 | _ => 64
/-- The address of a node. -/
def Region.nodeAt (r : Region) (n : Nat) : Word := r.pool + BitVec.ofNat 64 (256 * n)

/-- Whether a pool of `n` nodes lies in one window class that a region may use. -/
def Region.poolFits (r : Region) (n : Nat) : Bool := tableReach r.pool && extentOk r.pool (256 * n)

/-- Whether a descriptor breaks R277. -/
def Region.broken (r : Region) : Bool :=
  r.pool.toNat % 256 != 0 || !r.poolFits r.cap || r.cap < 2 ^ r.h || r.bits < r.h || 64 < r.bits || 4 < r.fmt ||
  (List.range 4).any (fun i => if i < r.rank then r.width i == 0 || 64 < r.width i else r.width i != 0) ||
  (r.grow && r.maxcap < r.cap)

/-- The region at an address (R277). -/
def readRegion (s : State) (m : Cmd) (d : Word) : Except TStop Region := do
  if d.toNat % 64 ≠ 0 then tErr rsAddr
  else
    let k ← treeKey s m d 64 false
    pure { d := d, w := (List.range 8).map (fun i => s.mem.word (k + 8 * i)) }

/-- The region at an address, which must be live (R281). -/
def liveRegion (s : State) (m : Cmd) (d : Word) : Except TStop Region := do
  let r ← readRegion s m d
  if r.live then pure r else tErr rsRegion

/-- A word of a descriptor replaced. -/
def Region.put (r : Region) (i : Nat) (x : Word) : Region := { r with w := r.w.set i x }

/-- NEXT replaced; the reserved bits beside it are written as zero (R5). -/
def Region.putNext (r : Region) (n : Nat) : Region := r.put 2 (BitVec.ofNat 64 (r.live.toNat * 2 ^ 63 + n))

/-- The writes of some words of a descriptor. -/
def Region.writes (s : State) (m : Cmd) (r : Region) (is : List Nat) : Except TStop (List Wr) := do
  let k ← treeKey s m r.d 64 true
  pure (is.flatMap (fun i => wrNat (k + 8 * i) 8 (r.word i).toNat))

/-! ### Nodes (R279) -/

/-- A node: its entries or separators, the values of a leaf or the children of an inner node. -/
structure TNode where
  leaf : Bool
  keys : List Nat
  vals : List Nat
  sib  : Nat
  high : Nat
  ver  : Nat
  deriving DecidableEq, Repr

/-- SIB of the last leaf of a shard. -/
def noSib : Nat := 2 ^ 64 - 1

/-- A node of 32 words. -/
def parseNode (w : List Nat) : TNode :=
  let g (i : Nat) : Nat := w.getD i 0
  let n := g 0 / 2 ^ 56 % 16
  if g 0 / 2 ^ 62 = 1 then
    { leaf := true, keys := (List.range n).map (fun i => g (2 + 2 * i)), vals := (List.range n).map (fun i => g (3 + 2 * i)),
      sib := g 30, high := g 31, ver := g 0 % 2 ^ 32 }
  else
    { leaf := false, keys := (List.range n).map (fun i => g (2 + i)), vals := (List.range (n + 1)).map (fun i => g (16 + i)),
      sib := noSib, high := 0, ver := g 0 % 2 ^ 32 }

/-- Whether a node passes the check of a tree unit. -/
def nodeOk (r : Region) (w : List Nat) : Bool :=
  let kind := w.getD 0 0 / 2 ^ 62
  let n := w.getD 0 0 / 2 ^ 56 % 16
  let nd := parseNode w
  let link (x : Nat) : Bool := x == noSib || x < r.next
  w.getD 1 0 == r.d.toNat &&
  ((kind == 1 && n ≤ 14 && link nd.sib) || (kind == 2 && 1 ≤ n && n ≤ 14 && nd.vals.all link))

/-- A list padded with zeros to a length. -/
def padTo (n : Nat) (l : List Nat) : List Nat := l ++ List.replicate (n - l.length) 0

/-- The 32 words of a node; bytes beyond the last entry are zero. -/
def TNode.words (nd : TNode) (d : Word) : List Nat :=
  let n := nd.keys.length
  if nd.leaf then
    [2 ^ 62 + n * 2 ^ 56 + nd.ver % 2 ^ 32, d.toNat] ++
      padTo 28 ((nd.keys.zip nd.vals).flatMap (fun p => [p.1, p.2])) ++ [nd.sib, nd.high]
  else
    [2 * 2 ^ 62 + n * 2 ^ 56 + nd.ver % 2 ^ 32, d.toNat] ++ padTo 14 nd.keys ++ padTo 15 nd.vals ++ [0]

/-- Word `i` of the node at a key, as a tree operation reads it: from the sector that it has read already, or from memory
(R243). -/
def Cmd.nodeWord (m : Cmd) (s : State) (k i : Nat) : Nat :=
  match m.seen.find? (fun x => x.1 == k + 32 * (i / 4)) with
  | some x => leNat ((x.2.drop (8 * (i % 4))).take 8)
  | none => s.mem.nat (k + 8 * i) 8

/-- A node read by a tree unit. -/
def readNode (s : State) (m : Cmd) (r : Region) (n : Nat) : Except TStop TNode := do
  let k ← treeKey s m (r.nodeAt n) 256 false
  let w := (List.range 32).map (m.nodeWord s k)
  if nodeOk r w then pure (parseNode w) else tErr rsNode

/-- The nodes on the way from node `n` to the leaf of a key, the root first; at most `fuel` of them (R279). -/
def descend (s : State) (m : Cmd) (r : Region) (key : Nat) : Nat → Nat → Except TStop (List (Nat × TNode))
  | 0, _ => tErr rsNode
  | fuel + 1, n => do
    let nd ← readNode s m r n
    if nd.leaf then pure [(n, nd)]
    else
      let ch := nd.vals.getD (nd.keys.filter (· ≤ key)).length noSib
      if r.next ≤ ch then tErr rsNode
      else
        let rest ← descend s m r key fuel ch
        pure ((n, nd) :: rest)

/-- The path of a key, the leaf first. -/
def pathOf (s : State) (m : Cmd) (r : Region) (key : Nat) : Except TStop (List (Nat × TNode)) := do
  let p ← descend s m r key 24 (r.shard key)
  pure p.reverse

/-- The writes of nodes. -/
def nodeWrites (s : State) (m : Cmd) (r : Region) : List (Nat × TNode) → Except TStop (List Wr)
  | [] => .ok []
  | (n, nd) :: l => do
    let k ← treeKey s m (r.nodeAt n) 256 true
    let ws ← nodeWrites s m r l
    pure (wrBytes k ((nd.words r.d).flatMap (leBytes 8)) ++ ws)

/-! ### Insertion and splits (R283 to R285) -/

/-- A list with an element put in at a place. -/
def putIn (l : List Nat) (i x : Nat) : List Nat := l.take i ++ x :: l.drop i

/-- A node that is written again: its VER rises. -/
def TNode.again (nd : TNode) : TNode := { nd with ver := (nd.ver + 1) % 2 ^ 32 }

/-- A leaf with a key and value put in. -/
def TNode.insert (nd : TNode) (key x : Nat) : TNode :=
  let i := (nd.keys.filter (· < key)).length
  { nd with keys := putIn nd.keys i key, vals := putIn nd.vals i x }

/-- An inner node with a separator and the child to its right put in. -/
def TNode.adopt (nd : TNode) (sep child : Nat) : TNode :=
  let i := (nd.keys.filter (· ≤ sep)).length
  { nd with keys := putIn nd.keys i sep, vals := putIn nd.vals (i + 1) child }

/-- The halves of a node with 15 keys or separators; `m` is the index that the upper half takes. -/
def TNode.halves (nd : TNode) (m : Nat) : TNode × TNode :=
  if nd.leaf then
    ({ nd with keys := nd.keys.take 7, vals := nd.vals.take 7, sib := m, high := nd.keys.getD 7 0 },
     { nd with keys := nd.keys.drop 7, vals := nd.vals.drop 7, ver := 0 })
  else
    ({ nd with keys := nd.keys.take 7, vals := nd.vals.take 8 },
     { nd with keys := nd.keys.drop 8, vals := nd.vals.drop 8, ver := 0 })

/-- The nodes that are written once node `n` has changed to `nd`: splits go upward through its ancestors, its parent
first (R284). `nxt` is the index of the next new node. -/
def splitUp (nxt n : Nat) (nd : TNode) : List (Nat × TNode) → List (Nat × TNode)
  | [] =>
    if nd.keys.length < 15 then [(n, nd.again)]
    else
      let (lo, hi) := nd.halves (nxt + 1)
      [(n, { leaf := false, keys := [nd.keys.getD 7 0], vals := [nxt, nxt + 1], sib := noSib, high := 0,
             ver := nd.again.ver }),
       (nxt, { lo with ver := 0 }), (nxt + 1, { hi with sib := noSib })]
  | (p, pd) :: rest =>
    if nd.keys.length < 15 then [(n, nd.again)]
    else
      let (lo, hi) := nd.halves nxt
      (n, lo.again) :: (nxt, hi) :: splitUp (nxt + 1) p (pd.adopt (nd.keys.getD 7 0) nxt) rest

/-- The nodes that an insertion takes, along a path from the leaf (R285). -/
def needOf : List (Nat × TNode) → Nat
  | [] => 0
  | [(_, nd)] => if nd.keys.length = 14 then 2 else 0
  | (_, nd) :: rest => if nd.keys.length = 14 then 1 + needOf rest else 0

/-- Zero(x) of an element. -/
def Region.isZero (r : Region) (x : Nat) : Bool :=
  if r.fmt = 0 ∨ r.fmt = 1 ∨ r.fmt = 4 then x % 2 ^ (r.size - 1) == 0 else x == 0

/-- The word that holds an element. -/
def Region.store (r : Region) (x : Nat) : Nat := if r.fmt = 2 then patOf 64 (signedOf 32 x) else x

/-- The new element of TST or TADD, from the old one or 0 (R283). -/
def Region.newVal (r : Region) (add : Bool) (old v : Nat) : Nat :=
  if !add then v
  else
    match r.fmt with
    | 0 => (roundTo .f32 ((Fmt.f32.value old).add false (Fmt.f32.value v)) .rne).pat
    | 1 => (roundTo .bf16 ((Fmt.bf16.value old).add false (Fmt.bf16.value v)) .rne).pat
    | _ => (old + v) % 2 ^ r.size

/-- What an operation leaves: its writes, the extents of OUT among them, its status, and the value of its destination
register. -/
structure TDone where
  wr    : List Wr
  outs  : List (Word × Nat) := []
  count : Nat
  id    : Nat
  val   : Word

/-- The value of a key in its leaf. -/
def TNode.find (nd : TNode) (key : Nat) : Option Nat := ((nd.keys.zip nd.vals).find? (fun p => p.1 == key)).map (·.2)

/-- A leaf with a key's value set. -/
def TNode.setVal (nd : TNode) (key x : Nat) : TNode :=
  { nd with vals := (nd.keys.zip nd.vals).map (fun p => if p.1 = key then x else p.2) }

/-- A leaf without a key. -/
def TNode.remove (nd : TNode) (key : Nat) : TNode :=
  let l := (nd.keys.zip nd.vals).filter (fun p => p.1 != key)
  { nd with keys := l.map (·.1), vals := l.map (·.2) }

/-- TLD, TST and TADD (R283). -/
def treeValue (s : State) (m : Cmd) : Except TStop TDone := do
  let r ← liveRegion s m m.o1
  let key := m.b.toNat
  if m.t = 9 ∧ r.fmt = 4 then tErr rsOpnd
  else if 2 ^ r.bits ≤ key then tErr rsCoord
  else
    let p ← pathOf s m r key
    match p with
    | [] => tErr rsNode
    | (n, leaf) :: up =>
      let old := leaf.find key
      if m.t = 7 then pure { wr := [], count := old.isSome.toNat, id := 0, val := BitVec.ofNat 64 (old.getD 0) }
      else
        let x := r.newVal (m.t == 9) (old.getD 0 % 2 ^ r.size) (m.o2.toNat % 2 ^ r.size)
        let out (ws : List Wr) : TDone :=
          { wr := ws, count := if m.t = 8 then old.isSome.toNat else (!r.isZero x).toNat, id := 0, val := 0 }
        if r.isZero x then
          if old.isNone then pure (out [])
          else
            let ws ← nodeWrites s m r [(n, (leaf.remove key).again)]
            let dw ← (r.put 3 (r.keys - 1)).writes s m [3]
            pure (out (ws ++ dw))
        else if old.isSome then
          let ws ← nodeWrites s m r [(n, (leaf.setVal key (r.store x)).again)]
          pure (out ws)
        else
          let need := needOf p
          if r.cap < r.next + need ∧ need ≠ 0 then .error (.pool need)
          else
            let ws ← nodeWrites s m r (splitUp r.next n (leaf.insert key (r.store x)) up)
            let dw ← ((r.putNext (r.next + need)).put 3 (r.keys + 1)).writes s m [2, 3]
            pure (out (ws ++ dw))

/-! ### Declaring, counting, raising the capacity (R282, R287, R293) -/

/-- TDECL (R282). -/
def treeDecl (s : State) (m : Cmd) : Except TStop TDone := do
  let r ← readRegion s m m.b
  if r.live then tErr rsLive
  else if r.broken then tErr rsRegion
  else
    let root : TNode := { leaf := true, keys := [], vals := [], sib := noSib, high := 0, ver := 0 }
    let ws ← nodeWrites s m r ((List.range (2 ^ r.h)).map (fun i => (i, root)))
    let dw ← ((r.put 2 (BitVec.ofNat 64 (2 ^ 63 + 2 ^ r.h))).put 3 0).writes s m [2, 3]
    pure { wr := ws ++ dw, count := 0, id := 2 ^ r.h, val := 0 }

/-- TCOUNT (R293). -/
def treeCount (s : State) (m : Cmd) : Except TStop TDone := do
  let r ← liveRegion s m m.b
  pure { wr := [], count := r.keys.toNat, id := r.next, val := r.keys }

/-- CAP replaced; the reserved bits beside it are written as zero (R5). -/
def Region.putCap (r : Region) (n : Nat) : Region := r.put 1 (BitVec.ofNat 64 (n % 2 ^ 32))

/-- TPOOL (R287). -/
def treePool (s : State) (m : Cmd) : Except TStop TDone := do
  let r ← liveRegion s m m.b
  let n := field m.o1 0 32
  if n < r.cap ∨ !r.poolFits n then tErr rsOpnd
  else
    let dw ← (r.putCap n).writes s m [1]
    pure { wr := dw, count := 0, id := n, val := 0 }

/-! ### Cursors (R290, R291) -/

/-- STATE of a cursor's record. -/
def curState (w : List Word) : Nat := field (w.getD 5 0) 62 2
/-- LIM. -/
def curLim (w : List Word) : Nat := field (w.getD 5 0) 56 4
/-- OUT. -/
def curOut (w : List Word) : Word := w.getD 4 0

/-- Word 5 with a state and the VER of the hint; its reserved bits are written as zero (R5). -/
def curWord (w : List Word) (st ver : Nat) : Word := BitVec.ofNat 64 (st * 2 ^ 62 + curLim w * 2 ^ 56 + ver)

/-- The writes of a cursor's record: the words that the hardware sets. -/
def curWrites (s : State) (m : Cmd) (w : List Word) : List Wr :=
  [0, 3, 5, 6].flatMap (fun i =>
    writeBytes s m.cid.core (s.treePasid m) (m.b + BitVec.ofNat 64 (8 * i)) (leBytes 8 (w.getD i 0).toNat))

/-- Step on a record (R291); the writes that a page of OUT leaves are in the error. -/
def curStep (s : State) (m : Cmd) (w : List Word) (r : Region) : Except TStop TDone × List Wr :=
  let nk := (w.getD 3 0).toNat
  let hi := (w.getD 2 0).toNat
  let lim := curLim w
  let over' (k : Nat) : Bool := hi < k || 2 ^ r.bits ≤ k
  let p := s.treePasid m
  if over' nk then
    (.ok { wr := curWrites s m (w.set 5 (curWord w 2 (field (w.getD 5 0) 0 32))), count := 0, id := 1, val := 0 }, [])
  else
    match pathOf s m r nk with
    | .error x => (.error x, [])
    | .ok [] => (tErr rsNode, [])
    | .ok ((n, leaf) :: _) =>
      let es := ((leaf.keys.zip leaf.vals).filter (fun e => nk ≤ e.1 && e.1 ≤ hi)).take lim
      match firstBad s m.cid.core p (curOut w) (16 * es.length) true with
      | some (_, .noPort) => (tErr rsLink, [])
      | some (_, .wait) => (.error .wait, [])
      | some _ =>
        (.error (.err codePartial rsPage), if m.t = 10 then curWrites s m (w.set 5 (curWord w 1 (field (w.getD 5 0) 0 32))) else [])
      | none =>
        let nk' := if es.length = lim then ((es.getLastD (0, 0)).1 + 1)
          else if leaf.sib ≠ noSib then leaf.high
          else (r.shard nk + 1) * 2 ^ (r.bits - r.h)
        let fin := over' nk'
        let w := ((w.set 3 (BitVec.ofNat 64 nk')).set 5 (curWord w (if fin then 2 else 1) leaf.ver)).set 6 (BitVec.ofNat 64 n)
        let ow := writeBytes s m.cid.core p (curOut w) (es.flatMap (fun e => leBytes 8 e.1 ++ leBytes 8 e.2))
        (.ok { wr := ow ++ curWrites s m w, outs := if es.isEmpty then [] else [(curOut w, 16 * es.length)],
               count := es.length, id := fin.toNat, val := 0 }, [])

/-- TSCAN, TNEXT and TCLOSE (R291). -/
def treeCursor (s : State) (m : Cmd) : Except TStop TDone × List Wr :=
  let n := m.cid.core
  let err (x : Nat) : Except TStop TDone × List Wr := (tErr x, [])
  if m.b.toNat % 64 ≠ 0 ∨ !nearAddr n m.b 64 then err rsAddr
  else
    let w := readWords s n (s.treePasid m) m.b 8
    let done' (ws : List Wr) (id : Nat) : Except TStop TDone × List Wr := (.ok { wr := ws, count := 0, id := id, val := 0 }, [])
    let go (w : List Word) : Except TStop TDone × List Wr :=
      if curLim w = 0 ∨ curLim w = 15 then err rsOpnd
      else if (curOut w).toNat % 16 ≠ 0 ∨ !extentIn n (curOut w) (16 * curLim w) then err rsAddr
      else
        match liveRegion s m (w.getD 0 0) with
        | .error x => (.error x, [])
        | .ok r => curStep s m w r
    match m.t with
    | 10 => go (((w.set 0 m.o1).set 3 (w.getD 1 0)).set 5 (curWord w 1 (field (w.getD 5 0) 0 32)))
    | 11 => if curState w = 2 then done' [] 1 else if curState w ≠ 1 then err rsCursor else go w
    | _ =>
      if curState w = 1 ∨ curState w = 2 then done' (curWrites s m (w.set 5 (curWord w 3 (field (w.getD 5 0) 0 32)))) 0
      else err rsCursor

/-! ### Boxes (R294) -/

/-- LO(d) of a box. -/
def Cmd.xLo (m : Cmd) (i : Nat) : Nat := (m.dw i).toNat
/-- DST. -/
def Cmd.xDst (m : Cmd) : Word := m.dw 4
/-- EXT(d). -/
def Cmd.xExt (m : Cmd) (i : Nat) : Nat := field (m.dw (5 + i / 2)) (32 * (i % 2)) 32
/-- STR(d). -/
def Cmd.xStr (m : Cmd) (i : Nat) : Int := (m.dw (8 + i)).toInt

/-- The positions of a box, in row-major order, are numbered; this is their number. -/
def Cmd.xCount (m : Cmd) (r : Region) : Nat := (List.range r.rank).foldl (fun a i => a * m.xExt i) 1

/-- The coordinates of position `e`, from the first. -/
def Cmd.xPos (m : Cmd) (r : Region) (e : Nat) : List Nat :=
  (List.range r.rank).map (fun i =>
    e / ((List.range (r.rank - 1 - i)).foldl (fun a j => a * m.xExt (i + 1 + j)) 1) % m.xExt i)

/-- The key of position `e` (R275). -/
def Cmd.xKey (m : Cmd) (r : Region) (e : Nat) : Nat :=
  (m.xPos r e).zipIdx.foldl (fun a p => a * 2 ^ r.width p.2 + (m.xLo p.2 + p.1)) 0

/-- The address of position `e`, modulo 2^64. -/
def Cmd.xAddr (m : Cmd) (r : Region) (e : Nat) : Word :=
  (m.xPos r e).zipIdx.foldl (fun a p => a + BitVec.ofInt 64 ((p.1 : Int) * m.xStr p.2)) m.xDst

/-- The bytes before an address in its window class. -/
def roomBefore : Loc → Nat
  | .own off | .peer _ off | .slice _ off => off
  | .chip off => off
  | .glob va => if va < 2 ^ 56 then va else va - (2 ^ 64 - 2 ^ 56)
  | .bad => 0

/-- Whether every position of a box lies in the window class of DST. -/
def Cmd.xFits (m : Cmd) (r : Region) : Bool :=
  let z := r.size / 8
  let sums := (List.range r.rank).foldl (fun (p : Int × Int) i =>
    let d := ((m.xExt i : Int) - 1) * m.xStr i
    (p.1 + min d 0, p.2 + max d 0)) ((0, 0) : Int × Int)
  match locOf m.cid.core m.xDst with
  | .bad => false
  | l => -sums.1 ≤ (roomBefore l : Int) && sums.2 + (z : Int) ≤ (roomOf l : Int)

/-- Whether a position of a box lies in a peer that no port reaches. -/
def Cmd.xUnlinked (m : Cmd) (s : State) (r : Region) : Bool :=
  (List.range (m.xCount r)).any (fun i => unlinked s m.cid.core (s.treePasid m) (m.xAddr r i) (r.size / 8) true)

/-- Whether the host has replied for the pages of every position of a box. -/
def Cmd.xKnown (m : Cmd) (s : State) (r : Region) : Bool :=
  (List.range (m.xCount r)).all (fun i => pagesKnown s m.cid.core (s.treePasid m) (m.xAddr r i) (r.size / 8))

/-- The checks of a TDENSE on its box (R281, R294). -/
def boxCheck (s : State) (m : Cmd) : Except TStop Region := do
  let r ← liveRegion s m m.b
  let z := r.size / 8
  if m.xDst.toNat % z ≠ 0 ∨ (List.range r.rank).any (fun i => m.xStr i % (z : Int) != 0) then tErr rsOpnd
  else if (List.range r.rank).any (fun i => 2 ^ r.width i < m.xLo i + m.xExt i) then tErr rsCoord
  else if m.xCount r ≠ 0 ∧ !m.xFits r then tErr rsAddr
  else if !m.xKnown s r then .error .wait
  else if m.xUnlinked s r then tErr rsLink
  else pure r

/-- The positions of a box that a TDENSE has still to read; `res` lists those read, with what they hold. -/
def Cmd.xUnread (m : Cmd) (r : Region) : List Nat :=
  (List.range (m.xCount r)).filter (fun e => !m.res.any (fun x => x.k == e))

/-- The position that it reads next: the first unread one of the shard that the step names, or else the first (R294). -/
def Cmd.xNext (m : Cmd) (r : Region) (shard : Nat) : Option Nat :=
  ((m.xUnread r).find? (fun e => r.shard (m.xKey r e) == shard)).or (m.xUnread r).head?

/-- A position read: an element of zero where its key is absent. -/
def boxRead (s : State) (m : Cmd) (r : Region) (e : Nat) : Except TStop ItemRes := do
  let p ← pathOf s m r (m.xKey r e)
  let v := (p.head?).bind (fun x => x.2.find (m.xKey r e))
  pure { k := e, row := 0, dst := BitVec.ofNat 64 (v.getD 0), want := 0, done := 0, page := v.isSome }

/-! ### One operation of a tree unit (R288, R289) -/

/-- An operation stops: with a status, or parked in the fault queue; a pool that may not grow is exhausted (R285, R286,
R295). -/
def Eff.treeStop (e : Eff) (m : Cmd) (x : TStop) : Eff :=
  let park (reason : Nat) : Eff :=
    (e.on (fun s => s.park (clusterOf m.cid.core)
      { uid := m.uid, elem := 0, ix := 0, reason := reason, asked := none, taken := false })).cmd m.uid
      (fun c => { c with st := .started })
  match x with
  | .err code reason => e.fin m.uid code reason 0 0
  | .page _ _ => park rsGPage
  | .wait => e
  | .pool _ =>
    match liveRegion e.st m m.o1 with
    | .ok r => if r.grow then park fqPool else e.fin m.uid codeExhausted rsPool 0 0
    | .error _ => e.fin m.uid codeExhausted rsPool 0 0

/-- An operation is over: its writes perform, or are laid out to perform sector by sector (R240). -/
def Eff.treeDone (e : Eff) (m : Cmd) (d : TDone) : Eff :=
  ((e.lay (.cmd m.uid) d.wr).cmd m.uid (fun c => { c with val2 := d.val })).fin m.uid codeDone 0 d.count d.id

/-- A cursor command (R290, R291): none while its record, or OUT where it writes there, is held back from the engines. -/
def Eff.cursor (e : Eff) (m : Cmd) : Except TStop (Option Eff) :=
  let free (s : State) (x : Word × Nat) : Bool := engineFree s m.cid (s.treePasid m) x.1 x.2
  if m.b.toNat % 64 ≠ 0 ∨ !nearAddr m.cid.core m.b 64 then tErr rsAddr
  else if !free e.st (m.b, 64) then .ok none
  else
    match treeCursor e.st m with
    | (.ok d, _) =>
      let f := e.grants m ((m.b, 64) :: d.outs)
      if d.outs.all (free f.st) then .ok (some (f.treeDone m d)) else .ok none
    | (.error (.err code reason), ws) => .ok (some (((e.grants m [(m.b, 64)]).put ws).fin m.uid code reason 0 0))
    | (.error x, _) => .error x

/-- The box descriptor is read and checked, and the destination takes its grants (R294). -/
def Eff.startBox (e : Eff) (m : Cmd) : Except TStop (Option Eff) :=
  match readDesc e.st m m.o1 128 16 with
  | .bad => tErr rsAddr
  | .wait => .ok none
  | .ok w =>
    let m := { m with desc := w }
    match boxCheck e.st m with
    | .error x => .error x
    | .ok r =>
      let e := e.touching m [(m.o1, 128)]
      let e := e.grants m ((List.range (m.xCount r)).map (fun i => (m.xAddr r i, r.size / 8)))
      .ok (some (e.cmd m.uid (fun c => { c with desc := w, st := .started })))

/-- The positions of a TDENSE that have been read and are still to be written in the sector of a position's element: each
sector is written whole (R294). -/
def Cmd.xSector (m : Cmd) (r : Region) (x : ItemRes) : List ItemRes :=
  m.res.filter (fun y => y.done == 0 && (m.xAddr r y.k).toNat / 32 == (m.xAddr r x.k).toNat / 32)

/-- The sector of a position of a TDENSE that has been read is written (R294); none while its granule is held back. -/
def Eff.boxWrite (e : Eff) (m : Cmd) (r : Region) (x : ItemRes) : Except TStop (Option Eff) :=
  let a := m.xAddr r x.k
  let z := r.size / 8
  match firstBad e.st m.cid.core (e.st.treePasid m) a z true with
  | some (_, .noPort) => tErr rsLink
  | some (_, .wait) => .ok none
  | some _ => .error (.err codePartial rsPage)
  | none =>
    if !engineFree e.st m.cid (e.st.treePasid m) a z then .ok none
    else
      let l := m.xSector r x
      let ws := l.flatMap (fun y => writeBytes e.st m.cid.core (e.st.treePasid m) (m.xAddr r y.k) (leBytes z y.dst.toNat))
      .ok (some ((e.lay (.cmd m.uid) ws).cmd m.uid (fun c =>
        { c with res := c.res.map (fun y => if l.any (fun q => q.k == y.k) then { y with done := 1 } else y) })))

/-- A started TDENSE goes on: it reads its next position, which may find a bad node while nothing has been written (R279); once
all are read it writes them; then it ends. -/
def Eff.boxNext (e : Eff) (m : Cmd) : Except TStop (Option Eff) :=
  match liveRegion e.st m m.b with
  | .error x => .error x
  | .ok r =>
    match m.xNext r e.st.act.hi with
    | some i =>
      match boxRead e.st m r i with
      | .error x => .error x
      | .ok x => .ok (some (e.cmd m.uid (fun c => { c with res := c.res ++ [x] })))
    | none =>
      match m.res.find? (fun x => x.done == 0) with
      | some x => e.boxWrite m r x
      | none => .ok (some (e.fin m.uid codeDone 0 (m.res.filter (·.page)).length 0))

/-- The operation of a tree command as it stands: none while it has to wait. -/
def Eff.treeRun (e : Eff) (m : Cmd) : Except TStop (Option Eff) :=
  let plain (x : Except TStop TDone) : Except TStop (Option Eff) :=
    match x with
    | .ok d => .ok (some (e.treeDone m d))
    | .error x => .error x
  match m.t with
  | 6 => plain (treeDecl e.st m)
  | 7 | 8 | 9 => plain (treeValue e.st m)
  | 13 => if m.desc.isEmpty then e.startBox m else e.boxNext m
  | 14 => plain (treeCount e.st m)
  | 15 => plain (treePool e.st m)
  | _ => e.cursor m

/-- The record of a cursor command, by its key in memory. -/
def recordKey (m : Cmd) : Option Nat := localKey m.cid.core (classify m.b)

/-- The shards that a command has still to reach, each with its region; none where its descriptor cannot be read. -/
def shardsOf (s : State) (m : Cmd) : List (Word × Nat) :=
  let at' (d : Word) (key : Nat) : List (Word × Nat) :=
    match readRegion s m d with
    | .ok r => [(d, r.shard (key % 2 ^ r.bits))]
    | .error _ => []
  match m.t with
  | 7 | 8 | 9 => at' m.o1 m.b.toNat
  | 10 | 11 =>
    if nearAddr m.cid.core m.b 64 then
      let w := readWords s m.cid.core (s.treePasid m) m.b 8
      if m.t = 10 then at' m.o1 (w.getD 1 0).toNat else at' (w.getD 0 0) (w.getD 3 0).toNat
    else []
  | 13 =>
    let m' := if m.desc.isEmpty then { m with desc := readWords s m.cid.core (s.treePasid m) m.o1 16 } else m
    match readRegion s m m.b with
    | .ok r => (dedup ((m'.xUnread r).map (fun e => r.shard (m'.xKey r e)))).map (fun x => (m.b, x))
    | .error _ => []
  | _ => []

/-- The shards that a command reaches in its next step. -/
def shardsNow (s : State) (m : Cmd) : List (Word × Nat) :=
  if m.t = 13 then
    match readRegion s m m.b with
    | .ok r => if m.desc.isEmpty then [] else ((m.xNext r s.act.hi).toList).map (fun e => (m.b, r.shard (m.xKey r e)))
    | .error _ => []
  else shardsOf s m

/-- Whether a tree command has still its place in the order of its context: it has not performed, and is not parked for want
of room in its pool (R289). -/
def inPlace (s : State) (c : Cmd) : Bool :=
  c.st == .queued || c.st == .held || (c.t == 13 && c.st == .started) ||
  (s.clu (clusterOf c.cid.core)).fq.any (fun f => f.uid == c.uid && f.reason == rsGPage)

/-- Whether a command works on a cursor record. -/
def Cmd.onCursor (c : Cmd) : Bool := c.bus == 11 && 10 ≤ c.t && c.t ≤ 12

/-- Whether the shard of a TNEXT is still open: an earlier command of its context on its record is to perform before it
(R289). -/
def State.shardOpen (s : State) (c : Cmd) : Bool :=
  c.t == 11 && s.cmds.any (fun d => d.uid != c.uid && d.cid == c.cid && d.seq < c.seq && d.onCursor && inPlace s d &&
    recordKey d == recordKey c)

/-- Whether writes of a tree operation are in flight: the units serialise their operations, so the next one waits for them
(R243). The writes of a TDENSE go to its box. -/
def State.treeFlies (s : State) (m : Cmd) : Bool :=
  s.cmds.any (fun c => c.uid != m.uid && c.bus == 11 && 6 ≤ c.t && c.t != 13 && !(s.flightsOf (.cmd c.uid)).isEmpty)

/-- Whether a command has to let another one perform first (R289, R291): one of its context, triggered earlier, on the
same shard, on a shard that is still open, or on the same record; one that has begun on the same record; or one whose writes
are in flight. -/
def State.behindTree (s : State) (m : Cmd) : Bool :=
  let cursor := fun (c : Cmd) => 10 ≤ c.t && c.t ≤ 12
  s.treeFlies m || s.cmds.any (fun c =>
    c.bus == 11 && c.uid != m.uid &&
    ((c.cid == m.cid && c.seq < m.seq && 6 ≤ c.t && inPlace s c &&
        ((shardsNow s m).any (fun x => (shardsOf s c).contains x) || (s.shardOpen c && !(shardsNow s m).isEmpty))) ||
     (cursor m && cursor c && recordKey c == recordKey m &&
        (c.st == .started || (c.cid == m.cid && c.seq < m.seq && c.st == .queued)))))

/-- Whether a command waits in a fault queue. -/
def State.isParked (s : State) (m : Cmd) : Bool := (s.clu (clusterOf m.cid.core)).fq.any (fun f => f.uid == m.uid)

/-- Whether a started TDENSE has nothing to do but wait: no sector of it is in flight, and every position that it has still to
read lies behind a parked operation of its context that holds its place, or behind one that itself waits for such an operation
(R289, R295); `which` says which parked commands count. -/
def State.boxHeld (s : State) (m : Cmd) (which : Cmd → Bool) : Bool :=
  let parked (c : Cmd) : Bool := c.cid == m.cid && c.seq < m.seq && s.isParked c && inPlace s c && which c
  let stands (c : Cmd) : Bool := parked c ||
    (s.shardOpen c && s.cmds.any (fun d => parked d && d.seq < c.seq && d.onCursor && recordKey d == recordKey c))
  let rest := shardsOf s m
  m.bus == 11 && m.t == 13 && m.st == .started && (s.flightsOf (.cmd m.uid)).isEmpty && !rest.isEmpty &&
    rest.all (fun x => s.cmds.any (fun c => c.cid == m.cid && c.seq < m.seq && stands c &&
      ((shardsOf s c).contains x || s.shardOpen c)))

/-- Where the region of a tree command has its descriptor. -/
def Cmd.regionAt (m : Cmd) (s : State) : Word :=
  match m.t with
  | 7 | 8 | 9 | 10 => m.o1
  | 11 => (readWords s m.cid.core (s.treePasid m) m.b 8).getD 0 0
  | _ => m.b

/-- A tree operation reads sector `j` of node `n` of its region before the step in which it acts: the sectors of one command
are read in an order the L9 chooses (R240, R243). -/
def Eff.readAhead (e : Eff) (m : Cmd) (n j : Nat) : Option Eff :=
  let s := e.st
  match readRegion s m (m.regionAt s) with
  | .ok r =>
    match treeKey s m (r.nodeAt n) 256 false with
    | .ok k =>
      let a := k + 32 * (j % 8)
      if n < r.next then
        some (e.cmd m.uid (fun c => { c with seen := (a, s.mem.bytes a 32) :: c.seen.filter (fun x => x.1 != a) }))
      else none
    | .error _ => none
  | .error _ => none

/-- TREE_UNIT_OPERATION (R288): the tree command `num` performs one operation at its unit; of a TDENSE, on shard `hi` where
it has a position to read there; where the step picks one, a sector in flight of it performs (R294); or, with `flag`, it
reads the picked sector of node `hi` ahead. -/
def execTreeUnitOperation (s : State) : Host.Outcome State Fault Refusal :=
  match s.cmd s.act.num with
  | some m =>
    if !(m.bus == 11 && 6 ≤ m.t) then stutter s
    else
      let waits := !(m.st == .queued || (m.t == 13 && m.st == .started)) || s.isParked m || !storesDone (s.ctx m.cid) m.seq ||
        s.behindTree m
      match s.act.pick with
      | some j =>
        if s.act.flag then
          match (if waits then none else (Eff.start s).readAhead m s.act.hi j) with
          | some e => done s e
          | none => stutter s
        else s.landOne (.cmd m.uid) j
      | none =>
        if waits then stutter s
        else
          match (Eff.start s).treeRun m with
          | .ok (some e) => done s e.dropSeen
          | .ok none | .error .wait => stutter s
          | .error x =>
            let e := (Eff.start s).treeStop m x
            if 4096 ≤ s.fqLen (clusterOf m.cid.core) && e.st.isParked m then stutter s else done s e.dropSeen
  | none => stutter s

/-! ### The replay of the fault queue (R266, R286, R295, R361) -/

/-- The capacity that firmware raises a pool to (R286). -/
def Region.grown (r : Region) (need : Nat) : Nat :=
  min (r.cap + r.gstep * max 1 ((r.next + need - r.cap + r.gstep - 1) / r.gstep)) r.maxcap

/-- The first page of a pool of `n` nodes that is not present for writing, with the answer there. -/
def Region.absentPage (s : State) (m : Cmd) (r : Region) (n : Nat) : Option (Nat × Xl) :=
  (firstBad s m.cid.core (s.treePasid m) r.pool (256 * n) true).map (fun x => (x.1.toNat / 4096 * 4096, x.2))

/-- Whether the host has refused the page that an entry asked for. -/
def FqEnt.refused (f : FqEnt) (s : State) : Bool :=
  match f.asked.bind s.priCode with
  | some .success => false
  | some _ => true
  | none => false

/-- The replay of a tree command that found its pool full (R286); none while it has to wait. -/
def Eff.growPool (e : Eff) (c : Fin 16) (f : FqEnt) (m : Cmd) (need : Nat) : Option Eff :=
  let s := e.st
  let spent : Eff := ((e.answered f).unpark c f).fin m.uid codeExhausted rsPool 0 0
  match liveRegion s m m.o1 with
  | .error .wait => none
  | .error x => some (((e.answered f).unpark c f).treeStop m x)
  | .ok r =>
    let n := r.grown need
    if r.gstep = 0 ∨ n < r.next + need ∨ !r.poolFits n ∨ f.refused s then some spent
    else
      match r.absentPage s m n with
      | some (_, .wait) => none
      | some (_, .noPort) => some (((e.answered f).unpark c f).treeStop m (.err codeError rsLink))
      | some (page, _) => some ((e.answered f).askFor c f (s.treePasid m) page true)
      | none =>
        match (r.putCap n).writes s m [1] with
        | .error .wait => none
        | .error x => some (((e.answered f).unpark c f).treeStop m x)
        | .ok ws =>
          let e := ((e.answered f).unpark c f).put ws
          some (match e.treeRun m with
            | .ok (some e) => e
            | .ok none | .error .wait => e.cmd m.uid (fun c => { c with st := .queued })
            | .error x => e.treeStop m x)

/-- The replay of a tree command (R286, R295); none while it has to wait, also for the commands of its context before it on
its shard, where it waits for a page (R289). -/
def Eff.replayTree (e : Eff) (c : Fin 16) (f : FqEnt) (m : Cmd) : Option Eff :=
  let s := e.st
  if (f.reason = rsGPage ∧ s.behindTree m) ∨ s.treeFlies m then none
  else
    match e.treeRun m with
    | .error .wait => none
    | .error (.page va wr) =>
      if f.refused s then some (((e.answered f).unpark c f).fin m.uid codeError rsTPage 0 0)
      else some ((e.answered f).askFor c f (s.treePasid m) va wr)
    | .error (.pool need) =>
      if f.reason = fqPool then e.growPool c f m need else some (((e.answered f).unpark c f).treeStop m (.pool need))
    | .error x => some (((e.answered f).unpark c f).treeStop m x)
    | .ok none => none
    | .ok (some _) =>
      match ((e.answered f).unpark c f).treeRun m with
      | .ok r => r
      | .error _ => none

/-- Whether an entry's turn has come: the host has answered its request, and the elements of its command that did not
park have performed (R268). -/
def FqEnt.ready (f : FqEnt) (s : State) (m : Cmd) : Bool :=
  (match f.asked with | some u => (s.priCode u).isSome | none => true) && (6 ≤ m.t || m.gNidx ≤ m.prog)

/-- The replay of an entry. -/
def Eff.replay (e : Eff) (c : Fin 16) (f : FqEnt) : Option Eff :=
  match e.st.cmd f.uid with
  | none => some (e.unpark c f)
  | some m =>
    if !f.ready e.st m then none
    else if m.t < 6 then e.replayElem c f m
    else (e.replayTree c f m).map Eff.dropSeen

/-- FAULT_QUEUE_REPLAY (R266, R361): firmware of cluster `clu` replays the first entry of the fault queue whose turn has
come; where none has, it takes the first entry that still fills the queue. Once the launch has ended, its entries are
discarded. -/
def execFaultQueueReplay (s : State) : Host.Outcome State Fault Refusal :=
  let c := s.act.clu
  let q := (s.clu c).fq
  match q.find? (fun f => s.launch.clearing && s.launchEntry f) with
  | some f => done s ((Eff.start s).on (fun s => s.modClu c (fun k => { k with fq := k.fq.erase f })))
  | none =>
    match q.findSome? (fun f => (Eff.start s).replay c f) with
    | some e => done s e
    | none =>
      match q.find? (fun f => !f.taken && f.asked.isNone) with
      | some f =>
        done s ((Eff.start s).on (fun s => s.modClu c (fun k =>
          { k with fq := k.fq.map (fun x => if x = f then { x with taken := true } else x) })))
      | none => stutter s

/-! ### The operations and the bundles whose one move triggers them -/

/-- TDECL (R280). -/
def opTdecl : Op :=
  cmdOp 11 6 (fun _ => []) (fun _ m => m) (fun _ => false)

/-- The bundle whose one move triggers TDECL. -/
def execTdecl (g : Guard) (src : Src) (s : State) : Host.Outcome State Fault Refusal :=
  issueOne g src opTdecl s

/-- TLD (R280). -/
def opTld : Op :=
  cmdOp 11 7 (fun _ => []) (fun i m => { m with dst2 := some (sReg i.o2.word) }) (fun i => i.busyS (sReg i.o2.word))

/-- The bundle whose one move triggers TLD. -/
def execTld (g : Guard) (src : Src) (s : State) : Host.Outcome State Fault Refusal :=
  issueOne g src opTld s

/-- TST (R280). -/
def opTst : Op :=
  cmdOp 11 8 (fun _ => []) (fun _ m => m) (fun _ => false)

/-- The bundle whose one move triggers TST. -/
def execTst (g : Guard) (src : Src) (s : State) : Host.Outcome State Fault Refusal :=
  issueOne g src opTst s

/-- TADD (R280). -/
def opTadd : Op :=
  cmdOp 11 9 (fun _ => []) (fun _ m => m) (fun _ => false)

/-- The bundle whose one move triggers TADD. -/
def execTadd (g : Guard) (src : Src) (s : State) : Host.Outcome State Fault Refusal :=
  issueOne g src opTadd s

/-- TSCAN (R280). -/
def opTscan : Op :=
  cmdOp 11 10 (fun i => [(i.b.word, 64)]) (fun _ m => m) (fun _ => false)

/-- The bundle whose one move triggers TSCAN. -/
def execTscan (g : Guard) (src : Src) (s : State) : Host.Outcome State Fault Refusal :=
  issueOne g src opTscan s

/-- TNEXT (R280). -/
def opTnext : Op :=
  cmdOp 11 11 (fun i => [(i.b.word, 64)]) (fun _ m => m) (fun _ => false)

/-- The bundle whose one move triggers TNEXT. -/
def execTnext (g : Guard) (src : Src) (s : State) : Host.Outcome State Fault Refusal :=
  issueOne g src opTnext s

/-- TCLOSE (R280). -/
def opTclose : Op :=
  cmdOp 11 12 (fun i => [(i.b.word, 64)]) (fun _ m => m) (fun _ => false)

/-- The bundle whose one move triggers TCLOSE. -/
def execTclose (g : Guard) (src : Src) (s : State) : Host.Outcome State Fault Refusal :=
  issueOne g src opTclose s

/-- TDENSE (R280). -/
def opTdense : Op :=
  cmdOp 11 13 (fun i => [(i.o1.word, 128)]) (fun _ m => m) (fun _ => false)

/-- The bundle whose one move triggers TDENSE. -/
def execTdense (g : Guard) (src : Src) (s : State) : Host.Outcome State Fault Refusal :=
  issueOne g src opTdense s

/-- TCOUNT (R280). -/
def opTcount : Op :=
  cmdOp 11 14 (fun _ => []) (fun i m => { m with dst2 := some (sReg i.o2.word) }) (fun i => i.busyS (sReg i.o2.word))

/-- The bundle whose one move triggers TCOUNT. -/
def execTcount (g : Guard) (src : Src) (s : State) : Host.Outcome State Fault Refusal :=
  issueOne g src opTcount s

/-- TPOOL (R280), of firmware alone. -/
def opTpool : Op :=
  { cmdOp 11 15 (fun _ => []) (fun _ m => m) (fun _ => false) with priv := true }

/-- The bundle whose one move triggers TPOOL. -/
def execTpool (g : Guard) (src : Src) (s : State) : Host.Outcome State Fault Refusal :=
  issueOne g src opTpool s

end Sys2Proof.Machine
end

