-- ==== Sys2Proof/Machine/Vector.lean ====
section
/-! DEFINITION. Class V: the vector units VA0 and VA1 (spec/07_vector.md R131 to R141; spec/03_portmap.md R55). -/

namespace Sys2Proof.Machine

/-- The unit of VA0 or VA1. -/
def vaUnit (u : Fin 2) : Fin 15 := ⟨u.val + 2, by omega⟩

/-- The types that are legal for an operation (R55). -/
def laneLegal (f i n : Bool) (ty : VTy) : Bool :=
  match laneTy ty with | .fl _ => f | .int _ => i | .nat _ => n

/-- A latency of 4 bundles for the F group and 2 for the I and N groups (R55). -/
def lat42 (ty : VTy) : Nat := if (laneTy ty).isF then 4 else 2

/-- The code of a class V type (R55). -/
def tyNum : VTy → Nat | .f32 => 0 | .bf16 => 1 | .f16 => 2 | .i32 => 3 | .i16 => 4 | .n32 => 5 | .n16 => 6

/-- The type that a code names; none for 7. -/
def tyOfNum : Nat → Option VTy
  | 0 => some .f32 | 1 => some .bf16 | 2 => some .f16 | 3 => some .i32 | 4 => some .i16 | 5 => some .n32
  | 6 => some .n16 | _ => none

/-- A class V operation of place `n` whose operands all expand at the lane width of its type. -/
def vecOp (u : Fin 2) (n lat : Nat) (ty : VTy) (f : VTy → VIn → VOut) : Op :=
  laneOp (vaUnit u) (8 * n + tyNum ty) lat false (fun _ => (laneTy ty).w) (fun _ => (laneTy ty).w) (f ty)

/-! ### Arithmetic (R131) -/

/-- A lane-wise operation: `ff` on reals for the F group, `fi` on integers modulo 2^w for the I and N groups. -/
def vArith (ff : Bool → Rl → Rl → Rl → Rl) (fi : Int → Int → Int → Int) (used : Nat) (ty : VTy) (i : VIn) : VOut :=
  let t := laneTy ty
  ofLanes t.w ((i.zip3 t.w).map (fun p =>
    match t with
    | .fl f =>
      let x := f.value p.1
      let y := f.value p.2.1
      let z := f.value p.2.2
      roundLane f i.fpc (ff (isRdn i.fpc) x y z) ([x, y, z].take used)
    | t => plainLane (patOf t.w (fi (t.toInt p.1) (t.toInt p.2.1) (t.toInt p.2.2)))))

/-- VADD. -/
def fnVadd := vArith (fun rdn x y _ => x.add rdn y) (fun x y _ => x + y) 2
/-- VSUB. -/
def fnVsub := vArith (fun rdn x y _ => x.add rdn y.minus) (fun x y _ => x - y) 2
/-- VMUL. -/
def fnVmul := vArith (fun _ x y _ => x.mul y) (fun x y _ => x * y) 2
/-- VFMA: one rounding. -/
def fnVfma := vArith (fun rdn x y z => (x.mul y).add rdn z) (fun x y z => x * y + z) 3
/-- VFMS: one rounding. -/
def fnVfms := vArith (fun rdn x y z => (x.mul y).add rdn z.minus) (fun x y z => x * y - z) 3
/-- VNFMA: one rounding. -/
def fnVnfma := vArith (fun rdn x y z => (x.mul y).minus.add rdn z) (fun x y z => -(x * y) + z) 3

/-- VMIN and VMAX: value operations. -/
def vPick (larger : Bool) (ty : VTy) (i : VIn) : VOut :=
  ofPlain (laneTy ty).w ((i.zip3 (laneTy ty).w).map (fun p => (laneTy ty).pickBy larger p.1 p.2.1))

/-- VMIN. -/
def fnVmin := vPick false
/-- VMAX. -/
def fnVmax := vPick true

/-- VABS of the trigger lane. -/
def fnVabs (ty : VTy) (i : VIn) : VOut :=
  ofPlain (laneTy ty).w ((i.bl (laneTy ty).w).map (fun y =>
    match laneTy ty with
    | .fl f => if f.isNaN y then f.qnan else y % 2 ^ (f.width - 1)
    | t => patOf t.w (t.toInt y).natAbs))

/-- VNEG of the trigger lane. -/
def fnVneg (ty : VTy) (i : VIn) : VOut :=
  ofPlain (laneTy ty).w ((i.bl (laneTy ty).w).map (fun y =>
    match laneTy ty with
    | .fl f => if f.isNaN y then f.qnan else (y + 2 ^ (f.width - 1)) % 2 ^ f.width
    | t => patOf t.w (-(t.toInt y))))

/-- VMULH: the high half of the exact product. -/
def fnVmulh (ty : VTy) (i : VIn) : VOut :=
  let t := laneTy ty
  ofPlain t.w ((i.zip3 t.w).map (fun p => patOf t.w (t.toInt p.1 * t.toInt p.2.1 / 2 ^ t.w)))

/-- VCLAMP: Min(Max(b, o1), o2). -/
def fnVclamp (ty : VTy) (i : VIn) : VOut :=
  let t := laneTy ty
  ofPlain t.w ((i.zip3 t.w).map (fun p => t.pickBy false (t.pickBy true p.2.1 p.1) p.2.2))

/-! ### Compares (R132) -/

/-- A lane-wise test: all ones or zero in .r, its bits in .q. -/
def vCompare (ff : Rl → Rl → Bool) (fi : Int → Int → Bool) (ty : VTy) (i : VIn) : VOut :=
  let t := laneTy ty
  let res := (i.zip3 t.w).map (fun p =>
    match t with
    | .fl f => ff (f.value p.1) (f.value p.2.1)
    | t => fi (t.toInt p.1) (t.toInt p.2.1))
  { r := some (vecOf t.w (res.map (fun b => if b then 2 ^ t.w - 1 else 0))), q := some (.sc (bitsOf res)) }

/-- VCMPEQ. -/
def fnVcmpeq := vCompare Rl.eq (fun x y => x == y)
/-- VCMPLT. -/
def fnVcmplt := vCompare Rl.lt (fun x y => x < y)
/-- VCMPLE. -/
def fnVcmple := vCompare Rl.le (fun x y => x ≤ y)
/-- VCMPUN. -/
def fnVcmpun := vCompare (fun x y => x.isNaN || y.isNaN) (fun _ _ => false)

/-! ### Bitwise operations and shifts (R133) -/

/-- A bitwise operation of .o1 and b. -/
def vBits (f : Vec → Vec → Vec) (ty : VTy) (i : VIn) : VOut :=
  { r := some (f (i.o1.lanes (laneTy ty).w) (i.b.lanes (laneTy ty).w)) }

/-- VAND. -/
def fnVand := vBits (fun x y => x &&& y)
/-- VOR. -/
def fnVor := vBits (fun x y => x ||| y)
/-- VXOR. -/
def fnVxor := vBits (fun x y => x ^^^ y)

/-- A shift of .o1 by the lane of b modulo the width. -/
def vShift (f : LaneTy → Nat → Nat → Nat) (ty : VTy) (i : VIn) : VOut :=
  let t := laneTy ty
  ofPlain t.w ((i.zip3 t.w).map (fun p => f t p.1 (p.2.1 % t.w)))

/-- VSHL. -/
def fnVshl := vShift (fun _ x c => x * 2 ^ c)
/-- VSHR. -/
def fnVshr := vShift (fun _ x c => x / 2 ^ c)
/-- VSAR. -/
def fnVsar := vShift (fun t x c => patOf t.w (signedOf t.w x / 2 ^ c))

/-! ### Bit moves (R134) -/

/-- VSEL. -/
def fnVsel (ty : VTy) (i : VIn) : VOut :=
  ofPlain (laneTy ty).w ((i.zip3 (laneTy ty).w).zipIdx.map (fun p => if i.on p.2 then p.1.1 else p.1.2.1))

/-- VBCAST. -/
def fnVbcast (ty : VTy) (i : VIn) : VOut :=
  let t := laneTy ty
  let x := laneOf t.w (i.o1.lanes t.w).toNat (i.b.word.toNat % 64 % t.nl)
  ofPlain t.w (List.replicate t.nl x)

/-- VPERM. -/
def fnVperm (ty : VTy) (i : VIn) : VOut :=
  let t := laneTy ty
  let a := (i.o1.lanes t.w).toNat
  let c := (i.o2.lanes t.w).toNat
  ofPlain t.w ((i.bl t.w).map (fun y =>
    let d := y % (2 * t.nl)
    if d < t.nl then laneOf t.w a d else laneOf t.w c (d - t.nl)))

/-! ### The codebook decode (R135) -/

/-- Whether decoding from one format to another is exact and takes no part in R120: the same format, or F32 from a
narrower one. -/
def exactDecode (src dst : Fmt) : Bool := src == dst || dst == .f32

/-- VTBL. -/
def fnVtbl (ty : VTy) (i : VIn) : VOut :=
  match laneTy ty with
  | .fl f =>
    ofLanes f.width ((i.bl f.width).map (fun y =>
      let j := y % 256
      if i.kr.n ≤ j then { pat := 0, fl := flKOOR, sub := false }
      else
        let x := i.kr.tag.fmt.value (i.kr.entry j)
        if exactDecode i.kr.tag.fmt f then plainLane (roundTo f x .rne).pat
        else roundLane f i.fpc x [x]))
  | _ => {}

/-! ### Reductions and scans (R126, R136, R137) -/

/-- One level of the pairwise tree. -/
def treeLevel (f : Fmt) (fpc : Word) : List Rounded → List Rounded
  | x :: y :: r =>
    let a := f.value x.pat
    let b := f.value y.pat
    let s := roundTo f (a.add false b) .rne
    let s := assistLane f fpc { s with fl := s.fl ||| invalid (a.add false b) [a, b] }
    { s with fl := s.fl ||| x.fl ||| y.fl, sub := s.sub || x.sub || y.sub } :: treeLevel f fpc r
  | l => l

/-- The pairwise tree of `n` levels. -/
def treeSum (f : Fmt) (fpc : Word) : Nat → List Rounded → List Rounded
  | 0, l => l
  | n + 1, l => treeSum f fpc n (treeLevel f fpc l)

/-- A result in lane 0, zero elsewhere. -/
def lane0 (w : Nat) (x : Rounded) : VOut := { r := some (vecOf w [x.pat]), fl := x.fl, sub := x.sub }

/-- The lanes of b with each masked-off lane replaced. -/
def VIn.masked (i : VIn) (w off : Nat) : List Nat :=
  (i.bl w).zipIdx.map (fun p => if i.on p.2 then p.1 else off)

/-- VREDADD. -/
def fnVredadd (ty : VTy) (i : VIn) : VOut :=
  match laneTy ty with
  | .fl f =>
    let l := (i.masked f.width (f.signed true 0)).map plainLane
    lane0 f.width ((treeSum f i.fpc (if f.width = 32 then 5 else 6) l).headD (plainLane 0))
  | t => lane0 t.w (plainLane (patOf t.w ((i.masked t.w 0).map t.toInt).sum))

/-- VREDMAX and VREDMIN over the enabled lanes. -/
def vReduce (larger : Bool) (ty : VTy) (i : VIn) : VOut :=
  let t := laneTy ty
  let none_ : Nat :=
    match t with
    | .fl f => f.signed larger f.infMag
    | t => patOf t.w (if larger then t.lo else t.hi)
  let l := ((i.bl t.w).zipIdx.filter (fun p => i.on p.2)).map (·.1)
  match l with
  | [] => lane0 t.w (plainLane none_)
  | x :: r => lane0 t.w (plainLane (r.foldl (fun a y => t.pickBy larger a y) (t.pickBy larger x x)))

/-- VREDMAX. -/
def fnVredmax := vReduce true
/-- VREDMIN. -/
def fnVredmin := vReduce false

/-- The running sums from a value on. -/
def scanFl (f : Fmt) (fpc : Word) : Nat → List Nat → List Rounded
  | _, [] => []
  | s, y :: r =>
    let a := f.value s
    let b := f.value y
    let x := roundTo f (a.add false b) .rne
    let x := assistLane f fpc { x with fl := x.fl ||| invalid (a.add false b) [a, b] }
    x :: scanFl f fpc x.pat r

/-- The running sums of integers. -/
def scanInt : Int → List Int → List Int
  | _, [] => []
  | s, y :: r => (s + y) :: scanInt (s + y) r

/-- VSCAN. -/
def fnVscan (ty : VTy) (i : VIn) : VOut :=
  match laneTy ty with
  | .fl f =>
    match i.masked f.width (f.signed true 0) with
    | [] => {}
    | y :: r =>
      let s0 := if f.isNaN y then f.qnan else y
      ofLanes f.width (plainLane s0 :: scanFl f i.fpc s0 r)
  | t => ofPlain t.w ((scanInt 0 ((i.masked t.w 0).map t.toInt)).map (patOf t.w))

/-! ### VTOPK (R138) -/

/-- The rank key of a lane: NaN below −∞. -/
def LaneTy.rank (t : LaneTy) (x : Nat) : Int :=
  match t with
  | .fl f => if f.isNaN x then -(2 ^ 40) else f.key x
  | t => t.toInt x

/-- A candidate placed behind every one that ranks at least as high. -/
def insertRank (x : Int × Nat × Nat) : List (Int × Nat × Nat) → List (Int × Nat × Nat)
  | [] => [x]
  | y :: r => if y.1 < x.1 then x :: y :: r else y :: insertRank x r

/-- VTOPK. -/
def fnVtopk (ty : VTy) (i : VIn) : VOut :=
  let t := laneTy ty
  let slots := t.nl / 2
  let cand := (i.bl t.w).zipIdx.filter (fun p => i.on p.2)
  let ranked := cand.foldl (fun l p => insertRank (t.rank p.1, p.1, p.2) l) []
  let k := min (i.o2.word.toNat % 256) slots
  let low : Nat := match t with | .fl f => f.signed true f.infMag | t => patOf t.w t.lo
  let slot (j : Nat) : Nat × Nat :=
    match (if j < k then ranked[j]? else none) with
    | some p => ((match t with | .fl f => f.canon p.2.1 | _ => p.2.1), p.2.2)
    | none => (low, 0xFFFF)
  let l := (List.range slots).map slot
  { r := some (vecOf t.w (l.map (·.1) ++ l.map (·.2))), q := some (.sc (BitVec.ofNat 64 cand.length)) }

/-! ### Conversion (R139) -/

/-- Conv: one lane from a source type to a result type. -/
def convLane (src dst : LaneTy) (fpc : Word) (x : Nat) : Rounded :=
  match src, dst with
  | .fl f, .fl g =>
    if f = g then plainLane (f.canon x)
    else if g = .f32 then plainLane (roundTo g (f.value x) .rne).pat
    else roundLane g fpc (f.value x) [f.value x]
  | .fl f, d =>
    let r := convertInt d.lo d.hi (f.value x) (modeOf fpc)
    { pat := patOf d.w r.1, fl := r.2, sub := false }
  | s, .fl g => let v := rlInt (s.toInt x); roundLane g fpc v [v]
  | s, d =>
    let v := s.toInt x
    if v < d.lo then { pat := patOf d.w d.lo, fl := flSAT, sub := false }
    else if d.hi < v then { pat := patOf d.w d.hi, fl := flSAT, sub := false }
    else plainLane (patOf d.w v)

/-- The source type of VCVT and its half selector. -/
def VIn.cvtSrc (i : VIn) : Option VTy := tyOfNum (i.o2.word.toNat % 8)

/-- VCVT. -/
def fnVcvt (ty : VTy) (i : VIn) : VOut :=
  let d := laneTy ty
  match i.cvtSrc with
  | none => { r := some 0, fl := flNV }
  | some sty =>
    let s := laneTy sty
    let h := (i.o2.word.getLsbD 3).toNat
    let b := (i.b.lanes s.w).toNat
    if s.w = d.w then ofLanes d.w ((lanesOf s.w s.nl (i.b.lanes s.w)).map (convLane s d i.fpc))
    else if s.w = 32 then
      let new := (List.range 32).map (fun j => convLane s d i.fpc (laneOf 32 b j))
      let old := (lanesOf 16 64 (i.o1.lanes 16)).map plainLane
      ofLanes 16 (if h = 0 then new ++ old.drop 32 else old.take 32 ++ new)
    else ofLanes 32 ((List.range 32).map (fun j => convLane s d i.fpc (laneOf 16 b (32 * h + j))))

/-! ### VDOT2 and VCNTM (R140, R141) -/

/-- VDOT2. -/
def fnVdot2 (ty : VTy) (i : VIn) : VOut :=
  let a := (i.o1.lanes 16).toNat
  let b := (i.b.lanes 16).toNat
  let c := (i.o2.lanes 32).toNat
  ofLanes 32 ((List.range 32).map (fun j =>
    match laneTy ty with
    | .fl f =>
      let x0 := f.value (laneOf 16 a (2 * j))
      let y0 := f.value (laneOf 16 b (2 * j))
      let x1 := f.value (laneOf 16 a (2 * j + 1))
      let y1 := f.value (laneOf 16 b (2 * j + 1))
      let z := Fmt.f32.value (laneOf 32 c j)
      let rdn := isRdn i.fpc
      roundLane .f32 i.fpc (((x0.mul y0).add rdn (x1.mul y1)).add rdn z) [x0, y0, x1, y1, z]
    | _ =>
      let v (x k : Nat) : Int := signedOf 16 (laneOf 16 x k)
      plainLane (patOf 32 (v a (2 * j) * v b (2 * j) + v a (2 * j + 1) * v b (2 * j + 1)
        + signedOf 32 (laneOf 32 c j)))))

/-- VCNTM: the enabled lanes of b that are not zero, counted into .q. -/
def fnVcntm (ty : VTy) (i : VIn) : VOut :=
  { q := some (.sc (BitVec.ofNat 64
      (((i.bl (laneTy ty).w).zipIdx.filter (fun p => i.on p.2 && p.1 != 0)).length))) }

/-! ### The operations and the bundles whose one move triggers them -/


/-- VADD. -/
def opVadd (u : Fin 2) (ty : VTy) : Op := vecOp u 0 (lat42 ty) ty fnVadd

/-- The bundle whose one move triggers VADD. -/
def execVadd (u : Fin 2) (g : Guard) (src : Src) (ty : VTy) (s : State) : Host.Outcome State Fault Refusal :=
  issueTyped (laneLegal true true true ty) g src (opVadd u ty) s

/-- VSUB. -/
def opVsub (u : Fin 2) (ty : VTy) : Op := vecOp u 1 (lat42 ty) ty fnVsub

/-- The bundle whose one move triggers VSUB. -/
def execVsub (u : Fin 2) (g : Guard) (src : Src) (ty : VTy) (s : State) : Host.Outcome State Fault Refusal :=
  issueTyped (laneLegal true true true ty) g src (opVsub u ty) s

/-- VMUL. -/
def opVmul (u : Fin 2) (ty : VTy) : Op := vecOp u 2 (lat42 ty) ty fnVmul

/-- The bundle whose one move triggers VMUL. -/
def execVmul (u : Fin 2) (g : Guard) (src : Src) (ty : VTy) (s : State) : Host.Outcome State Fault Refusal :=
  issueTyped (laneLegal true true true ty) g src (opVmul u ty) s

/-- VFMA. -/
def opVfma (u : Fin 2) (ty : VTy) : Op := vecOp u 3 (lat42 ty) ty fnVfma

/-- The bundle whose one move triggers VFMA. -/
def execVfma (u : Fin 2) (g : Guard) (src : Src) (ty : VTy) (s : State) : Host.Outcome State Fault Refusal :=
  issueTyped (laneLegal true true true ty) g src (opVfma u ty) s

/-- VFMS. -/
def opVfms (u : Fin 2) (ty : VTy) : Op := vecOp u 4 (lat42 ty) ty fnVfms

/-- The bundle whose one move triggers VFMS. -/
def execVfms (u : Fin 2) (g : Guard) (src : Src) (ty : VTy) (s : State) : Host.Outcome State Fault Refusal :=
  issueTyped (laneLegal true true true ty) g src (opVfms u ty) s

/-- VNFMA. -/
def opVnfma (u : Fin 2) (ty : VTy) : Op := vecOp u 5 (lat42 ty) ty fnVnfma

/-- The bundle whose one move triggers VNFMA. -/
def execVnfma (u : Fin 2) (g : Guard) (src : Src) (ty : VTy) (s : State) : Host.Outcome State Fault Refusal :=
  issueTyped (laneLegal true true true ty) g src (opVnfma u ty) s

/-- VMIN. -/
def opVmin (u : Fin 2) (ty : VTy) : Op := vecOp u 6 (lat42 ty) ty fnVmin

/-- The bundle whose one move triggers VMIN. -/
def execVmin (u : Fin 2) (g : Guard) (src : Src) (ty : VTy) (s : State) : Host.Outcome State Fault Refusal :=
  issueTyped (laneLegal true true true ty) g src (opVmin u ty) s

/-- VMAX. -/
def opVmax (u : Fin 2) (ty : VTy) : Op := vecOp u 7 (lat42 ty) ty fnVmax

/-- The bundle whose one move triggers VMAX. -/
def execVmax (u : Fin 2) (g : Guard) (src : Src) (ty : VTy) (s : State) : Host.Outcome State Fault Refusal :=
  issueTyped (laneLegal true true true ty) g src (opVmax u ty) s

/-- VABS. -/
def opVabs (u : Fin 2) (ty : VTy) : Op := vecOp u 8 (lat42 ty) ty fnVabs

/-- The bundle whose one move triggers VABS. -/
def execVabs (u : Fin 2) (g : Guard) (src : Src) (ty : VTy) (s : State) : Host.Outcome State Fault Refusal :=
  issueTyped (laneLegal true true false ty) g src (opVabs u ty) s

/-- VNEG. -/
def opVneg (u : Fin 2) (ty : VTy) : Op := vecOp u 9 (lat42 ty) ty fnVneg

/-- The bundle whose one move triggers VNEG. -/
def execVneg (u : Fin 2) (g : Guard) (src : Src) (ty : VTy) (s : State) : Host.Outcome State Fault Refusal :=
  issueTyped (laneLegal true true false ty) g src (opVneg u ty) s

/-- VCMPEQ. -/
def opVcmpeq (u : Fin 2) (ty : VTy) : Op := vecOp u 10 (lat42 ty) ty fnVcmpeq

/-- The bundle whose one move triggers VCMPEQ. -/
def execVcmpeq (u : Fin 2) (g : Guard) (src : Src) (ty : VTy) (s : State) : Host.Outcome State Fault Refusal :=
  issueTyped (laneLegal true true true ty) g src (opVcmpeq u ty) s

/-- VCMPLT. -/
def opVcmplt (u : Fin 2) (ty : VTy) : Op := vecOp u 11 (lat42 ty) ty fnVcmplt

/-- The bundle whose one move triggers VCMPLT. -/
def execVcmplt (u : Fin 2) (g : Guard) (src : Src) (ty : VTy) (s : State) : Host.Outcome State Fault Refusal :=
  issueTyped (laneLegal true true true ty) g src (opVcmplt u ty) s

/-- VCMPLE. -/
def opVcmple (u : Fin 2) (ty : VTy) : Op := vecOp u 12 (lat42 ty) ty fnVcmple

/-- The bundle whose one move triggers VCMPLE. -/
def execVcmple (u : Fin 2) (g : Guard) (src : Src) (ty : VTy) (s : State) : Host.Outcome State Fault Refusal :=
  issueTyped (laneLegal true true true ty) g src (opVcmple u ty) s

/-- VCMPUN. -/
def opVcmpun (u : Fin 2) (ty : VTy) : Op := vecOp u 13 4 ty fnVcmpun

/-- The bundle whose one move triggers VCMPUN. -/
def execVcmpun (u : Fin 2) (g : Guard) (src : Src) (ty : VTy) (s : State) : Host.Outcome State Fault Refusal :=
  issueTyped (laneLegal true false false ty) g src (opVcmpun u ty) s

/-- VAND. -/
def opVand (u : Fin 2) (ty : VTy) : Op := vecOp u 14 2 ty fnVand

/-- The bundle whose one move triggers VAND. -/
def execVand (u : Fin 2) (g : Guard) (src : Src) (ty : VTy) (s : State) : Host.Outcome State Fault Refusal :=
  issueTyped (laneLegal false true true ty) g src (opVand u ty) s

/-- VOR. -/
def opVor (u : Fin 2) (ty : VTy) : Op := vecOp u 15 2 ty fnVor

/-- The bundle whose one move triggers VOR. -/
def execVor (u : Fin 2) (g : Guard) (src : Src) (ty : VTy) (s : State) : Host.Outcome State Fault Refusal :=
  issueTyped (laneLegal false true true ty) g src (opVor u ty) s

/-- VXOR. -/
def opVxor (u : Fin 2) (ty : VTy) : Op := vecOp u 16 2 ty fnVxor

/-- The bundle whose one move triggers VXOR. -/
def execVxor (u : Fin 2) (g : Guard) (src : Src) (ty : VTy) (s : State) : Host.Outcome State Fault Refusal :=
  issueTyped (laneLegal false true true ty) g src (opVxor u ty) s

/-- VSHL. -/
def opVshl (u : Fin 2) (ty : VTy) : Op := vecOp u 17 2 ty fnVshl

/-- The bundle whose one move triggers VSHL. -/
def execVshl (u : Fin 2) (g : Guard) (src : Src) (ty : VTy) (s : State) : Host.Outcome State Fault Refusal :=
  issueTyped (laneLegal false true true ty) g src (opVshl u ty) s

/-- VSHR. -/
def opVshr (u : Fin 2) (ty : VTy) : Op := vecOp u 18 2 ty fnVshr

/-- The bundle whose one move triggers VSHR. -/
def execVshr (u : Fin 2) (g : Guard) (src : Src) (ty : VTy) (s : State) : Host.Outcome State Fault Refusal :=
  issueTyped (laneLegal false true true ty) g src (opVshr u ty) s

/-- VSAR. -/
def opVsar (u : Fin 2) (ty : VTy) : Op := vecOp u 19 2 ty fnVsar

/-- The bundle whose one move triggers VSAR. -/
def execVsar (u : Fin 2) (g : Guard) (src : Src) (ty : VTy) (s : State) : Host.Outcome State Fault Refusal :=
  issueTyped (laneLegal false true false ty) g src (opVsar u ty) s

/-- VSEL. -/
def opVsel (u : Fin 2) (ty : VTy) : Op := vecOp u 20 2 ty fnVsel

/-- The bundle whose one move triggers VSEL. -/
def execVsel (u : Fin 2) (g : Guard) (src : Src) (ty : VTy) (s : State) : Host.Outcome State Fault Refusal :=
  issueTyped (laneLegal true true true ty) g src (opVsel u ty) s

/-- VBCAST. -/
def opVbcast (u : Fin 2) (ty : VTy) : Op := vecOp u 21 2 ty fnVbcast

/-- The bundle whose one move triggers VBCAST. -/
def execVbcast (u : Fin 2) (g : Guard) (src : Src) (ty : VTy) (s : State) : Host.Outcome State Fault Refusal :=
  issueTyped (laneLegal true true true ty) g src (opVbcast u ty) s

/-- VPERM. -/
def opVperm (u : Fin 2) (ty : VTy) : Op := vecOp u 22 3 ty fnVperm

/-- The bundle whose one move triggers VPERM. -/
def execVperm (u : Fin 2) (g : Guard) (src : Src) (ty : VTy) (s : State) : Host.Outcome State Fault Refusal :=
  issueTyped (laneLegal true true true ty) g src (opVperm u ty) s

/-- VTBL. -/
def opVtbl (u : Fin 2) (ty : VTy) : Op :=
  let f := vecOp u 23 3 ty fnVtbl
  { f with blk := fun i => i.s.kbWrites i.cid false (i.o2.word.toNat % 16) }

/-- The bundle whose one move triggers VTBL. -/
def execVtbl (u : Fin 2) (g : Guard) (src : Src) (ty : VTy) (s : State) : Host.Outcome State Fault Refusal :=
  issueTyped (laneLegal true false false ty) g src (opVtbl u ty) s

/-- VREDADD. -/
def opVredadd (u : Fin 2) (ty : VTy) : Op := vecOp u 24 6 ty fnVredadd

/-- The bundle whose one move triggers VREDADD. -/
def execVredadd (u : Fin 2) (g : Guard) (src : Src) (ty : VTy) (s : State) : Host.Outcome State Fault Refusal :=
  issueTyped (laneLegal true true true ty) g src (opVredadd u ty) s

/-- VREDMAX. -/
def opVredmax (u : Fin 2) (ty : VTy) : Op := vecOp u 25 6 ty fnVredmax

/-- The bundle whose one move triggers VREDMAX. -/
def execVredmax (u : Fin 2) (g : Guard) (src : Src) (ty : VTy) (s : State) : Host.Outcome State Fault Refusal :=
  issueTyped (laneLegal true true true ty) g src (opVredmax u ty) s

/-- VREDMIN. -/
def opVredmin (u : Fin 2) (ty : VTy) : Op := vecOp u 26 6 ty fnVredmin

/-- The bundle whose one move triggers VREDMIN. -/
def execVredmin (u : Fin 2) (g : Guard) (src : Src) (ty : VTy) (s : State) : Host.Outcome State Fault Refusal :=
  issueTyped (laneLegal true true true ty) g src (opVredmin u ty) s

/-- VSCAN. -/
def opVscan (u : Fin 2) (ty : VTy) : Op := vecOp u 27 8 ty fnVscan

/-- The bundle whose one move triggers VSCAN. -/
def execVscan (u : Fin 2) (g : Guard) (src : Src) (ty : VTy) (s : State) : Host.Outcome State Fault Refusal :=
  issueTyped (laneLegal true true true ty) g src (opVscan u ty) s

/-- VTOPK. -/
def opVtopk (u : Fin 2) (ty : VTy) : Op := vecOp u 28 10 ty fnVtopk

/-- The bundle whose one move triggers VTOPK. -/
def execVtopk (u : Fin 2) (g : Guard) (src : Src) (ty : VTy) (s : State) : Host.Outcome State Fault Refusal :=
  issueTyped (laneLegal true true true ty) g src (opVtopk u ty) s

/-- VCVT. -/
def opVcvt (u : Fin 2) (ty : VTy) : Op :=
  laneOp (vaUnit u) (8 * 29 + tyNum ty) 2 false (fun i => ((i.cvtSrc.map laneTy).getD (laneTy ty)).w) (fun _ => 16) (fnVcvt ty)

/-- The bundle whose one move triggers VCVT. -/
def execVcvt (u : Fin 2) (g : Guard) (src : Src) (ty : VTy) (s : State) : Host.Outcome State Fault Refusal :=
  issueTyped (laneLegal true true true ty) g src (opVcvt u ty) s

/-- VMULH. -/
def opVmulh (u : Fin 2) (ty : VTy) : Op := vecOp u 30 2 ty fnVmulh

/-- The bundle whose one move triggers VMULH. -/
def execVmulh (u : Fin 2) (g : Guard) (src : Src) (ty : VTy) (s : State) : Host.Outcome State Fault Refusal :=
  issueTyped (laneLegal false true true ty) g src (opVmulh u ty) s

/-- VDOT2. -/
def opVdot2 (u : Fin 2) (ty : VTy) : Op :=
  laneOp (vaUnit u) (8 * 31 + tyNum ty) (lat42 ty) false (fun _ => 16) (fun _ => 16) (fnVdot2 ty) (fun _ => 32)

/-- The bundle whose one move triggers VDOT2. -/
def execVdot2 (u : Fin 2) (g : Guard) (src : Src) (ty : VTy) (s : State) : Host.Outcome State Fault Refusal :=
  issueTyped (ty == .bf16 || ty == .f16 || ty == .i16) g src (opVdot2 u ty) s

/-- VCLAMP. -/
def opVclamp (u : Fin 2) (ty : VTy) : Op := vecOp u 32 (lat42 ty) ty fnVclamp

/-- The bundle whose one move triggers VCLAMP. -/
def execVclamp (u : Fin 2) (g : Guard) (src : Src) (ty : VTy) (s : State) : Host.Outcome State Fault Refusal :=
  issueTyped (laneLegal true true true ty) g src (opVclamp u ty) s

/-- VCNTM. -/
def opVcntm (u : Fin 2) (ty : VTy) : Op := vecOp u 33 2 ty fnVcntm

/-- The bundle whose one move triggers VCNTM. -/
def execVcntm (u : Fin 2) (g : Guard) (src : Src) (ty : VTy) (s : State) : Host.Outcome State Fault Refusal :=
  issueTyped (laneLegal false true false ty) g src (opVcntm u ty) s

end Sys2Proof.Machine
end

