-- ==== Sys2Proof/Machine/Bundle.lean ====
section
/-! DEFINITION. Bundles of any number of moves (spec/02_bundles.md R33): the operation of each trigger, and the issue of a
bundle; which context of a core can issue (spec/20_progress.md R300); and the steps of a context's bundle boundary
(R34, R39, R72) and of the random-bit generator (spec/06_numbers.md R124). -/

namespace Sys2Proof.Machine

/-- The operation that a trigger instruction runs; none where its type field names no variant (R53). -/
def opOf (i : Instr) : Option Op :=
  match i with
  | .add u _ _ w => some (opAdd u w)
  | .sub u _ _ w => some (opSub u w)
  | .mul u _ _ w => some (opMul u w)
  | .mulh u _ _ w => some (opMulh u w)
  | .mulhu u _ _ w => some (opMulhu u w)
  | .div u _ _ w => some (opDiv u w)
  | .divu u _ _ w => some (opDivu u w)
  | .rem u _ _ w => some (opRem u w)
  | .remu u _ _ w => some (opRemu u w)
  | .and u _ _ w => some (opAnd u w)
  | .or u _ _ w => some (opOr u w)
  | .xor u _ _ w => some (opXor u w)
  | .andn u _ _ w => some (opAndn u w)
  | .shl u _ _ w => some (opShl u w)
  | .shr u _ _ w => some (opShr u w)
  | .sar u _ _ w => some (opSar u w)
  | .rol u _ _ w => some (opRol u w)
  | .clz u _ _ w => some (opClz u w)
  | .ctz u _ _ w => some (opCtz u w)
  | .popc u _ _ w => some (opPopc u w)
  | .min u _ _ w => some (opMin u w)
  | .max u _ _ w => some (opMax u w)
  | .minu u _ _ w => some (opMinu u w)
  | .maxu u _ _ w => some (opMaxu u w)
  | .cmpeq u _ _ w => some (opCmpeq u w)
  | .cmpne u _ _ w => some (opCmpne u w)
  | .cmplt u _ _ w => some (opCmplt u w)
  | .cmpltu u _ _ w => some (opCmpltu u w)
  | .cmple u _ _ w => some (opCmple u w)
  | .cmpleu u _ _ w => some (opCmpleu u w)
  | .sel u _ _ => some (opSel u)
  | .extb u _ _ w => some (opExtb u w)
  | .insb u _ _ w => some (opInsb u w)
  | .sext u _ _ => some (opSext u)
  | .zext u _ _ => some (opZext u)
  | .mov u _ _ w => some (opMov u w)
  | .lea u _ _ => some (opLea u)
  | .bswap u _ _ w => some (opBswap u w)
  | .vadd u _ _ ty => if laneLegal true true true ty then some (opVadd u ty) else none
  | .vsub u _ _ ty => if laneLegal true true true ty then some (opVsub u ty) else none
  | .vmul u _ _ ty => if laneLegal true true true ty then some (opVmul u ty) else none
  | .vfma u _ _ ty => if laneLegal true true true ty then some (opVfma u ty) else none
  | .vfms u _ _ ty => if laneLegal true true true ty then some (opVfms u ty) else none
  | .vnfma u _ _ ty => if laneLegal true true true ty then some (opVnfma u ty) else none
  | .vmin u _ _ ty => if laneLegal true true true ty then some (opVmin u ty) else none
  | .vmax u _ _ ty => if laneLegal true true true ty then some (opVmax u ty) else none
  | .vabs u _ _ ty => if laneLegal true true false ty then some (opVabs u ty) else none
  | .vneg u _ _ ty => if laneLegal true true false ty then some (opVneg u ty) else none
  | .vcmpeq u _ _ ty => if laneLegal true true true ty then some (opVcmpeq u ty) else none
  | .vcmplt u _ _ ty => if laneLegal true true true ty then some (opVcmplt u ty) else none
  | .vcmple u _ _ ty => if laneLegal true true true ty then some (opVcmple u ty) else none
  | .vcmpun u _ _ ty => if laneLegal true false false ty then some (opVcmpun u ty) else none
  | .vand u _ _ ty => if laneLegal false true true ty then some (opVand u ty) else none
  | .vor u _ _ ty => if laneLegal false true true ty then some (opVor u ty) else none
  | .vxor u _ _ ty => if laneLegal false true true ty then some (opVxor u ty) else none
  | .vshl u _ _ ty => if laneLegal false true true ty then some (opVshl u ty) else none
  | .vshr u _ _ ty => if laneLegal false true true ty then some (opVshr u ty) else none
  | .vsar u _ _ ty => if laneLegal false true false ty then some (opVsar u ty) else none
  | .vsel u _ _ ty => if laneLegal true true true ty then some (opVsel u ty) else none
  | .vbcast u _ _ ty => if laneLegal true true true ty then some (opVbcast u ty) else none
  | .vperm u _ _ ty => if laneLegal true true true ty then some (opVperm u ty) else none
  | .vtbl u _ _ ty => if laneLegal true false false ty then some (opVtbl u ty) else none
  | .vredadd u _ _ ty => if laneLegal true true true ty then some (opVredadd u ty) else none
  | .vredmax u _ _ ty => if laneLegal true true true ty then some (opVredmax u ty) else none
  | .vredmin u _ _ ty => if laneLegal true true true ty then some (opVredmin u ty) else none
  | .vscan u _ _ ty => if laneLegal true true true ty then some (opVscan u ty) else none
  | .vtopk u _ _ ty => if laneLegal true true true ty then some (opVtopk u ty) else none
  | .vcvt u _ _ ty => if laneLegal true true true ty then some (opVcvt u ty) else none
  | .vmulh u _ _ ty => if laneLegal false true true ty then some (opVmulh u ty) else none
  | .vdot2 u _ _ ty => if ty == .bf16 || ty == .f16 || ty == .i16 then some (opVdot2 u ty) else none
  | .vclamp u _ _ ty => if laneLegal true true true ty then some (opVclamp u ty) else none
  | .vcntm u _ _ ty => if laneLegal false true false ty then some (opVcntm u ty) else none
  | .xrcp _ _ ty => some (opXrcp ty)
  | .xrsq _ _ ty => some (opXrsq ty)
  | .xsqrt _ _ ty => some (opXsqrt ty)
  | .xexp2 _ _ ty => some (opXexp2 ty)
  | .xlog2 _ _ ty => some (opXlog2 ty)
  | .xexp _ _ ty => some (opXexp ty)
  | .xsin _ _ ty => some (opXsin ty)
  | .xcos _ _ ty => some (opXcos ty)
  | .xtanh _ _ ty => some (opXtanh ty)
  | .xsigm _ _ ty => some (opXsigm ty)
  | .xgelu _ _ ty => some (opXgelu ty)
  | .xsilu _ _ ty => some (opXsilu ty)
  | .xdiv _ _ ty => some (opXdiv ty)
  | .unpk4s _ _ => some opUnpk4s
  | .unpk4z _ _ => some opUnpk4z
  | .unpk6s _ _ => some opUnpk6s
  | .unpk6z _ _ => some opUnpk6z
  | .unpk8s _ _ => some opUnpk8s
  | .unpk8z _ _ => some opUnpk8z
  | .unpke4 _ _ => some opUnpke4
  | .unpke5 _ _ => some opUnpke5
  | .unpksn4 _ _ => some opUnpksn4
  | .bsread _ _ => some opBsread
  | .bsinit _ _ => some opBsinit
  | .unpkix _ _ => some opUnpkix
  | .pack4s _ _ wrap => some (opPack4s wrap)
  | .pack4z _ _ wrap => some (opPack4z wrap)
  | .pack6s _ _ wrap => some (opPack6s wrap)
  | .pack6z _ _ wrap => some (opPack6z wrap)
  | .pack8s _ _ wrap => some (opPack8s wrap)
  | .pack8z _ _ wrap => some (opPack8z wrap)
  | .packe4 _ _ rm => some (opPacke4 rm)
  | .packe5 _ _ rm => some (opPacke5 rm)
  | .packb16 _ _ rm => some (opPackb16 rm)
  | .packh16 _ _ rm => some (opPackh16 rm)
  | .packix _ _ wrap => some (opPackix wrap)
  | .ld8s _ _ a => some (opLd8s a)
  | .ld8z _ _ a => some (opLd8z a)
  | .ld16s _ _ a => some (opLd16s a)
  | .ld16z _ _ a => some (opLd16z a)
  | .ld32s _ _ a => some (opLd32s a)
  | .ld32z _ _ a => some (opLd32z a)
  | .ld64 _ _ a => some (opLd64 a)
  | .st8 _ _ a => some (opSt8 a)
  | .st16 _ _ a => some (opSt16 a)
  | .st32 _ _ a => some (opSt32 a)
  | .st64 _ _ a => some (opSt64 a)
  | .vld _ _ a => some (opVld a)
  | .vst _ _ a => some (opVst a)
  | .vldl _ _ a => some (opVldl a)
  | .vstl _ _ a => some (opVstl a)
  | .vgath _ _ a => some (opVgath a)
  | .vscat _ _ a => some (opVscat a)
  | .ldx _ _ a => some (opLdx a)
  | .vldx _ _ a => some (opVldx a)
  | .stx _ _ a => some (opStx a)
  | .vstx _ _ a => some (opVstx a)
  | .amoadd _ _ a => some (opAmoadd a)
  | .amomin _ _ a => some (opAmomin a)
  | .amomax _ _ a => some (opAmomax a)
  | .amoswap _ _ a => some (opAmoswap a)
  | .amocas _ _ a => some (opAmocas a)
  | .amofadd _ _ a => some (opAmofadd a)
  | .drain _ _ sc => some (opDrain sc)
  | .map _ _ => some opMap
  | .unmap _ _ => some opUnmap
  | .ownset _ _ => some opOwnset
  | .br _ _ => some opBr
  | .brc _ _ j => some (opBrc j)
  | .brnc _ _ j => some (opBrnc j)
  | .call _ _ => some opCall
  | .ret _ _ => some opRet
  | .loop _ _ => some opLoop
  | .loopi _ _ => some opLoopi
  | .exit _ _ => some opExit
  | .wait _ _ => some opWait
  | .csrrd _ _ => some opCsrrd
  | .csrwr _ _ => some opCsrwr
  | .trap _ _ => some opTrap
  | .qpt _ _ => some opQpt
  | .probe _ _ => some opProbe
  | .spawn _ _ pri => some (opSpawn pri)
  | .joini _ _ => some opJoini
  | .gbar _ _ j => some (opGbar j)
  | .tdone _ _ => some opTdone
  | .twaitb _ _ => some opTwaitb
  | .eret _ _ => some opEret
  | .halt _ _ => some opHalt
  | .mma _ _ sp h => some (opMma sp h)
  | .mzero _ _ h => some (opMzero h)
  | .mdrain _ _ h => some (opMdrain h)
  | .mload _ _ h => some (opMload h)
  | .msetq _ _ => some opMsetq
  | .msetd _ _ => some opMsetd
  | .mcfg _ _ => some opMcfg
  | .cpy _ _ => some opCpy
  | .cpy2d _ _ => some opCpy2d
  | .cpy3d _ _ => some opCpy3d
  | .fill _ _ => some opFill
  | .cpst _ _ => some opCpst
  | .atom _ _ => some opAtom
  | .atomnr _ _ => some opAtomnr
  | .afence _ _ => some opAfence
  | .gathr _ _ => some opGathr
  | .scatr _ _ => some opScatr
  | .binput _ _ => some opBinput
  | .binflush _ _ => some opBinflush
  | .binplay _ _ => some opBinplay
  | .fqcnt _ _ => some opFqcnt
  | .tdecl _ _ => some opTdecl
  | .tld _ _ => some opTld
  | .tst _ _ => some opTst
  | .tadd _ _ => some opTadd
  | .tscan _ _ => some opTscan
  | .tnext _ _ => some opTnext
  | .tclose _ _ => some opTclose
  | .tdense _ _ => some opTdense
  | .tcount _ _ => some opTcount
  | .tpool _ _ => some opTpool
  | .rkon _ _ => some opRkon
  | .rkoff _ _ => some opRkoff
  | .rkldt _ _ => some opRkldt
  | .rkstt _ _ => some opRkstt
  | .rkkey _ _ => some opRkkey
  | .rkcmp _ _ => some opRkcmp
  | .rkwr _ _ => some opRkwr
  | .rktt _ _ => some opRktt
  | .rkcnt _ _ => some opRkcnt
  | .rkfind _ _ => some opRkfind
  | .rkmapi _ _ => some opRkmapi
  | .wset _ _ n => some (opWset n)
  | .wrel _ _ n => some (opWrel n)
  | .wstat _ _ n => some (opWstat n)
  | .wskip _ _ n => some (opWskip n)
  | .kld _ _ => some opKld
  | .kst _ _ => some opKst
  | .kmap _ _ f => some (opKmap f)
  | .kpair _ _ o => some (opKpair o)
  | .kcmp _ _ => some opKcmp
  | .ksort _ _ => some opKsort
  | .reclu _ _ m => some (opReclu m)
  | .kremap _ _ => some opKremap
  | .kget _ _ => some opKget
  | .kset _ _ => some opKset
  | .kcnt _ _ => some opKcnt
  | .kxld _ _ => some opKxld
  | .kxst _ _ => some opKxst
  | .kfmt _ _ => some opKfmt
  | _ => none

/-- A move with the operation of the trigger that it carries. -/
def slotOf (m : Move) : Slot :=
  match m.dst with
  | .trig t => { mv := m, op := (trigOn m.bus t.val m.guard m.src).bind opOf }
  | _ => { mv := m, op := none }

/-- BUNDLE_ISSUE (R33): the context `cur` issues a whole bundle. -/
def execBundleIssue (moves : List Move) (s : State) : Host.Outcome State Fault Refusal := issueWith (moves.map slotOf) s

/-! ### Which context issues (R300) -/

/-- What is due at the boundary before a context's next bundle: a trap or pre-emption, which the context takes. -/
def boundaryDue (s : State) (cid : Cid) : Bool := (((Eff.start s).settle cid).boundary cid).isSome

/-- What a context's next bundle comes to if it is tried now: the effect of what is due before it, and that with its
own. -/
def tried (s : State) (cid : Cid) (i : Instr) (len : Nat) : Eff × Eff :=
  let e := (Eff.start { s with cur := cid, ir := len }).settle cid
  (e, e.bundle cid (((movesOfInstr i).getD []).map slotOf))

/-- Whether the next bundle of a context could issue now, or would trap: it would not block. -/
def canIssue (s : State) (cid : Cid) : Bool :=
  let c := s.ctx cid
  if c.st ≠ .live ∨ c.ended then false
  else if boundaryDue s cid then true
  else
    match fetched s cid c.nextPc with
    | .trap _ => true
    | .fetch _ => false
    | .run i len => !((tried s cid i len).2.st.ctx cid).blocked

/-- Whether the next bundle of a context would block and yet do something when tried: its wait begins or goes on, as a
GBAR that arrives, a PROBE that asks for a page or a TWAITB that enters its wait (R320, R326, R336; log entry 29). -/
def stirs (s : State) (cid : Cid) : Bool :=
  let c := s.ctx cid
  if c.st ≠ .live ∨ c.ended ∨ boundaryDue s cid then false
  else
    match fetched s cid c.nextPc with
    | .run i len =>
      let p := tried s cid i len
      let d := p.2.st.ctx cid
      d.blocked && ({ p.1.st.ctx cid with blocked := true, lastSeq := (p.1.st.ctx cid).seq } != d ||
        (p.1.st.core cid.core).icache.length != (p.2.st.core cid.core).icache.length)
    | _ => false

/-- The first context of a core whose bundle can issue, or has something to do while it waits, from the next context
index upward modulo 4 (R300). -/
def switchTo (s : State) (n : Fin 4112) : Option (Fin 4) :=
  let r := (s.core n).running
  [r + 1, r + 2, r + 3, r].find? (fun i => canIssue s ⟨n, i⟩ || stirs s ⟨n, i⟩)

/-- Whether the running context of a core has blocked, ended, trapped or been pre-empted. -/
def leavesOff (s : State) (n : Fin 4112) : Bool :=
  let c := s.ctx ⟨n, (s.core n).running⟩
  c.st != .live || c.ended || c.blocked

/-- Whether another context must be made running before the core issues. -/
def mustSwitch (s : State) (n : Fin 4112) : Bool :=
  leavesOff s n && !(s.core n).stalled && (match switchTo s n with | some i => i != (s.core n).running | none => false)

/-- A context becomes the running one of its core. -/
def Eff.switch (e : Eff) (n : Fin 4112) (i : Fin 4) : Eff :=
  (e.on (fun s => s.modCore n (fun k => { k with running := i, stalled := false }))).ctx ⟨n, i⟩
    (fun c => { c with blocked := false })

/-- CONTEXT_SWITCH (R300): once the running context of the core of `act` has blocked, ended, trapped or been pre-empted, the
core makes running the first context that can issue or whose wait goes on. Where there is none it has stalled, and the
context that the step names, which has become able since, then runs (log entry 29). -/
def execContextSwitch (s : State) : Host.Outcome State Fault Refusal :=
  let n := s.act.cid.core
  if !leavesOff s n || (s.core n).gated then stutter s
  else if (s.core n).stalled then
    if canIssue s s.act.cid || stirs s s.act.cid then done s ((Eff.start s).switch n s.act.cid.ctx) else stutter s
  else
    match switchTo s n with
    | some i => if i = (s.core n).running then stutter s else done s ((Eff.start s).switch n i)
    | none => done s ((Eff.start s).on (fun s => s.modCore n (fun k => { k with stalled := true })))

/-- The state with a core no longer stalled: its running context tries a bundle. -/
def State.unstall (s : State) (n : Fin 4112) : State :=
  if (s.core n).stalled then s.modCore n (fun k => { k with stalled := false }) else s

/-! ### The steps of a bundle boundary -/

/-- RESULT_VISIBLE (R34): the results of the context of `act` that are due become visible, with their flags. -/
def execResultVisible (s : State) : Host.Outcome State Fault Refusal :=
  done s ((Eff.start s).ctx s.act.cid Ctx.landResults)

/-- TRANSFER_EFFECT (R39): a taken control transfer whose two bundles have issued redirects the context of `act`. -/
def execTransferEffect (s : State) : Host.Outcome State Fault Refusal :=
  done s ((Eff.start s).ctx s.act.cid Ctx.redirect)

/-- LOOP_STATE_COMMIT (R72): the loop state that is due takes effect in the context of `act`. -/
def execLoopStateCommit (s : State) : Host.Outcome State Fault Refusal :=
  done s ((Eff.start s).ctx s.act.cid Ctx.commitLoop)

/-- Append the next word of the generator to a context's queue. -/
def Ctx.rbPush (c : Ctx) : Ctx :=
  { c with rbq := c.rbq ++ [rbWord c.rbseed (c.rbn + BitVec.ofNat 48 c.rbq.length)] }

/-- The context of a core with the shortest random-bit queue, the lowest index where they tie. -/
def shortest (k : Core) : Fin 4 :=
  ([1, 2, 3] : List (Fin 4)).foldl (fun b i => if (k.at i).rbq.length < (k.at b).rbq.length then i else b) 0

/-- RANDOM_WORD_GENERATE (R124): the generator of the core of `act` gives one word to the context with the shortest
queue, if it has room. -/
def execRandomWordGenerate (s : State) : Host.Outcome State Fault Refusal :=
  let n := s.act.cid.core
  let i := shortest (s.core n)
  if ((s.core n).at i).rbq.length < 8 then done s ((Eff.start s).ctx ⟨n, i⟩ Ctx.rbPush) else stutter s

end Sys2Proof.Machine
end

