-- ==== Sys2Proof/Machine/Lift.lean ====
section
/-! DEFINITION. The lift units, the post queues, join records, groups and power gating (spec/20_progress.md R302 to R326;
spec/04_core_ops.md R77, R78). -/

namespace Sys2Proof.Machine

/-! ### Rings (R303, R310) -/

/-- Ring `q`: 4c + p for priority p of cluster c, 64 for the device queue. -/
def State.ring (s : State) (q : Nat) : List LRec := s.rings.getD q []

/-- The state with a ring set. -/
def State.setRing (s : State) (q : Nat) (r : List LRec) : State :=
  { s with rings := (List.range 65).map (fun i => if i = q then r else s.ring i) }

/-- Whether a cluster holds a member core of a group. -/
def clusterHas (g : Group) (c : Nat) : Bool := (g.members >>> (256 * c)).setWidth 256 != (0 : BitVec 256)

/-- The ring that a record pushed by a context goes to (R302 HMODE, HG, PRI). -/
def ringFor (s : State) (cid : Cid) (ctrl : Word) : Nat :=
  let c := (clusterOf cid.core).val
  let p := field ctrl 0 2
  match field ctrl 8 2 with
  | 1 =>
    let g := groupsGet s.groups (field ctrl 16 8)
    4 * (((List.range 16).map (fun i => (c + i) % 16)).find? (clusterHas g)).getD c + p
  | 2 => 64
  | _ => 4 * c + p

/-- The slot that the next record of a ring takes: the one after the newest record's (R303). -/
def State.nextSlot (s : State) (q : Nat) : Nat :=
  match (s.ring q).getLast? with
  | some r => (r.slot + 1) % s.launch.liftcap
  | none => 0

/-- The address of a slot of a ring (R303). -/
def State.slotAddr (s : State) (q slot : Nat) : Word :=
  s.launch.liftb + BitVec.ofNat 64 (32 * s.launch.liftcap * q + 32 * slot)

/-- The key of a slot, which the lift unit of the ring's cluster translates: cluster 0 for the device queue (R303). -/
def State.slotKey (s : State) (q slot : Nat) (wr : Bool) : Xl :=
  translate s (Fin.ofNat 16 (if q = 64 then 0 else q / 4)) s.launch.pasid (s.slotAddr q slot).toNat wr

/-- What a push or a pop comes to: done, no room, a wait, or a page that is not to be had. -/
inductive Pushed where
  | did (e : Eff)
  | full
  | wait
  | gone (a : Word) (x : Xl)

/-- A record put at the end of a ring, whose storage then holds it (R303, log entry 14). -/
def Eff.pushTo (e : Eff) (q : Nat) (code frame join ctrl : Word) : Pushed :=
  let n := e.st.nextSlot q
  match e.st.slotKey q n true with
  | .ok k =>
    let ord := e.st.pushes
    let r : LRec := { code := code, frame := frame, join := join, ctrl := ctrl, ord := ord, slot := n }
    .did ((e.put (wrNat k 32 (Config.ringRecord ord).toNat)).on (fun s =>
      { s.setRing q (s.ring q ++ [r]) with pushes := ord + 1 }))
  | .wait => .wait
  | x => .gone (e.st.slotAddr q n) x

/-- The ring that a push goes to (R310): its own, or the device queue where that is full; none while that is full too. -/
def State.pushRing (s : State) (cid : Cid) (ctrl : Word) : Option Nat :=
  let q := ringFor s cid ctrl
  if (s.ring q).length < s.launch.liftcap then some q
  else if (s.ring 64).length < s.launch.liftcap then some 64
  else none

/-- A push (R310). -/
def Eff.push (e : Eff) (cid : Cid) (code frame join ctrl : Word) : Pushed :=
  match e.st.pushRing cid ctrl with
  | some q => e.pushTo q code frame join ctrl
  | none => .full

/-! ### Pages that the launch contract keeps present (R318) -/

/-- Whether an address lies on a page of the root join record or of the lift storage. -/
def State.launchPage (s : State) (a : Word) : Bool :=
  let p := a.toNat / 4096
  p == s.launch.rootj.toNat / 4096 || p == (s.launch.rootj.toNat + 39) / 4096 ||
    (s.launch.liftb.toNat / 4096 ≤ p && p ≤ (s.launch.liftb.toNat + 65 * 32 * s.launch.liftcap - 1) / 4096)

/-- Firmware asks the host again for a page of the launch contract that a party needs (R318); none where the host
refuses it. -/
def Eff.launchAsk (e : Eff) (cid : Cid) (a : Word) : Option Eff :=
  let c := e.st.ctx cid
  let p := a.toNat / 4096 * 4096
  match c.probe.bind (·.asked) with
  | none =>
    let (s, u) := e.st.askPage e.st.launch.pasid p true
    some ((e.on (fun _ => s)).ctx cid (fun c => { c with probe := some { page := p, tries := 0, asked := u } }))
  | some u =>
    match e.st.priCode u with
    | none => some e
    | some .success =>
      some ((e.on (fun s => { s with pri := s.pri.filter (fun r => r.uid != u) })).ctx cid (fun c => { c with probe := none }))
    | some _ => none

/-- What a page that is not present comes to for a post-queue entry, a join step or a pop: firmware's request for a page of
the launch contract, and the trap `t` with the page where the host refuses it; else `t` with the argument `x`. -/
def Eff.pageGone (e : Eff) (cid : Cid) (a : Word) (r : Xl) (t : Eff → Word → Eff) (x : Word) : Eff :=
  if e.st.launchPage a && r == .absent then
    match e.launchAsk cid a with
    | some e => e
    | none => t (e.ctx cid (fun c => { c with probe := none })) (a &&& ~~~4095)
  else t e x

/-! ### The post queue (R309 to R311, R325) -/

/-- Whether every operation counted in ld, st, cp or tl that a context triggered before a place in its order has
completed (R309); an ATOMNR has once it is accepted. -/
def allCounted (s : State) (cid : Cid) (seq : Nat) : Bool :=
  let k := s.core cid.core
  (s.ctx cid).sb.all (fun o => seq ≤ o.seq) &&
  s.cmds.all (fun c => c.cid != cid || seq ≤ c.seq || (c.bus == 10 && c.t == 6 && c.st == .accepted)) &&
  (s.kbOps cid).all (fun o => seq ≤ o.seq) &&
  ((k.mxRun.map (·.op)).toList ++ k.mxq).all (fun o => o.ctx != cid.ctx || seq ≤ o.seq)

/-- The head entry leaves the post queue. -/
def Eff.postDone (e : Eff) (cid : Cid) : Eff := e.ctx cid (fun c => { c with post := c.post.tail })

/-- The head entry performs nothing, and its context takes FATAL_UNPROBED at its next boundary (R309). -/
def Eff.postFault (e : Eff) (cid : Cid) (a : Word) : Eff := (e.postDone cid).ctx cid (fun c => c.addDue causeUnprobed a)

/-- A join record at hand: its key, or why not. -/
def joinPlace (s : State) (cid : Cid) (a : Word) : Xl × Bool :=
  match blockKey s cid a true with
  | .ok k => (.ok k, keyHeld s k 40 || atomicHeld s k 40)
  | .wait => (.wait, true)
  | x => (x, false)

/-- The head entry of a context's post queue performs; none while it has to wait. -/
def Eff.postHead (e : Eff) (cid : Cid) : PostKind → Option Eff
  | .spawn code frame join ctrl =>
    if code = 0 then some (e.postDone cid)
    else
      match e.push cid code frame join ctrl with
      | .did f => some (f.postDone cid)
      | .gone a x => some (e.pageGone cid a x (fun e a => e.postFault cid a) a)
      | .full | .wait => none
  | .joini a n add =>
    match joinPlace e.st cid a with
    | (_, true) => none
    | (.ok k, false) =>
      let ws := if add then wrNat k 4 ((e.st.mem.nat k 4 + n.toNat) % 2 ^ 32) else wrNat k 8 n.toNat
      some ((e.put ws).postDone cid)
    | (x, _) => some (e.pageGone cid a x (fun e a => e.postFault cid a) a)
  | .tdone blk bit err cnt =>
    match actionPlace e.st cid blk bit with
    | .at k j => some ((e.put (actionWrites e.st.mem k j bit err cnt)).postDone cid)
    | .wait => none
    | .gone _ => some (e.postFault cid blk)

/-- POST_QUEUE_PERFORM (R309): the head entry of the post queue of the context of `act` performs, once its prerequisite
holds. -/
def execPostQueuePerform (s : State) : Host.Outcome State Fault Refusal :=
  let cid := s.act.cid
  let c := s.ctx cid
  match c.post with
  | [] => stutter s
  | p :: _ =>
    let isDone : Bool := match p.kind with | .tdone _ _ _ _ => true | _ => false
    if c.st == .out || !storesDone c p.seq || (isDone && !allCounted s cid p.seq) then stutter s
    else
      match (Eff.start s).postHead cid p.kind with
      | some e => done s e
      | none => stutter s

/-! ### The end of a record (R77, R78, R313) -/

/-- The code of the HALT that issued first (R78). -/
def firstHalt (s : State) : Option (Cid × Word) :=
  let all := s.cores.flatMap (fun p => (List.finRange 4).filterMap (fun i =>
    ((p.2.at i).haltAt).map (fun h => (h.2, (⟨Fin.ofNat 4112 p.1, i⟩ : Cid), h.1))))
  match all with
  | [] => none
  | x :: r =>
    let y := r.foldl (fun b z => if z.1 < b.1 then z else b) x
    some (y.2.1, y.2.2)

/-- CONTEXT_END (R77, R78, R186, R155): the EXIT or HALT of the context of `act` has run its two bundles: its stores
perform, its streams and the pair buffer are released; a HALT ends the launch. A boundary trap that is due there is taken first
(R309, R348). -/
def execContextEnd (s : State) : Host.Outcome State Fault Refusal :=
  let cid := s.act.cid
  let c := s.ctx cid
  if c.st = .live ∧ c.ended ∧ (firstDue c.due).isNone then
    let e := (Eff.start s).stores cid (fun _ => true)
    let halts := (c.xfer.map (·.kind)) == some .halt
    let e := e.ctx cid (fun c => { c with st := .joining, w := Vector.replicate 8 none, xfer := none, blocked := false })
    let e := e.on (fun s => s.modCore cid.core (fun k =>
      { k with pair := if k.pair.holder = some cid.ctx then Pair.empty else k.pair }))
    if halts then
      match firstHalt s with
      | some (h, code) => done s (e.on (fun s => s.endLaunch .halt 0 h code))
      | none => done s (e.on (fun s => s.endLaunch .halt 0 cid 0))
    else done s e
  else stutter s

/-- The context of `act` becomes idle (R313). -/
def Eff.idle (e : Eff) (cid : Cid) : Eff := e.ctx cid (fun c => { c with st := .idle })

/-- The join step on a record at a key (R313); none while its push has to wait. -/
def Eff.joinAt (e : Eff) (cid : Cid) (k : Nat) : Option Eff :=
  let s := e.st
  let n := s.mem.nat k 4
  if n = 0 then some ((e.on (fun s => { s with launch := { s.launch with jerr := true } })).idle cid)
  else
    let f := e.put (wrNat k 4 (n - 1))
    if n ≠ 1 then some (f.idle cid)
    else if s.mem.word (k + 8) ≠ 0 then
      match f.push cid (s.mem.word (k + 8)) (s.mem.word (k + 16)) (s.mem.word (k + 24)) (s.mem.word (k + 32)) with
      | .did f => some (f.idle cid)
      | .gone a x => some (e.pageGone cid a x (fun e a => e.takeTrap cid causeUnprobed a) (s.ctx cid).joinp)
      | .full | .wait => none
    else if (s.ctx cid).joinp = s.launch.rootj then some ((f.idle cid).on (fun s => s.endLaunch .root 0 cid 0))
    else some (f.idle cid)

/-- JOIN_STEP (R313): the lift unit acts on the join record of the context of `act`, whose EXIT has run its bundles and
whose post queue is empty, unless a boundary trap is due (R309). -/
def execJoinStep (s : State) : Host.Outcome State Fault Refusal :=
  let cid := s.act.cid
  let c := s.ctx cid
  if c.st = .joining ∧ c.post.isEmpty ∧ (firstDue c.due).isNone then
    if c.joinp = 0 then done s ((Eff.start s).idle cid)
    else if !sharedAddr c.joinp then done s ((Eff.start s).takeTrap cid causeAddr c.joinp)
    else
      match joinPlace s cid c.joinp with
      | (_, true) => stutter s
      | (.ok k, false) =>
        match (Eff.start s).joinAt cid k with
        | some e => done s e
        | none => stutter s
      | (x, _) => done s ((Eff.start s).pageGone cid c.joinp x (fun e a => e.takeTrap cid causeUnprobed a) c.joinp)
  else stutter s

/-! ### Pops (R304 to R307) -/

/-- The first non-empty ring of a cluster, by priority. -/
def firstRing (s : State) (c : Nat) : Option Nat :=
  ((List.range 4).map (fun p => 4 * c + p)).find? (fun q => !(s.ring q).isEmpty)

/-- The ring of a cluster that holds the record pushed earliest. -/
def oldestRing (s : State) (c : Nat) : Option Nat :=
  ((List.range 4).map (fun p => 4 * c + p)).foldl (fun b q =>
    match (s.ring q).head?, b with
    | none, _ => b
    | some _, none => some q
    | some r, some b' => if r.ord < ((s.ring b').head?.map (·.ord)).getD 0 then some q else some b') none

/-- The ring that a context of a cluster takes a record from, and whether that counts as a pop (R304, R305). -/
def popFrom (s : State) (c : Fin 16) : Option (Nat × Bool) :=
  let own := if ((s.clu c).pops + 1) % 16 = 0 then oldestRing s c.val else firstRing s c.val
  match own with
  | some q => some (q, true)
  | none =>
    if !(s.ring 64).isEmpty then some (64, true)
    else (((List.range 15).map (fun i => (c.val + 1 + i) % 16)).findSome? (firstRing s)).map (fun q => (q, false))

/-- The registers that a context finds when it starts (R86). -/
def Ctx.launchRegs (c : Ctx) (i : Fin 4) (frame : Word) : Ctx :=
  (((c.writeS 60 (BitVec.ofNat 64 (0x8000000000027F00 + 0x40 * i.val))).writeS 61
    (BitVec.ofNat 64 (0x8000000000027F00 - 0x2000 * i.val))).writeS 62 frame).writeS 63 0

/-- A context starts a record (R306). It runs when its core makes it the running context (R300). -/
def Ctx.startRecord (c : Ctx) (i : Fin 4) (r : LRec) : Ctx :=
  { c.launchRegs i r.frame with st := .live, pc := r.code, joinp := r.join, blocked := true, quiet := false }

/-- Whether the launch runs and has not ended. -/
def State.runs (s : State) : Bool := s.launch.st == .running && !s.launch.clearing

/-- A record as the ring's storage gives it: one that a write has touched may start anywhere (R303, log entry 14). -/
def State.readRecord (s : State) (k : Nat) (r : LRec) : LRec :=
  if s.mem.nat k 32 = (Config.ringRecord r.ord).toNat then r else { r with code := s.freeWord }

/-- LIFT_POP (R304, R305, R306): the idle context of `act` takes a record and starts it. -/
def execLiftPop (s : State) : Host.Outcome State Fault Refusal :=
  let cid := s.act.cid
  let cl := clusterOf cid.core
  if (s.ctx cid).st = .idle ∧ !(s.core cid.core).gated ∧ s.runs ∧ !isCsc cid then
    match popFrom s cl with
    | some (q, pop) =>
      match s.ring q with
      | r :: rest =>
        match s.slotKey q r.slot false with
        | .ok k =>
          done s ((Eff.start s).on (fun s =>
            let r := s.readRecord k r
            let s := ({ s with tick := s.tick + 1 } : State).setRing q rest
            let s := if pop then s.modClu cl (fun k => { k with pops := k.pops + 1 }) else s
            s.modCtx cid (fun c => { c.startRecord cid.ctx r with ack := s.invNext })))
        | .wait => stutter s
        | x => done s ((Eff.start s).pageGone cid (s.slotAddr q r.slot) x (fun e a => e.takeTrap cid causeUnprobed a)
            (s.slotAddr q r.slot))
      | [] => stutter s
    | none => stutter s
  else stutter s

/-- POWER_GATE (R307): firmware gates the core of `act`, whose four contexts are idle; none then waits in a group. -/
def execPowerGate (s : State) : Host.Outcome State Fault Refusal :=
  let n := s.act.cid.core
  if (s.core n).ctx.toList.all (fun c => c.st == .idle) then
    done s ((Eff.start s).on (fun s => s.modCore n (fun k => { k with gated := true })))
  else stutter s

/-- CORE_WAKE (R307): a gated core of the launch wakes while a record waits in a ring. -/
def execCoreWake (s : State) : Host.Outcome State Fault Refusal :=
  let n := s.act.cid.core
  if (s.core n).gated ∧ s.rings.any (fun r => !r.isEmpty) then
    done s ((Eff.start s).on (fun s => s.modCore n (fun k => { k with gated := false })))
  else stutter s

/-! ### Groups and bitmaps (R320, R326) -/

/-- An arrival recorded at the group unit; the M-th completes the phase. -/
def Group.arrive (g : Group) (core : Nat) : Group :=
  let a := g.arrived ||| ((1 : BitVec 4096) <<< core)
  if popcount 4096 a.toNat = popcount 4096 g.members.toNat then { g with arrived := 0, phase := g.phase + 1 }
  else { g with arrived := a }

/-- GROUP_ARRIVAL (R320): the arrival of the core of `act` in its group `grp` is recorded. -/
def execGroupArrival (s : State) : Host.Outcome State Fault Refusal :=
  let g := s.act.grp.val
  let n := s.act.cid.core.val
  if s.arrivals.contains (g, n) then
    done s ((Eff.start s).on (fun s =>
      { s with arrivals := s.arrivals.erase (g, n), groups := groupsSet s.groups g ((groupsGet s.groups g).arrive n) }))
  else stutter s

/-- TWAITB_WAKE (R326): a read of the block for which the context of `act` waits returns its bit set, and the TWAITB may
issue. -/
def execTwaitbWake (s : State) : Host.Outcome State Fault Refusal :=
  let cid := s.act.cid
  match (s.ctx cid).tw with
  | some (blk, bit, _) =>
    if bitSet s cid blk bit then done s ((Eff.start s).ctx cid (fun c => { c with tw := some (blk, bit, true) })) else stutter s
  | none => stutter s

end Sys2Proof.Machine
end

