-- ==== Sys2Proof/Machine/Launch.lean ====
section
/-! DEFINITION. The launch: the start vector and its checks, the start, and the clearing after the end
(spec/04_core_ops.md R86, R87; spec/20_progress.md R312, R316 to R319; spec/21_isolation.md R330;
spec/24_host_links_power.md R366 to R368). -/

namespace Sys2Proof.Machine

/-! ### The start vector (R316, R317) -/

/-- Whether every page of an extent that a launch names is present with the permission, in global memory or chip scratchpad
(R318); not known while the host's reply for one is awaited and no other fails. -/
def present (s : State) (pasid : BitVec 20) (a : Word) (n : Nat) (wr : Bool) : Option Bool :=
  if !extentOk a n || (match classify a with | .chip _ => false | .glob _ => false | _ => true) then some false
  else
    let xs := (pageStarts a n).map (fun p => accessKey s 0 pasid p wr)
    if xs.any (fun x => x == .absent || x == .noPort) then some false
    else if xs.contains .wait then none
    else some true

/-- A 64-bit field of a structure in the launch's address space. -/
def fieldAt (s : State) (pasid : BitVec 20) (a : Word) (off : Nat) : Word :=
  match accessKey s 0 pasid (a + BitVec.ofNat 64 off) false with
  | .ok k => s.mem.word k
  | _ => 0

/-- ENTRY(n) of a start vector. -/
def entryOf (s : State) (pasid : BitVec 20) (a : Word) (n : Nat) : Word := fieldAt s pasid a (0x80 + 8 * n)

/-- The cores that a start vector names. -/
def launchCores (s : State) (pasid : BitVec 20) (a : Word) : List Nat :=
  (List.range 4096).filter (fun n => entryOf s pasid a n != 0)

/-- LIFTCAP. -/
def liftCap (s : State) (pasid : BitVec 20) (a : Word) : Nat := field (fieldAt s pasid a 0x38) 0 32

/-- The member cores of entry `g` of a group table (R317). -/
def tableGroup (s : State) (pasid : BitVec 20) (gtab : Word) (g : Nat) : BitVec 4096 :=
  match accessKey s 0 pasid (gtab + BitVec.ofNat 64 (512 * g)) false with
  | .ok k => BitVec.ofNat 4096 (s.mem.nat k 512)
  | _ => 0

/-- The groups of a table that have members. -/
def tableGroups (s : State) (pasid : BitVec 20) (gtab : Word) : List (Nat × BitVec 4096) :=
  ((List.range 256).map (fun g => (g, tableGroup s pasid gtab g))).filter (fun p => p.2 != 0)

/-- The groups of a core, in increasing order. -/
def groupsOfCore (gs : List (Nat × BitVec 4096)) (n : Nat) : List Nat := (gs.filter (fun p => p.2.getLsbD n)).map (·.1)

/-- A set of cores. -/
def coreSet (l : List Nat) : BitVec 4096 := l.foldl (fun b n => b ||| ((1 : BitVec 4096) <<< n)) 0

/-- Whether every page of the lift storage that is known lies in device memory (R316, R318). -/
def liftOk (s : State) (pasid : BitVec 20) (a : Word) (n : Nat) : Bool :=
  canonical a && a.toNat % 4096 == 0 &&
    (pageStarts a n).all (fun p => match accessKey s 0 pasid p true with | .ok k => k < 2 ^ 40 | _ => true)

/-- Conditions together: one that fails decides; else one that is not known yet. -/
def allKnown (l : List (Option Bool)) : Option Bool :=
  if l.contains (some false) then some false else if l.contains none then none else some true

/-- The checks of R318 in their order: the REJ value of each, and whether it holds, as far as that is known. -/
def launchChecks (s : State) (pasid : BitVec 20) (a : Word) : List (Nat × Option Bool) :=
  let gtab := fieldAt s pasid a 0x08
  let rootj := fieldAt s pasid a 0x28
  let liftb := fieldAt s pasid a 0x30
  let cap := liftCap s pasid a
  let gs := tableGroups s pasid gtab
  let cs := coreSet (launchCores s pasid a)
  [(6, some (!s.boot.recovery)),
   (2, allKnown [some (a.toNat % 4096 == 0), present s pasid a 0x8080 false]),
   (1, some (!(launchCores s pasid a).isEmpty)),
   (3, some (16 ≤ cap && cap ≤ 2 ^ 24)),
   (2, allKnown [some (gtab.toNat % 512 == 0), some (sharedAddr rootj), some (liftOk s pasid liftb (65 * 32 * cap)),
     present s pasid gtab 0x20000 false, present s pasid rootj 40 false, present s pasid rootj 40 true,
     present s pasid liftb (65 * 32 * cap) false, present s pasid liftb (65 * 32 * cap) true]),
   (4, some (gs.all (fun p => p.2 &&& ~~~cs == 0))),
   (5, some ((List.range 4096).all (fun n => (groupsOfCore gs n).length ≤ 4)))]

/-- The first check of R318 that does not hold, with what is known of it: that it fails, or nothing yet. -/
def launchCheck (s : State) (pasid : BitVec 20) (a : Word) : Option (Nat × Option Bool) :=
  (launchChecks s pasid a).find? (fun x => x.2 != some true)

/-! ### The start (R12, R81, R86, R87, R312, R318) -/

/-- SAVEA of a context: firmware gives each context 48 KiB of the firmware region (R351; log entry 18). -/
def saveBase (n : Nat) (i : Nat) : Word := BitVec.ofNat 64 (766 * 2 ^ 30 + 0xC000 * (4 * n + i))

/-- A context at launch, idle. -/
def launchCtx (s : State) (pasid : BitVec 20) (a : Word) (groups : List Nat) (n : Nat) (i : Fin 4) : Ctx :=
  let c := Ctx.fresh.launchRegs i 0
  let c := (c.csrWrite 2 (fieldAt s pasid a 0x18)).csrWrite 3 (fieldAt s pasid a 0x20)
  { c with st := .idle, pasid := pasid, joinp := fieldAt s pasid a 0x28,
           rbseed := fieldAt s pasid a 0x10 + BitVec.ofNat 64 (4 * n + i.val), savea := saveBase n i.val, ack := s.invNext,
           gmem := Vector.ofFn (fun j : Fin 4 => (groups[j.val]?).map (BitVec.ofNat 8)) }

/-- A core at launch: context 0 starts at the core's entry. -/
def launchCore (s : State) (pasid : BitVec 20) (a : Word) (gs : List (Nat × BitVec 4096)) (n : Nat) : Core :=
  let mine := groupsOfCore gs n
  { Core.fresh with ctx := Vector.ofFn (fun i : Fin 4 =>
      let c := launchCtx s pasid a mine n i
      if i = 0 then { c with st := .live, pc := entryOf s pasid a n } else c) }

/-- The bytes of a launch-information block (R87). -/
def infoBlock (s : State) (pasid : BitVec 20) (a : Word) (seqno ncores rank n i : Nat) : List Byte :=
  leBytes 2 (n % 256) ++ leBytes 1 (n / 256) ++ leBytes 1 i ++ leBytes 4 ncores ++
  leBytes 8 (fieldAt s pasid a 0x08).toNat ++ leBytes 8 (fieldAt s pasid a 0x00).toNat ++ leBytes 8 a.toNat ++
  leBytes 2 n ++ leBytes 2 0 ++ leBytes 4 rank ++ leBytes 8 seqno ++ leBytes 16 0

/-- The launch-information blocks of the cores of a launch. -/
def infoWrites (s : State) (pasid : BitVec 20) (a : Word) (seqno : Nat) (cs : List Nat) : List Wr :=
  cs.zipIdx.flatMap (fun p => (List.range 4).flatMap (fun i =>
    wrBytes (coreKey p.1 (0x27F00 + 0x40 * i)) (infoBlock s pasid a seqno cs.length p.2 p.1 i)))

/-- The writes of the root join record (R312). -/
def rootWrites (s : State) (pasid : BitVec 20) (rootj : Word) (ncores : Nat) : List Wr :=
  match accessKey s 0 pasid rootj true with
  | .ok k => wrNat k 8 ncores ++ wrNat (k + 8) 32 0
  | _ => []

/-- The launch record that a LAUNCH write opens (R367, R368): STATE reads 1, LSEQ advances, LWB and JERR clear, and LPASID
as it stands is held, while the L9 checks the start vector. -/
def State.launchOpen (s : State) (a : Word) : State :=
  { s with launch := { s.launch with
      st := .running, clearing := false, checking := true, fault := none, pasid := s.host.lpasid, sv := a,
      seqno := s.launch.seqno + 1, lwb := false, jerr := false, rej := 0, fin := .root, cause := 0, devcore := 0, ctx := 0,
      ccode := 0 } }

/-- The fields that the start vector gives an open launch (R316). -/
def launchVector (s : State) : Launch :=
  let pasid := s.launch.pasid
  let a := s.launch.sv
  { s.launch with
    checking := false, gtab := fieldAt s pasid a 0x08, uarg := fieldAt s pasid a 0x00, rootj := fieldAt s pasid a 0x28,
    liftb := fieldAt s pasid a 0x30, liftcap := liftCap s pasid a, ncores := (launchCores s pasid a).length }

/-- An open launch that passes the checks starts (R318). -/
def Eff.launchStart (e : Eff) : Eff :=
  let s := e.st
  let pasid := s.launch.pasid
  let a := s.launch.sv
  let cs := launchCores s pasid a
  let gs := tableGroups s pasid (fieldAt s pasid a 0x08)
  let l := launchVector s
  (e.put (infoWrites s pasid a l.seqno.toNat cs ++ rootWrites s pasid l.rootj cs.length)).on (fun t =>
    { t with
      launch := l, rings := [], arrivals := [],
      groups := gs.map (fun p => (p.1, { members := p.2, arrived := 0, phase := 0, broken := false })),
      cores := cs.map (fun n => (n, launchCore s pasid a gs n)) ++ s.cores.filter (fun p => 4096 ≤ p.1) })

/-- A launch that a check rejects (R318, R367): STATE 3, and vector 0. -/
def State.launchReject (s : State) (rej : Nat) : State :=
  ({ s with launch := { s.launch with st := .rejected, checking := false, rej := rej } } : State).msi 0

/-- The L9 decides an open launch by the first check of R318 that does not hold: it rejects the launch, waits for the host's
reply, or starts the launch. -/
def Eff.launchDecide (e : Eff) : Eff :=
  match launchCheck e.st e.st.launch.pasid e.st.launch.sv with
  | some (r, some _) => e.on (fun s => s.launchReject r)
  | some (_, none) => e
  | none => e.launchStart

/-- LAUNCH_WRITE (R318, R368): the host writes the address of a start vector, `word` of `act`, to LAUNCH, which opens the
launch; the L9 decides at once where the checks need no reply of the host that is still awaited. While a launch runs, or the
steps of R330 do, the write does nothing but set LWB. With `flag` there is no write: the L9 goes on with the checks of an open
launch. -/
def execLaunchWrite (s : State) : Host.Outcome State Fault Refusal :=
  if s.launch.st = .running then
    if s.act.flag then (if s.launch.checking then done s (Eff.start s).launchDecide else stutter s)
    else done s ((Eff.start s).on (fun s => { s with launch := { s.launch with lwb := true } }))
  else if s.act.flag then stutter s
  else done s ((Eff.start s).on (fun s => s.launchOpen s.act.word)).launchDecide

/-! ### The clearing (R330, R361, R368) -/

/-- Whether a command has nothing left that the end of its launch lets happen: it has finished, or waits for parked work,
which is discarded (R361); a CSC's command is not the launch's. -/
def cmdOver (s : State) (m : Cmd) : Bool :=
  isCsc m.cid || m.st == .fin ||
    (m.bus == 11 && m.st == .started &&
      (if m.t < 2 then m.gNidx ≤ m.prog && m.taken ≤ m.cnt && m.left != 0 else m.t != 13 && 6 ≤ m.t || s.isParked m ||
        s.boxHeld m (fun _ => true)))

/-- Whether an engine's item is of a command of the launch. -/
def State.launchItem (s : State) (x : Item) : Bool := s.cmds.any (fun m => m.uid == x.uid && !isCsc m.cid)

/-- Whether a sector in flight is of a command of the launch, or of a stream core's MX. -/
def State.launchFlight (s : State) (f : Flight) : Bool :=
  match f.of with
  | .cmd u => s.cmds.any (fun m => m.uid == u && !isCsc m.cid)
  | .mx n => n.val < 4096
  | .win _ => false

/-- Whether every context is stopped and every started command has finished (R330 step 1). -/
def workOver (s : State) : Bool :=
  s.cmds.all (cmdOver s) && s.engines.all (fun p => !p.2.any s.launchItem) && !s.flight.any s.launchFlight &&
  s.cores.all (fun p => 4096 ≤ p.1 || (p.2.kbRun.isNone && p.2.mxRun.isNone && p.2.ctx.toList.all (fun c => c.st == .out)))

/-- The ranges that step 4 of R330 writes as zero: core scratchpads, slices, chip scratchpad and lane slices. -/
def clearWrites : List Wr :=
  [.clear (coreKey 0 0) (coreKey 4096 0), .clear (sliceKey 0 0) (sliceKey 4096 0),
   .clear (chipKey 0) (chipKey 0x4000000), .clear (laneKey 0 0 0) (laneKey 4096 0 0)]

/-- What R330 leaves of a cluster: no translation, no parked entry of the launch, no staged record (log entry 51). -/
def Cluster.clear (s : State) (k : Cluster) : Cluster :=
  { k with fq := k.fq.filter (fun f => !s.launchEntry f), atc := [], stg := k.stg.filter (fun l => isCsc l.cid) }

/-- What R330 leaves beside memory: no set, no window, no cached instruction, every granule in state C, zero tiles. -/
def State.launchClear (s : State) : State :=
  { s with
    sets := [], own := [], cmds := s.cmds.filter (fun m => isCsc m.cid)
    engines := s.engines.map (fun p => (p.1, p.2.filter (fun x => !s.launchItem x)))
    flight := s.flight.filter (fun f => match f.of with | .win _ => false | _ => !s.launchFlight f)
    rings := [], arrivals := [], groups := [],
    clus := s.clus.map (Cluster.clear s),
    cores := s.cores.filter (fun p => 4096 ≤ p.1),
    launch := { s.launch with st := .ended, clearing := false } }

/-- Whether a detected fault is to end the running launch, and no context has it still to bring to firmware (R363). -/
def faultEnds (s : State) : Bool :=
  s.launch.st == .running && !s.launch.clearing && s.launch.fault.isSome &&
    s.cores.all (fun p => p.2.ctx.toList.all (fun c => !(c.st == .halting && (c.trap.map (·.cause)) == some causeRas)))

/-- LAUNCH_CLEAR (R330, R357, R363, R368): firmware ends a launch after a detected fault that no context reports; after the
end, a started copy is cut; once the work that had started is over, the steps of R330 are taken, then STATE becomes 2 and
vector 0 is raised. -/
def execLaunchClear (s : State) : Host.Outcome State Fault Refusal :=
  if faultEnds s then done s ((Eff.start s).on (fun s => s.endLaunch .fault causeRas ⟨0, 0⟩ 0))
  else if s.launch.st = .running ∧ s.launch.clearing then
    match s.cmds.find? (fun m => !isCsc m.cid && toCut s m) with
    | some m => done s ((Eff.start s).cutCopy m)
    | none =>
      if workOver s then done s (((Eff.start s).put clearWrites).on (fun s => s.launchClear.msi 0)) else stutter s
  else stutter s

end Sys2Proof.Machine
end

