-- ==== Sys2Proof/Machine/Isolation.lean ====
section
/-! DEFINITION. Translation replies, page responses and invalidations (spec/21_isolation.md R332 to R341;
spec/24_host_links_power.md R373). The host's tables, as far as the device has learned them, are `State.pages`; each
cluster's ATC caches pages of its own (log entry 12). -/

namespace Sys2Proof.Machine

/-! ### Pages -/

/-- Whether a page has a legal form (R334): 4 KiB to 1 GiB, aligned. -/
def pageForm (g : Page) : Bool :=
  12 ≤ g.lg && g.lg ≤ 30 && g.va % 2 ^ g.lg == 0 && g.pa % 2 ^ g.lg == 0 && g.va + 2 ^ g.lg ≤ 2 ^ 64

/-- Whether two pages of one PASID overlap. -/
def pagesMeet (p q : BitVec 20 × Page) : Bool := p.1 == q.1 && meets p.2.va (2 ^ p.2.lg) q.2.va (2 ^ q.2.lg)

/-- A list of pages with one page put in, in the place of those that it overlaps. -/
def pagePut (l : List (BitVec 20 × Page)) (p : BitVec 20 × Page) : List (BitVec 20 × Page) :=
  p :: l.filter (fun q => !pagesMeet p q)

/-- A cluster's translation cache with one page put in: 8192 entries, of which the one longest there makes room (R9, R334). -/
def atcPut (l : List (BitVec 20 × Page)) (p : BitVec 20 × Page) : List (BitVec 20 × Page) := (pagePut l p).take 8192

/-- Whether a reply names the firmware region or an address that R373 treats as not present: a translation error
(R332, R373). -/
def pageError (s : State) (g : Page) : Bool := physKey s g.pa == .absent

/-- A translation error is reported to the host. -/
def State.reportPage (s : State) (g : Page) : State :=
  if pageError s g then { s with host := { s.host with xlatErr := s.host.xlatErr + 1 } } else s

/-- The page that holds an address leaves a list. -/
def pageDrop (l : List (BitVec 20 × Page)) (pasid : BitVec 20) (lo hi : Nat) : List (BitVec 20 × Page) :=
  l.filter (fun q => !(q.1 == pasid && meets q.2.va (2 ^ q.2.lg) lo (hi - lo)))

/-- A page that the host reports becomes known, and no ATC keeps an older entry for it (R334). -/
def State.learn (s : State) (pasid : BitVec 20) (g : Page) : State :=
  { s.reportPage g with
    pages := pagePut s.pages (pasid, g)
    clus := s.clus.map (fun k => { k with atc := k.atc.filter (fun q => !pagesMeet (pasid, g) q) }) }

/-- Whether a page that some list holds for an extent permits anything. -/
def pageUsable (l : List (BitVec 20 × Page)) (pasid : BitVec 20) (lo n : Nat) : Bool :=
  l.any (fun q => q.1 == pasid && meets q.2.va (2 ^ q.2.lg) lo n && (q.2.rd || q.2.wr))

/-- Whether an extent keeps its old translation for now: an invalidation that is not complete names it, and it has one
(R340). -/
def State.keepsOld (s : State) (pasid : BitVec 20) (lo n : Nat) : Bool :=
  s.invals.any (fun q => q.pasid == pasid && meets q.lo (q.hi - q.lo) lo n) &&
    (pageUsable s.pages pasid lo n || s.clus.toList.any (fun k => pageUsable k.atc pasid lo n))

/-- The reply that a page is not present. -/
def absentPage (a : Nat) : Page := { va := a / 4096 * 4096, lg := 12, pa := 0, rd := false, wr := false, ex := none }

/-- What the device knows of a page is forgotten, so that the next party that needs it asks the host again. -/
def State.forget (s : State) (pasid : BitVec 20) (lo hi : Nat) : State :=
  { s with pages := pageDrop s.pages pasid lo hi
           clus := s.clus.map (fun k => { k with atc := pageDrop k.atc pasid lo hi }) }

/-- ATS_TRANSLATION_REPLY (R329, R333): the host's reply to a miss of the ATC of cluster `clu` at address `num`, under the
launch's PASID or, where `flag` is set, under LPASID for the next launch: the page `page`, which the ATC
caches, or that the page is not present. An old translation stays until the invalidation that names it completes (R340). -/
def execAtsTranslationReply (s : State) : Host.Outcome State Fault Refusal :=
  let pasid := if s.act.flag then s.host.lpasid else s.launch.pasid
  let g := s.act.page.getD (absentPage s.act.num)
  let ok := pageForm g && g.va ≤ s.act.num && s.act.num < g.va + 2 ^ g.lg
  if !ok || s.keepsOld pasid g.va (2 ^ g.lg) then stutter s
  else
    done s ((Eff.start s).on (fun s =>
      let t := s.learn pasid g
      if s.act.page.isSome then t.modClu s.act.clu (fun k => { k with atc := atcPut k.atc (pasid, g) }) else t))

/-- PRI_RESPONSE (R336): the host answers the page request `num`, with the page `page` where it grants one; where it grants
the page and sends no translation with the answer, the device asks for the translation afresh. -/
def execPriResponse (s : State) : Host.Outcome State Fault Refusal :=
  match s.pri.find? (fun r => r.uid == s.act.num) with
  | some r =>
    if r.code.isSome then stutter s
    else
      let ok := match s.act.page with
        | some g => pageForm g && g.va ≤ r.page && r.page < g.va + 2 ^ g.lg
        | none => true
      if !ok then stutter s
      else
        done s ((Eff.start s).on (fun s =>
          let g := s.act.page.getD (absentPage r.page)
          let t : State :=
            if s.act.code ≠ PriCode.success ∨ s.keepsOld r.pasid g.va (2 ^ g.lg) then s
            else if s.act.page.isSome then s.learn r.pasid g
            else s.forget r.pasid r.page (r.page + 4096)
          { t with pri := t.pri.map (fun (x : PriReq) => if x.uid = r.uid then { x with code := some s.act.code } else x) }))
  | none => stutter s

/-! ### Invalidations (R338 to R341) -/

/-- INVALIDATION_REQUEST (R338): an invalidation of the addresses from `num` up to but not `hi`, under the PASID in
`word`, arrives and is numbered; at most 32 are outstanding. -/
def execInvalidationRequest (s : State) : Host.Outcome State Fault Refusal :=
  if s.invals.length < 32 then
    done s ((Eff.start s).on (fun s =>
      { s with invals := s.invals ++ [{ num := s.invNext, pasid := s.act.word.setWidth 20, lo := s.act.num,
                                        hi := s.act.hi, fired := false }],
               invNext := s.invNext + 1 }))
  else stutter s

/-- Whether an index or tree command has nothing left but parked work (R339, R358). -/
def onlyParked (s : State) (m : Cmd) : Bool :=
  m.bus == 11 && m.st == .started && s.isParked m && (6 ≤ m.t || (m.gNidx ≤ m.prog && m.taken ≤ m.cnt)) &&
    (s.flightsOf (.cmd m.uid)).isEmpty

/-- Whether a command of a context lets it acknowledge (R339): an ATOMNR that its home has accepted, or a command that has no
access in flight, as one that has not started, has finished, or waits, perhaps for parked work. -/
def cmdQuiet (s : State) (m : Cmd) : Bool :=
  if m.bus = 10 ∧ m.t = 6 then m.st == .accepted
  else m.st != .accepted && (s.flightsOf (.cmd m.uid)).isEmpty

/-- Whether a context at a quiescent point may acknowledge now (R339). -/
def mayAck (s : State) (cid : Cid) : Bool :=
  let c := s.ctx cid
  c.quiet && c.ld == 0 && c.stc == 0 && c.tl == 0 && c.post.isEmpty &&
    s.cmds.all (fun m => m.cid != cid || cmdQuiet s m)

/-- INVALIDATION_ACK (R339): the context of `act`, which stands at a quiescent point, acknowledges every request that has
arrived. -/
def execInvalidationAck (s : State) : Host.Outcome State Fault Refusal :=
  let cid := s.act.cid
  if mayAck s cid then done s ((Eff.start s).ctx cid (fun c => { c with ack := s.invNext })) else stutter s

/-- Whether every context of the launch has acknowledged a request (R340 step 1). -/
def allAcked (s : State) (num : Nat) : Bool :=
  s.cores.all (fun p => 4096 ≤ p.1 || p.2.ctx.toList.all (fun c => c.acked num))

/-- Whether a window line lies in the range of a request. -/
def Inval.holds (q : Inval) (w : Win) (l : Line) : Bool := meets (w.lineAddr l) 128 q.lo (q.hi - q.lo)

/-- The stream cores whose windows cover an address of a request. -/
def windowCores (s : State) (q : Inval) : List (Fin 4112) :=
  (s.cores.filter (fun p => p.1 < 4096 && (p.2.slots.any (fun x =>
    meets x.2.g0.toNat (2 ^ x.2.glog) q.lo (q.hi - q.lo))))).map (fun p => Fin.ofNat 4112 p.1)

/-- The CORE lines of the range are written back and every line of it is dropped (R340 step 2); a line that cannot be written
raises FATAL_UNPROBED in a context of its core (R374, log entry 31). -/
def Eff.dropLines (e : Eff) (q : Inval) (n : Fin 4112) : Eff :=
  let lost := homeless e.st n q.pasid (fun _ w l => q.holds w l)
  let e := (e.landFlights (.win n)).writeBack n q.pasid .dev (fun _ w l => q.holds w l)
  let e := match lost with
    | some x => e.ctx ⟨n, (e.st.core n).running⟩ (fun c => c.unprobed x)
    | none => e
  e.on (fun s => s.modCore n (fun k => (List.finRange 8).foldl (fun k i => k.modWin i (fun w =>
    { w with
      lines := w.lines.filter (fun l => !q.holds w l)
      parts := w.parts.filter (fun p => !meets (w.g0.toNat + 128 * p.1) 128 q.lo (q.hi - q.lo)) })) k))

/-- The staging lines that hold records for the range (R340 step 3). -/
def stagedIn (s : State) (q : Inval) : List (Fin 16 × StgLine) :=
  (List.finRange 16).flatMap (fun c => ((s.clu c).stg.filter (fun l =>
    meets l.block.toNat 128 q.lo (q.hi - q.lo))).map (fun l => (c, l)))

/-- A staging line is written and leaves its place. -/
def Eff.stageOut (e : Eff) (c : Fin 16) (l : StgLine) : Eff :=
  (e.put (l.writes e.st)).on (fun s => s.modClu c (fun k => { k with stg := k.stg.filter (fun y => y.block != l.block) }))

/-- The places that the old translations of a request name, as a first key and a length each, with those to which a migration has
moved their lines. -/
def oldPlaces (s : State) (q : Inval) : List (Nat × Nat) :=
  let pages := (s.pages ++ s.clus.toList.flatMap (·.atc)).filter (fun p =>
    p.1 == q.pasid && meets p.2.va (2 ^ p.2.lg) q.lo (q.hi - q.lo))
  pages.filterMap (fun p => match physKey s p.2.pa with | .ok k => some (k, 2 ^ p.2.lg) | _ => none) ++
    s.migrs.flatMap (fun g => if g.pasid == q.pasid && meets g.vpage 4096 q.lo (q.hi - q.lo) then
      [(g.old, 4096), (g.new, 4096)] else [])

/-- Whether an access translated by the old translations of a request has still to perform: a sector in flight to or from their
places, or an atomic that its home has accepted under one (R340). -/
def oldAccess (s : State) (q : Inval) : Bool :=
  let old := oldPlaces s q
  let here (k : Nat) : Bool := old.any (fun x => x.1 ≤ k && k < x.1 + x.2)
  s.flight.any (fun f => (match f.of with | .win _ => false | _ => true) && (f.wr.any (fun w => here w.1) || f.src.any (fun k => k.any here))) ||
    s.cmds.any (fun m => m.bus == 10 && m.st == .accepted && m.bits == 0 && s.pasidOf m == q.pasid &&
      meets m.b.toNat 32 q.lo (q.hi - q.lo))

/-- Whether the steps of R340 can be taken now. -/
def invalFree (s : State) (q : Inval) : Bool :=
  !s.act.later && !oldAccess s q && (windowCores s q).all (fun n => writeBackFree s n q.pasid (fun _ w l => q.holds w l)) &&
    (stagedIn s q).all (fun x => x.2.free s)

/-- Steps 2 to 5 of R340: window lines, staging lines, translations and cached instructions of the range go; then the
completion is sent, after which, where the request came once the host knew of a page's new place, that page's end markers may
follow (R371). -/
def Eff.invalidate (e : Eff) (q : Inval) : Eff :=
  let mine := e.st.launch.pasid == q.pasid
  let e := if mine then (windowCores e.st q).foldl (fun e n => e.dropLines q n) e else e
  let e := if mine then (stagedIn e.st q).foldl (fun e x => e.stageOut x.1 x.2) e else e
  e.dropSeen.on (fun s =>
    { s.forget q.pasid q.lo q.hi with
      cores := if mine then
          s.cores.map (fun p => (p.1, { p.2 with icache := p.2.icache.filter (fun l => !meets (l.1 / 128 * 128) 128 q.lo (q.hi - q.lo)) }))
        else s.cores
      migrs := s.migrs.map (fun g =>
        if g.told.any (fun n => n ≤ q.num) && g.pasid == q.pasid && meets g.vpage 4096 q.lo (q.hi - q.lo) then
          { g with sent := true } else g)
      invals := s.invals.filter (fun x => x.num != q.num) })

/-- INVALIDATION_COMPLETE (R340): the oldest request completes, once every context of the launch has acknowledged it. -/
def execInvalidationComplete (s : State) : Host.Outcome State Fault Refusal :=
  match s.invals with
  | q :: _ => if allAcked s q.num && invalFree s q then done s ((Eff.start s).invalidate q) else stutter s
  | [] => stutter s

/-- INVALIDATION_WATCHDOG (R341): the watchdog of the request `num` expires, once: firmware pre-empts every live context
that has not acknowledged it. -/
def execInvalidationWatchdog (s : State) : Host.Outcome State Fault Refusal :=
  match s.invals.find? (fun q => q.num == s.act.num && !q.fired) with
  | some q =>
    done s ((Eff.start s).on (fun s =>
      { s with
        invals := s.invals.map (fun x => if x.num = q.num then { x with fired := true } else x)
        cores := s.cores.map (fun p =>
          if p.1 < 4096 then
            (p.1, { p.2 with ctx := p.2.ctx.map (fun c =>
              if c.st = .live ∧ !c.acked q.num then { c with preempt := true } else c) })
          else p) }))
  | none => stutter s

end Sys2Proof.Machine
end

