-- ==== Sys2Proof/Machine/SaveArea.lean ====
section
/-! DEFINITION. The save area of a context (spec/22_recovery.md R351 to R355): what the halt writes into it, and what the
resume reads from it. What the area has no field for stays in the core meanwhile (log entry 15). -/

namespace Sys2Proof.Machine

/-! ### Unstarted work (R354) -/

/-- A piece of unstarted work: an engine command, a codebook operation or a matrix operation. -/
inductive Held where
  | cmd (m : Cmd)
  | kb (o : KbOp)
  | mx (o : MxOp)
  deriving DecidableEq, Repr

/-- Its place in the context's trigger order. -/
def Held.seq : Held → Nat
  | .cmd m => m.seq
  | .kb o => o.seq
  | .mx o => o.seq

/-- A piece of work put in its place by trigger order. -/
def heldInsert (x : Held) : List Held → List Held
  | [] => [x]
  | y :: r => if x.seq < y.seq then x :: y :: r else y :: heldInsert x r

/-- The commands of a context in a state of progress. -/
def State.cmdsOf (s : State) (cid : Cid) (st : CmdSt) : List Cmd := s.cmds.filter (fun m => m.cid == cid && m.st == st)

/-- The work of a context that has not started, in trigger order. -/
def unstarted (s : State) (cid : Cid) : List Held :=
  let k := s.core cid.core
  let l := (s.cmdsOf cid .queued).map Held.cmd ++ (k.kbq.filter (fun o => o.ctx == cid.ctx)).map Held.kb ++
    (k.mxq.filter (fun o => o.ctx == cid.ctx)).map Held.mx
  l.foldl (fun a x => heldInsert x a) []

/-- The work that a halted context has saved, in trigger order. -/
def saved (s : State) (cid : Cid) : List Held :=
  let c := s.ctx cid
  ((s.cmdsOf cid .held).map Held.cmd ++ c.heldKb.map Held.kb ++ c.heldMx.map Held.mx).foldl (fun a x => heldInsert x a) []

/-- The 32-byte entry of a piece of work. -/
def Held.bytes : Held → List Byte
  | .cmd m => leBytes 8 (m.bus.val + m.t * 2 ^ 4 + ((m.tok.map (·.val)).getD 0) * 2 ^ 16 + m.id.toNat * 2 ^ 32) ++
      leBytes 8 m.b.toNat ++ leBytes 8 m.o1.toNat ++ leBytes 8 m.o2.toNat
  | .kb o => leBytes 8 (13 + o.t * 2 ^ 4) ++ leBytes 8 o.b.toNat ++ leBytes 8 o.o1.toNat ++ leBytes 8 o.o2.toNat
  | .mx o => leBytes 8 (9 + o.t * 2 ^ 4) ++ leBytes 8 o.b.toNat ++ leBytes 8 o.o1.toNat ++ leBytes 8 o.o2.toNat

/-- An engine command with what its entry at a key then holds; what its class captures beside the entry's words is captured
again where the entry names another command or other operands (log entry 15). -/
def Cmd.reload (c : Cmd) (x : Ctx) (m : Mem) (k : Nat) : Cmd :=
  let w := m.word k
  let t := field w 4 10
  let bus : Fin 16 := Fin.ofNat 16 (field w 0 4)
  let b := m.word (k + 8)
  let o2 := m.word (k + 24)
  let n : Cmd := { c with
    bus := bus, t := t, id := BitVec.ofNat 32 (field w 32 32), b := b, o1 := m.word (k + 16), o2 := o2
    tok := if c.bus = bus ∧ c.t = t then c.tok.map (fun _ => Fin.ofNat 64 (field w 16 6)) else some (Fin.ofNat 64 (field w 16 6))
    dst2 := if bus = 11 ∧ (t = 7 ∨ t = 14) then some (sReg o2) else none }
  if c.bus = bus ∧ c.t = t ∧ c.b = b ∧ c.o2 = o2 then n
  else if bus = 10 ∧ t = 0 then { n with val2 := cwDecided o2 x.c.toList, kregs := [x.k.get (cwKq o2)] }
  else if bus = 10 ∧ t < 3 then { n with kregs := x.k.toList, preds := x.c.toList }
  else if bus = 10 ∧ t = 3 then { n with val2 := o2 &&& 0xFFFFFFFF }
  else if bus = 14 ∧ t = 10 then { n with xreg := x.x.get (xIx (field b 0 2)) }
  else n

/-- An engine command that firmware has put into a list of unstarted work: its trigger is the entry alone. -/
def Cmd.blank (cid : Cid) (c : Ctx) (uid : Nat) : Cmd :=
  { uid := uid, cid := cid, seq := c.seq, bus := 0, t := 1024, b := 0, o1 := 0, o2 := 0, tok := none, dst2 := none, id := 0,
    ixpol := c.ixpol, kregs := [], preds := [], xreg := 0, st := .held, desc := [], opnd := [], gran := [], touch := [],
    left := 0, res := [], prog := 0, cnt := 0, bits := 0, parked := 0, reason := 0, trapAt := none, miss := [], val2 := 0,
    key := 0, status := 0, slices := [], seen := [] }

/-- The piece of work that the entry at a key names, by its BUS field, with what the core kept of the one saved there; none
where the field names no unit that takes unstarted work. -/
def heldAt (s : State) (cid : Cid) (k uid : Nat) (old : Option Held) : Option Held :=
  let m := s.mem
  let c := s.ctx cid
  let w := m.word k
  let t := field w 4 10
  let b := m.word (k + 8)
  let o1 := m.word (k + 16)
  let o2 := m.word (k + 24)
  match field w 0 4 with
  | 13 =>
    some (match old with
      | some (.kb o) => .kb { o with t := t, b := b, o1 := o1, o2 := o2,
                                     win := if o.b = b then o.win else (s.core cid.core).coverOf b }
      | _ => .kb { ctx := cid.ctx, seq := c.seq, t := t, b := b, o1 := o1, o2 := o2, kpol := c.kpol,
                   win := (s.core cid.core).coverOf b })
  | 9 =>
    some (match old with
      | some (.mx o) => .mx { o with t := t, b := b, o1 := o1, o2 := o2 }
      | _ => .mx { ctx := cid.ctx, seq := c.seq, t := t, b := b, o1 := o1, o2 := o2 })
  | 10 | 11 | 14 =>
    some (match old with
      | some (.cmd n) => .cmd (n.reload c m k)
      | _ => .cmd ((Cmd.blank cid c uid).reload c m k))
  | _ => none

/-- The list of unstarted work that the area at a key holds: NWORK entries (R352, R354). -/
def workAt (s : State) (cid : Cid) (k : Nat) : List Held :=
  (List.range (min 136 (field (s.mem.word (k + 0x30)) 0 8))).filterMap (fun j =>
    heldAt s cid (k + 0x4D80 + 32 * j) (s.nextUid + j) ((saved s cid)[j]?))

/-! ### Writing -/

/-- The bytes of a value in a latch or entry of 1024 or 64 bits. -/
def Val.bytes (wide : Bool) (v : Val) : List Byte := if wide then leBytes 128 v.vec.toNat else leBytes 8 v.word.toNat

/-- The bytes of a unit's latches (R351): .o1, .o2, .o3, .r and .q. -/
def Latch.bytes (u : Nat) (l : Latch) : List Byte :=
  l.o1.bytes (wideO1 u) ++ l.o2.bytes (wideO2 u) ++ leBytes 8 l.o3.toNat ++ l.r.bytes (wideR u) ++ l.q.bytes (wideQ u)

/-- The number of a tag (R151). -/
def KReg.stateWord (k : KReg) : Nat := k.n + k.tag.num * 2 ^ 16 + k.sorted.toNat * 2 ^ 18

/-- A pending result (R353). -/
def Pend.bytes (p : Pend) : List Byte :=
  leBytes 8 (p.u.val + p.r.isSome.toNat * 2 ^ 4 + p.q.isSome.toNat * 2 ^ 5 + p.rem * 2 ^ 8) ++
    leBytes 128 ((p.r.map (fun v => v.vec.toNat)).getD 0) ++ leBytes 8 ((p.q.map (fun v => v.word.toNat)).getD 0)

/-- The status word of a stream as the area holds it: PRODUCED is POPPED (R355). -/
def Strm.savedWord (st : Strm) : Nat :=
  let w := (strmStatus (some st) 0).toNat / 2 ^ 24 * 2 ^ 24
  w + w / 2 ^ 24 % 2 ^ 24

/-- The 16-byte record of a bound stream (R355). -/
def Strm.recordBytes (st : Strm) : List Byte := leBytes 8 (st.desc.toNat + 4 + st.vj.val) ++ leBytes 8 st.savedWord

/-- A captured k-register: 520 bytes. -/
def KReg.captured (k : KReg) : List Byte := leBytes 8 k.stateWord ++ leBytes 512 k.st.toNat

/-- The captured state of a stream (R355). -/
def Strm.capturedBytes (st : Strm) : List Byte :=
  st.ka.captured ++ st.kb.captured ++ st.kd.captured ++ leBytes 256 st.xr.toNat

/-- An assist record (R360). -/
def AssistRec.bytes (a : AssistRec) : List Byte :=
  leBytes 8 (a.u.val + a.t * 2 ^ 4 + a.rem * 2 ^ 16) ++ leBytes 8 a.fpc.toNat ++ leBytes 8 a.rnd.toNat ++
    leBytes 8 a.o3.toNat ++ List.replicate 32 0 ++ leBytes 128 a.b.toNat ++ leBytes 128 a.o1.toNat ++ leBytes 128 a.o2.toNat

/-- The element of an IXPOL TRAP that has fallen due while the context was being saved: it is held in the area (R268, R352). -/
def Ctx.heldTrap (c : Ctx) : Option Word := (c.due.find? (fun d => d.1 == causeAddr)).map (·.2)

/-- The header (R352). -/
def headerWords (s : State) (cid : Cid) (work : Nat) : List Nat :=
  let c := s.ctx cid
  let t := c.trap.getD ⟨0, 0, none⟩
  let x := c.xfer.getD { kind := .transfer, target := 0, left := 0 }
  let kind := match x.kind with | .transfer => 0 | .exit => 1 | .halt => 2
  [c.pc.toNat, t.cause + x.left * 2 ^ 8 + kind * 2 ^ 10 + t.sw.isSome.toNat * 2 ^ 16, t.arg.toNat, (t.sw.getD 0).toNat,
   x.target.toNat, c.pendS.toNat,
   work + c.pend.length * 2 ^ 8 + (c.w.toList.filter Option.isSome).length * 2 ^ 16,
   (s.cmdsOf cid .started).length + c.heldTrap.isSome.toNat * 2 ^ 8, (c.heldTrap.getD 0).toNat]

/-- A GBAR arrival record (R351). -/
def gbarWord (g : Option (BitVec 32)) : Nat := match g with | some p => 2 ^ 63 + p.toNat | none => 0

/-- Words as bytes. -/
def wordBytes64 (l : List Nat) : List Byte := (l.map (leBytes 8)).flatten

/-- Bytes with zeros after them, up to `n`: reserved bytes are written as zero (R5, R351). -/
def zeroFill (n : Nat) (l : List Byte) : List Byte := l ++ List.replicate (n - l.length) 0

/-- The parts of the save area that are in use, by their offsets (R351). -/
def saveParts (s : State) (cid : Cid) : List (Nat × List Byte) :=
  let c := s.ctx cid
  let work := unstarted s cid
  [(0x0000, zeroFill 128 (wordBytes64 (headerWords s cid work.length))),
   (0x0080, wordBytes64 ((List.finRange 64).map (fun i => (c.readS i).toNat))),
   (0x0280, wordBytes64 (c.m.toList.map BitVec.toNat)),
   (0x02C0, wordBytes64 ([((List.finRange 4).map (fun i => (c.c.get i).toNat * 2 ^ i.val)).sum + c.psP.toNat * 2 ^ 8 +
     c.psB.toNat * 2 ^ 16, c.stat.toNat, c.lc.toNat, c.ecWord.toNat] ++ c.gbar.toList.map gbarWord)),
   (0x0300, zeroFill 128 (wordBytes64 [c.fpc.toNat, c.kpol.toNat, c.ixpol.toNat, c.dbg.toNat, c.rbseed.toNat, c.rbqst.toNat,
     c.joinp.toNat, c.cwm.toNat, c.nextId.toNat, c.gmemWord.toNat])),
   (0x0380, wordBytes64 (c.rbq.length :: c.rbq.map BitVec.toNat)),
   (0x0400, (c.v.toList.map (fun v => leBytes 128 v.toNat)).flatten),
   (0x1400, (c.k.toList.map (fun k => leBytes 512 k.st.toNat)).flatten),
   (0x3400, wordBytes64 (c.k.toList.map KReg.stateWord)),
   (0x3480, (c.x.toList.map (fun x => leBytes 256 x.toNat)).flatten),
   (0x3880, zeroFill 3072 (((List.finRange 15).map (fun u => (c.latch u).bytes u.val)).flatten ++
     wordBytes64 (c.bsWin.toList.map BitVec.toNat) ++ c.bsCnt.toList)),
   (0x4480, (c.pend.map Pend.bytes).flatten),
   (0x4D80, (work.map Held.bytes).flatten),
   (0x6000, (c.assist.map AssistRec.bytes).flatten)] ++
  (List.finRange 8).flatMap (fun n => match c.w.get n with
    | some st => [(0x5E80 + 16 * n.val, st.recordBytes), (0x6800 + 0x800 * n.val, st.capturedBytes)] ++
        (if st.ixop = 2 then [(0xA800, st.tmap)] else [])
    | none => [(0x5E80 + 16 * n.val, leBytes 16 0)])

/-- The writes of the save; SAVEA is a physical address of the firmware region (R351). -/
def saveWrites (s : State) (cid : Cid) : List Wr :=
  (saveParts s cid).flatMap (fun p => wrBytes ((s.ctx cid).savea.toNat + p.1) p.2)

/-! ### Reading -/

/-- A 1024-bit value at a key. -/
def vecAt (m : Mem) (k : Nat) : Vec := BitVec.ofNat 1024 (m.nat k 128)

/-- The offset of a unit's latches in their part. -/
def latchOff : Nat → Nat
  | 0 => 0
  | u + 1 => latchOff u + (if wideO1 u then 128 else 8) + (if wideO2 u then 128 else 8) + 8 +
      (if wideR u then 128 else 8) + (if wideQ u then 128 else 8)

/-- A value of a latch of 1024 or 64 bits at a key. -/
def valAt (m : Mem) (k : Nat) (wide : Bool) : Val := if wide then .vc (vecAt m k) else .sc (m.word k)

/-- An operand latch of 1024 bits keeps its scalar broadcast where it held one (log entry 13). -/
def operandAt (m : Mem) (k : Nat) (wide : Bool) (old : Val) : Val :=
  match old with
  | .sc _ => .sc (m.word k)
  | .vc _ => valAt m k wide

/-- A unit's latches from the area. -/
def latchAt (m : Mem) (k u : Nat) (old : Latch) : Latch :=
  let a := k + latchOff u
  let b := a + (if wideO1 u then 128 else 8)
  let c := b + (if wideO2 u then 128 else 8)
  let d := c + 8
  let e := d + (if wideR u then 128 else 8)
  { o1 := operandAt m a (wideO1 u) old.o1, o2 := operandAt m b (wideO2 u) old.o2, o3 := m.word c,
    r := valAt m d (wideR u), q := valAt m e (wideQ u) }

/-- The tag of a number. -/
def tagAt (x : Nat) : KTag := match x with | 1 => .bf16 | 2 => .f16 | _ => .f32

/-- A k-register from its state word and store. -/
def kregAt (m : Mem) (w k : Nat) : KReg :=
  let x := m.word w
  { st := BitVec.ofNat 4096 (m.nat k 512), n := field x 0 9, tag := tagAt (field x 16 2), sorted := x.getLsbD 18 }

/-- A pending result from the area; its flags, and a .q wider than the entry's field, stay in the core (log entry 13). -/
def pendAt (m : Mem) (k : Nat) (old : Option Pend) : Pend :=
  let w := m.word k
  let u : Fin 15 := Fin.ofNat 15 (field w 0 4)
  let q := m.word (k + 136)
  { u := u
    r := if w.getLsbD 4 then some (valAt m (k + 8) (wideR u.val)) else none
    q := if w.getLsbD 5 then some (match old.bind (·.q) with
        | some (.vc x) => if wideQ u.val && x.setWidth 64 == q then .vc x else .sc q
        | _ => if wideQ u.val then .vc (q.setWidth 1024) else .sc q) else none
    fl := match old with | some p => if p.u = u then p.fl else 0 | none => 0
    rem := field w 8 8 }

/-- A GBAR arrival record from the area. -/
def gbarAt (m : Mem) (k : Nat) : Option (BitVec 32) :=
  if (m.word k).getLsbD 63 then some ((m.word k).setWidth 32) else none

/-- A slot of GMEM. -/
def gmemAt (w : Word) (j : Nat) : Option (BitVec 8) :=
  if w.getLsbD (16 * j + 15) then some (BitVec.ofNat 8 (field w (16 * j) 8)) else none

/-- The pending transfer or end of the header; an EXIT or HALT whose bundles have all issued has no code there and stays
in the core (log entry 15). -/
def xferAt (m : Mem) (k : Nat) (old : Option Xfer) : Option Xfer :=
  let w := m.word (k + 8)
  if field w 8 2 = 0 then old.bind (fun x => if x.kind ≠ .transfer ∧ x.left = 0 then some x else none)
  else some { kind := match field w 10 2 with | 1 => .exit | 2 => .halt | _ => .transfer
              target := m.word (k + 32), left := field w 8 2 }

/-- The position from which a stream produces again the vectors that a save has discarded, the first of which is number `p`
(R186, R359): where it began them. A position that only the area names is reached from the start of the source. -/
def Strm.rewind (st : Strm) (p : Nat) : Strm :=
  let fresh : StrmPos := { a := Reader.fresh, b := Reader.fresh, elq := [] }
  let same := p == st.popped
  let at' := if !same then fresh else st.marks.headD st.start
  { st with parsed := if same then st.parsed - st.vecs.length else 0, rdA := at'.a, rdB := at'.b, elq := at'.elq,
            start := at', marks := [], vecs := [], buf := [], miss := none }

/-- A stream bound again from its record and captured state (R359 step 4): it produces its vectors again, from POPPED. -/
def strmAt (m : Mem) (k : Nat) (n : Fin 8) (st : Strm) : Strm :=
  let d := m.word (k + 0x5E80 + 16 * n.val)
  let w := m.word (k + 0x5E80 + 16 * n.val + 8)
  let a := k + 0x6800 + 0x800 * n.val
  let now : StrmSt := match field w 60 4 with | 2 => .done | 3 => .error | _ => .active
  { st.rewind (field w 24 24) with
    desc := d &&& ~~~63, vj := xIx (field d 0 2), st := now
    reason := field w 56 4, koor := w.getLsbD 55, dense := w.getLsbD 54, ovr := field w 48 6, popped := field w 24 24
    ka := kregAt m a (a + 8), kb := kregAt m (a + 520) (a + 528), kd := kregAt m (a + 1040) (a + 1048)
    xr := BitVec.ofNat 2048 (m.nat (a + 1560) 256)
    tmap := if st.ixop = 2 then m.bytes (k + 0xA800) st.tmap.length else []
    made := if now = .active then field w 24 24 else max st.made (field w 24 24) }

/-- A stream that firmware binds in the area alone: nothing but the area says what it is, so that it reads its descriptor
(log entry 15). -/
def strmNew (c : Ctx) (cover : Word → Option (Fin 8)) (d : Word) : Strm :=
  { seq := c.seq, desc := d &&& ~~~63, win := cover (d &&& ~~~63), vj := xIx (field d 0 2), cj := c.c.get (xIx (field d 0 2)),
    kpol := c.kpol, words := [], capt := false, ka := KReg.empty, kb := KReg.empty, kd := KReg.empty, xr := 0, tmap := [],
    dense := false, st := .active, reason := 0, koor := false, ovr := 0, popped := 0, made := 0, parsed := 0, skip := 0,
    rdA := Reader.fresh, rdB := Reader.fresh, elq := [], vecs := [], marks := [],
    start := { a := Reader.fresh, b := Reader.fresh, elq := [] }, buf := [], miss := none }

/-- A context with everything that the area at a key holds of it (R359 steps 1, 2, 4 and 5); reserved bits read zero (R5). -/
def Ctx.restore (c : Ctx) (cover : Word → Option (Fin 8)) (m : Mem) (k : Nat) : Ctx :=
  let fl := m.word (k + 0x2C0)
  let csr (i : Nat) : Word := m.word (k + 0x300 + 8 * i)
  { c with
    pc := m.word k
    xfer := xferAt m k c.xfer
    pendS := m.word (k + 0x28) &&& ~~~1
    s := Vector.ofFn (fun i : Fin 64 => m.word (k + 0x80 + 8 * i.val))
    m := Vector.ofFn (fun i : Fin 8 => m.word (k + 0x280 + 8 * i.val))
    c := Vector.ofFn (fun i : Fin 4 => fl.getLsbD i.val)
    psP := BitVec.ofNat 8 (field fl 8 8), psB := BitVec.ofNat 3 (field fl 16 3)
    stat := (m.word (k + 0x2C8)).setWidth 9, lc := m.word (k + 0x2D0), ecCnt := (m.word (k + 0x2D8)).setWidth 8
    gbar := Vector.ofFn (fun j : Fin 4 => gbarAt m (k + 0x2E0 + 8 * j.val))
    fpc := csr 0 &&& 0xF, kpol := csr 1 &&& 0x3DFFFFFFFFFFFFFF, ixpol := csr 2 &&& 0x000000FCFFFFFFFF, dbg := csr 3 &&& 3
    rbseed := csr 4, rbn := (csr 5).setWidth 48,
    joinp := csr 6, cwm := (csr 7).setWidth 32, nextId := (csr 8).setWidth 32
    gmem := Vector.ofFn (fun j : Fin 4 => gmemAt (csr 9) j.val)
    rbq := (List.range (min 8 (m.word (k + 0x380)).toNat)).map (fun i => m.word (k + 0x388 + 8 * i))
    v := Vector.ofFn (fun i : Fin 32 => vecAt m (k + 0x400 + 128 * i.val))
    k := Vector.ofFn (fun i : Fin 16 => kregAt m (k + 0x3400 + 8 * i.val) (k + 0x1400 + 512 * i.val))
    x := Vector.ofFn (fun i : Fin 4 => BitVec.ofNat 2048 (m.nat (k + 0x3480 + 256 * i.val) 256))
    lat := Vector.ofFn (fun u : Fin 15 => latchAt m (k + 0x3880) u.val (c.latch u))
    bsWin := Vector.ofFn (fun i : Fin 32 => m.word (k + 0x3880 + latchOff 15 + 8 * i.val))
    bsCnt := Vector.ofFn (fun i : Fin 32 => m.get (k + 0x3880 + latchOff 15 + 256 + i.val))
    pend := (List.range (min 16 (field (m.word (k + 0x30)) 8 5))).map (fun j => pendAt m (k + 0x4480 + 144 * j) c.pend[j]?)
    w := Vector.ofFn (fun n : Fin 8 =>
      let d := m.word (k + 0x5E80 + 16 * n.val)
      if d.getLsbD 2 then some (strmAt m k n ((c.w.get n).getD (strmNew c cover d))) else none) }

end Sys2Proof.Machine
end

