-- ==== Sys2Proof/Machine/Recovery.lean ====
section
/-! DEFINITION. Traps at boundaries, pre-emption, save and resume, assists and detected faults (spec/22_recovery.md R347 to
R363). The CSC firmware's part is folded into these steps (log entry 18). -/

namespace Sys2Proof.Machine

/-! ### Halting (R348, R349, R356 step 1) -/

/-- TRAP_TAKE (R348): the context of `act` stands at a bundle boundary and takes the boundary trap that is due, or halts for
a pre-emption request; a context whose EXIT or HALT has run its bundles, or whose join step is left (R309), halts for a trap
only. -/
def execTrapTake (s : State) : Host.Outcome State Fault Refusal :=
  let cid := s.act.cid
  let c := s.ctx cid
  if !(c.st == .live || c.st == .joining) || ((c.ended || c.st == .joining) && (firstDue c.due).isNone) then stutter s
  else
    match ((Eff.start s).settle cid).boundary cid with
    | some e => done s e
    | none => stutter s

/-- PREEMPT_REQUEST (R356): the CSC asks the context of `act` to halt at its next bundle boundary. -/
def execPreemptRequest (s : State) : Host.Outcome State Fault Refusal :=
  let cid := s.act.cid
  let c := s.ctx cid
  if c.st = .live ∧ !c.ended then done s ((Eff.start s).ctx cid (fun c => { c with preempt := true })) else stutter s

/-! ### The save (R356, R357) -/

/-- Whether every entry of a command in its fault queue awaits the answer to a page request (R356 step 3). -/
def awaitsHost (s : State) (m : Cmd) : Bool :=
  (s.clu (clusterOf m.cid.core)).fq.all (fun f => f.uid != m.uid ||
    (match f.asked with | some u => (s.priCode u).isNone | none => false))

/-- Whether a command does not hold up its context's save: it is unstarted; an accepted ATOMNR; or waits for the host
with nothing but parked work, or behind such a command. -/
def cmdSettled (s : State) (m : Cmd) : Bool :=
  if m.bus = 10 ∧ m.t = 6 then m.st == .accepted
  else m.st == .queued || (onlyParked s m && awaitsHost s m) || s.boxHeld m (awaitsHost s)

/-- Whether steps 2 and 3 of R356 are over, but for the fixed-latency stores. -/
def drained (s : State) (cid : Cid) : Bool :=
  let c := s.ctx cid
  let k := s.core cid.core
  c.sb.isEmpty && c.post.isEmpty &&
    (match k.kbRun with | some (o, _) => o.ctx != cid.ctx | none => true) &&
    (match k.mxRun with | some r => r.op.ctx != cid.ctx | none => true) &&
    s.cmds.all (fun m => m.cid != cid || cmdSettled s m)

/-- The unstarted work of a context leaves its queues, and with it goes what is pending on it in the flag file (R356 step 4). -/
def State.takeOut (s : State) (cid : Cid) : State :=
  let k := s.core cid.core
  let kb := k.kbq.filter (fun o => o.ctx == cid.ctx)
  let mx := k.mxq.filter (fun o => o.ctx == cid.ctx)
  let n := (s.cmdsOf cid .queued).length
  let hold (m : Cmd) : Cmd := if m.cid = cid ∧ m.st = CmdSt.queued then { m with st := CmdSt.held, seen := [] } else m
  let s : State := { s with cmds := s.cmds.map hold }
  let s := s.modCore cid.core (fun k =>
    { k with kbq := k.kbq.filter (fun o => o.ctx != cid.ctx), mxq := k.mxq.filter (fun o => o.ctx != cid.ctx) })
  s.modCtx cid (fun c =>
    let c := (kb.filterMap (·.verdict)).foldl (fun c j => c.pendingC j false) c
    { c with heldKb := kb, heldMx := mx, cp := c.cp - n, tl := c.tl - (kb.length + mx.length) })

/-- The save of a context whose drains are over (R356 steps 4 and 5). -/
def Eff.save (e : Eff) (cid : Cid) : Eff :=
  let e := (e.stores cid (fun _ => true)).settle cid
  let e := (e.put (saveWrites e.st cid)).on (fun s => s.takeOut cid)
  e.ctx cid (fun c => { c with st := .halted, blocked := false, quiet := false })

/-- The boundary trap of a halting context that its save is to record: the first one due, but for a TRAP of IXPOL, which the
save area holds (R268, R349). -/
def Ctx.dueLate (c : Ctx) : Option (Nat × Word) := firstDue (c.due.filter (fun d => d.1 != causeAddr))

/-- The trap that falls due while a pre-empted context drains is recorded as the cause (R349, R356). One that falls due beside
another trap stays due: R348 lets a context raise one at a boundary (log entry 40). -/
def Ctx.lateTrap (c : Ctx) (d : Nat × Word) : Ctx :=
  { c with due := c.due.erase d, trap := some ⟨d.1, d.2, none⟩ }

/-- The cause with which a context has halted: 0 for pre-emption. -/
def Ctx.cause (c : Ctx) : Nat := (c.trap.map (·.cause)).getD 0

/-- The argument of the trap with which a context has halted. -/
def Ctx.causeArg (c : Ctx) : Word := (c.trap.map (·.arg)).getD 0

/-- CONTEXT_SAVE (R348, R356, R357): the save sequence of the halting context of `act`: a started copy is cut, a boundary trap
that has fallen due is recorded, or, once the drains are over, the state is saved, the context is halted, and its trap
reaches firmware. -/
def execContextSave (s : State) : Host.Outcome State Fault Refusal :=
  let cid := s.act.cid
  let c := s.ctx cid
  if c.st ≠ .halting then stutter s
  else
    match s.cmds.find? (fun m => m.cid == cid && toCut s m), (if c.cause = 0 then c.dueLate else none) with
    | some m, _ => done s ((Eff.start s).cutCopy m)
    | none, some d => done s ((Eff.start s).ctx cid (fun c => c.lateTrap d))
    | none, none => if drained s cid then done s (((Eff.start s).save cid).firmware cid c.cause c.causeArg) else stutter s

/-- A word of memory with some bits changed. -/
def wrWord (m : Mem) (k : Nat) (f : Word → Word) : List Wr := wrNat k 8 (f (m.word k)).toNat

/-- OCP one lower in the word that holds it and HELD; the reserved bits are written zero (R5, R352). -/
def ocpLess (x : Word) : Word := (x &&& 0x100) ||| ((x - 1) &&& 0xFF)

/-- What the completion of a command writes into the save area of its halted context (R358); reserved bits are written zero
(R5). -/
def haltedWrites (s : State) (m : Cmd) : List Wr :=
  let k := (s.ctx m.cid).savea.toNat
  let slot (r : Option (Fin 64)) (x : Word) : List Wr :=
    match r with | some i => if i = 0 then [] else wrNat (k + 0x80 + 8 * i.val) 8 x.toNat | none => []
  let bits := [m.tok, m.dst2].foldl (fun (a : Word) r =>
    match r with | some i => a ||| ((1 : Word) <<< i.val) | none => a) 0
  slot m.dst2 m.val2 ++ slot m.tok m.status ++ wrWord s.mem (k + 0x28) (fun x => x &&& ~~~bits) ++
  (if m.miss.isEmpty then [] else wrWord s.mem (k + 0x2C8) (fun x => (x &&& 0x1FF) ||| flIXM.setWidth 64)) ++
  (match m.trapAt with
   | some el =>
     if (s.mem.word (k + 0x38)).getLsbD 8 then wrWord s.mem (k + 0x38) ocpLess
     else wrWord s.mem (k + 0x38) (fun x => ocpLess x ||| 0x100) ++ wrNat (k + 0x40) 8 el
   | none => wrWord s.mem (k + 0x38) ocpLess)

/-- HALTED_COMMAND_COMPLETE (R358): the index or tree command `num` of a halted context completes into its save area. -/
def execHaltedCommandComplete (s : State) : Host.Outcome State Fault Refusal :=
  match s.cmd s.act.num with
  | some m =>
    if mayLand s m && (s.ctx m.cid).isHalted then
      let e := (Eff.start s).landFlights (.cmd m.uid)
      let e := e.put (haltedWrites e.st m)
      let e := e.on (fun s => (s.leaveGranules m).dropCmd m.uid)
      done s (e.ctx m.cid (fun c => { c with cp := c.cp - 1 }))
    else stutter s
  | none => stutter s

/-! ### The assist (R360) -/

/-- The operation of an assist record, by its unit and code. -/
def assistOp (u : Fin 15) (t : Nat) : Option Op := (trigOn ⟨u.val, by omega⟩ t .always (.s 0)).bind opOf

/-- The result that firmware computes for the record at a key: every lane under R114, in the record's mode. -/
def assistResult (s : State) (cid : Cid) (a : AssistRec) (k : Nat) : Option Pend :=
  let m := s.mem
  let w := m.word k
  let o2 := vecAt m (k + 0x140)
  let s := s.modCtx cid (fun c =>
    { c with fpc := m.word (k + 8), kOld := []
             k := match a.kr with
               | some r => c.k.set (o2.toNat % 16) r (Nat.mod_lt _ (by omega))
               | none => c.k })
  (assistOp (Fin.ofNat 15 (field w 0 4)) (field w 4 10)).bind (fun o => o.full
    { cid := cid, s := s, b := .vc (vecAt m (k + 0x40)), o1 := .vc (vecAt m (k + 0xC0)), o2 := .vc o2,
      o3 := m.word (k + 0x18), rnd := m.word (k + 0x10) })

/-- The results of the records of a context. -/
def assistResults (s : State) (cid : Cid) : List Pend :=
  let c := s.ctx cid
  c.assist.zipIdx.filterMap (fun p => assistResult s cid p.1 (c.savea.toNat + 0x6000 + 448 * p.2))

/-- What firmware writes into the save area (R360): the pending-result entries, their number, and the flags in STAT; reserved bits
are written zero (R5). -/
def assistWrites (s : State) (cid : Cid) (ps : List Pend) : List Wr :=
  let k := (s.ctx cid).savea.toNat
  let n := field (s.mem.word (k + 0x30)) 8 5
  wrBytes (k + 0x4480 + 144 * n) (ps.map Pend.bytes).flatten ++
  wrWord s.mem (k + 0x30) (fun x => (x &&& 0xFF00FF) ||| BitVec.ofNat 64 ((n + ps.length) % 32 * 2 ^ 8)) ++
  wrWord s.mem (k + 0x2C8) (fun x => (x &&& 0x1FF) ||| (ps.foldl (fun (a : BitVec 9) p => a ||| p.fl) 0).setWidth 64)

/-- ASSIST_SERVICE (R360, R348): firmware completes the operations recorded for the halted context of `act`, also where its CSC
has already asked for the resume (log entry 18); a TRAP_SW recorded with them is then written to the host trap log. -/
def execAssistService (s : State) : Host.Outcome State Fault Refusal :=
  let cid := s.act.cid
  let c := s.ctx cid
  if c.isHalted ∧ !c.assist.isEmpty then
    let e := (Eff.start s).put (assistWrites s cid (assistResults s cid))
    let e := match c.trap.bind (·.sw) with | some a => e.logTrap cid causeSw a | none => e
    done s (e.ctx cid (fun c => { c with assist := [] }))
  else stutter s

/-! ### The resume (R350, R358, R359) -/

/-- A piece of saved work is pushed to its unit again, with what its entry holds. -/
def State.rePush (s : State) (cid : Cid) : Held → State
  | .cmd m =>
    let s : State := { s with cmds := s.cmds.filter (fun x => x.uid != m.uid) ++ [{ m with st := .queued }], nextUid := max s.nextUid (m.uid + 1) }
    s.modCtx cid (fun c => { c with cp := c.cp + 1 })
  | .kb o =>
    (s.modCore cid.core (fun k => { k with kbq := k.kbq ++ [o] })).modCtx cid (fun c =>
      let c := { c with tl := c.tl + 1 }
      match o.verdict with | some j => c.pendingC j true | none => c)
  | .mx o =>
    (s.modCore cid.core (fun k => { k with mxq := k.mxq ++ [o] })).modCtx cid (fun c => { c with tl := c.tl + 1 })

/-- Whether a piece of work belongs to a unit: an engine command's bus, 13 for KB, 9 for MX. -/
def Held.onBus (b : Nat) : Held → Bool
  | .cmd m => m.bus.val == b
  | .kb _ => b == 13
  | .mx _ => b == 9

/-- Whether the units have room for work that is pushed to them again: the queues of R51 keep their limits. -/
def resumeFits (s : State) (cid : Cid) (l : List Held) : Bool :=
  [10, 11, 14].all (fun b => !l.any (Held.onBus b) || inFlight s cid.core b + (l.filter (Held.onBus b)).length ≤ flightLimit b) &&
  (!l.any (Held.onBus 9) || (s.core cid.core).mxq.length + (l.filter (Held.onBus 9)).length ≤ 8) &&
  (!l.any (Held.onBus 13) || (s.kbOps cid).length + (l.filter (Held.onBus 13)).length ≤ 16)

/-- The counters and the work of a resumed context (R358, R359 steps 2 and 3): the list is the area's, in its order; saved work
that firmware has taken off it is gone. -/
def State.resumeWork (s : State) (cid : Cid) (k : Nat) : State :=
  let l := workAt s cid k
  let s : State := { s with cmds := s.cmds.filter (fun m => !(m.cid == cid && m.st == .held)) }
  let s := s.modCtx cid (fun c =>
    { c with ld := 0, stc := 0, cp := field (s.mem.word (k + 0x38)) 0 8, tl := 0, heldKb := [], heldMx := [] })
  l.foldl (fun s x => s.rePush cid x) s

/-- The resume of a context from its save area (R359). It runs when its core makes it the running context (R300), and a
TWAITB enters its wait afresh (R326). -/
def State.resume (s : State) (cid : Cid) : State :=
  let k := (s.ctx cid).savea.toNat
  let s := (s.modCtx cid (fun c => c.restore (s.core cid.core).coverOf s.mem k)).resumeWork cid k
  s.modCtx cid (fun c =>
    let c := { c with st := .live, trap := none, preempt := false, blocked := true, quiet := false, ack := s.invNext,
                      probe := none, tw := none, lastSeq := c.seq, due := c.due.filter (fun d => d.1 != causeAddr) }
    if (s.mem.word (k + 0x38)).getLsbD 8 then c.addDue causeAddr (s.mem.word (k + 0x40)) else c)

/-- CONTEXT_RESUME (R350, R359): the halted context of `act` is resumed, after an ERET of its CSC or by the firmware that
these steps stand for; a context that a debugger holds, or whose assist is not served, stays halted, and its work waits for
room in the units. -/
def execContextResume (s : State) : Host.Outcome State Fault Refusal :=
  let cid := s.act.cid
  let c := s.ctx cid
  if c.isHalted ∧ s.runs ∧ !c.dbgHold ∧ c.assist.isEmpty ∧ resumeFits s cid (workAt s cid c.savea.toNat) then
    done s ((Eff.start s).on (fun s => s.resume cid))
  else stutter s

/-! ### Faults (R362, R363) -/

/-- The class code of R363: the row number of R362, from 1. -/
def classCode (s : State) : Word := BitVec.ofNat 64 (s.act.cls.val + 1)

/-- Groups broken until their launch ends (R322, R363). -/
def State.breakGroups (s : State) (which : Group → Bool) : State :=
  { s with groups := s.groups.map (fun p => (p.1, if which p.2 then { p.2 with broken := true } else p.2)) }

/-- Whether a context runs a record, so that a fault in it is its trap. -/
def Ctx.atWork (c : Ctx) : Bool := c.st == .live || c.st == .joining || c.st == .halting

/-- A detected fault in a context's own state or result (R363): it takes RAS_CTX at its next boundary, or, where it is halted,
at the boundary at which it stands, and the trap reaches firmware; where it runs nothing, the launch ends with the fault
alone. -/
def Eff.ras (e : Eff) (cid : Cid) (code : Word) : Eff :=
  if (e.st.ctx cid).atWork then e.ctx cid (fun c => c.addDue causeRas code)
  else if (e.st.ctx cid).isHalted && e.st.runs then e.firmware cid causeRas code
  else e.on (fun s => s.launchFault ⟨0, 0⟩ code)

/-- A context of a core that is reset: RAS_CTX is recorded, and what it had under way in the core is gone (log entry 56). -/
def Ctx.reset (c : Ctx) (code : Word) : Ctx :=
  if c.atWork then { c.halt causeRas code with sb := [], post := [], stores := [], applies := [], ld := 0, stc := 0, tl := 0 }
  else c

/-- A core is reset (R322, R363): its groups break, so that waiters of other cores take GROUP_BROKEN; each of its live contexts
is recorded as RAS_CTX, and the launch's report names the first of them; the core's own units lose what they held. -/
def Eff.resetCore (e : Eff) (n : Fin 4112) (code : Word) : Eff :=
  let first := (List.finRange 4).find? (fun i => ((e.st.core n).at i).atWork)
  e.on (fun s =>
    let s := s.breakGroups (fun g => g.members.getLsbD n.val)
    let s := s.launchFault (match first with | some i => ⟨n, i⟩ | none => ⟨0, 0⟩) code
    let s : State := { s with flight := s.flight.filter (fun f => f.of != .mx n && f.of != .win n) }
    s.modCore n (fun k =>
      { k with ctx := k.ctx.map (fun c => c.reset code), kbq := [], kbRun := none, mxq := [], mxRun := none }))

/-- The device after a reset (R342, R344, R363): as State.reset, with what fuses, flash and the world outside hold. -/
def State.deviceReset (s : State) : State :=
  { State.reset with
    sched := s.sched, tick := s.tick, nextUid := s.nextUid, power := s.power
    mem := ⟨s.mem.cells.filter (fun c => peerKey 0 0 ≤ c.1)⟩
    host := { State.reset.host with msix := s.host.msix, xlatErr := s.host.xlatErr, dbg := s.host.dbg }
    boot := { State.reset.boot with
      keyHash := s.boot.keyHash, minSvn := s.boot.minSvn, secret := s.boot.secret, debug := s.boot.debug,
      fuses := s.boot.fuses, slotA := s.boot.slotA, slotB := s.boot.slotB, idCert := s.boot.idCert, draws := s.boot.draws } }

/-- The effect of a reset: everything in the device's own memories is gone (R330, R342). -/
def Eff.deviceReset (e : Eff) : Eff := (e.put [.clear 0 (peerKey 0 0)]).on State.deviceReset

/-- Whether a port is up. -/
def State.anyUp (s : State) : Bool := s.ports.toList.any (·.up)

/-- Vector 4, where a reset sets MBSTAT.BUSY to 0 (R365). -/
def State.busyMsi (s : State) (busy : Bool) : State := if busy then s.msi 4 else s

/-- Vector 2, where a bit of PORTST changes (R365). -/
def State.portsMsi (s : State) (changed : Bool) : State := if changed then s.msi 2 else s

/-- Whether a key lies in a peer device's memory. -/
def inPeer (dev k : Nat) : Bool := peerKey dev 0 ≤ k && k < peerKey (dev + 1) 0

/-- The first byte of a peer that a sector in flight is to reach, if any. -/
def Flight.toPeer (f : Flight) (dev : Nat) : Option Nat :=
  ((f.wr.map (·.1)) ++ f.src.filterMap id).find? (inPeer dev)

/-- The address under which the accesses of a core reach a place in memory. -/
def addressOf (s : State) (n : Fin 4112) (pasid : BitVec 20) (k : Nat) : Word :=
  (((s.clu (clusterOf n)).atc ++ s.pages).findSome? (fun p =>
    match physKey s p.2.pa with
    | .ok b => if p.1 = pasid ∧ b ≤ k ∧ k < b + 2 ^ p.2.lg then some (BitVec.ofNat 64 (p.2.va + (k - b))) else none
    | _ => none)).getD 0

/-- An engine command of which an access to a peer is lost ends, or is to end, ERROR with reason LINK and count 0 (R374). -/
def Cmd.linkLost (m : Cmd) : Cmd :=
  if m.bus = 10 ∧ m.t < 4 ∧ m.st = .started then { m with reason := rsLink }
  else if m.bus = 11 ∧ m.t < 2 ∧ m.st = .started then { m with bits := 1 }
  else { m with st := .fin, status := statusWord codeError rsLink 0 (field m.status 0 32) }

/-- An access in flight to a peer that no port reaches any more is lost (R374): its command ends with LINK, or the context for
which the MX unit or the windows of a core made it takes FATAL_UNPROBED (log entry 31). `s` is the state before. -/
def Eff.flightLost (e : Eff) (s : State) (f : Flight) (k : Nat) : Eff :=
  let trap (cid : Cid) : Eff := e.ctx cid (fun c => c.unprobed (addressOf s cid.core (s.ctx cid).pasid k))
  match f.of with
  | .cmd u => e.cmd u Cmd.linkLost
  | .mx n => trap ⟨n, ((s.core n).mxRun.map (·.op.ctx)).getD (s.core n).running⟩
  | .win n => trap ⟨n, (s.core n).running⟩

/-- An accepted atomic to a peer that no port reaches any more is lost (R374). -/
def Eff.atomicLost (e : Eff) (m : Cmd) : Eff :=
  if m.t = 6 then (e.ctx m.cid (fun c => c.addDue causeUnprobed m.b)).on (fun s => s.dropCmd m.uid)
  else e.fail m rsLink m.idNat

/-- The last port to a peer has gone: the accesses on their way there complete as R374 says. `s` is the state before. -/
def Eff.peerLost (e : Eff) (s : State) (dev : Nat) : Eff :=
  let gone := s.flight.filterMap (fun f => (f.toPeer dev).map (fun k => (f, k)))
  let e := e.on (fun t => { t with flight := t.flight.filter (fun f => (f.toPeer dev).isNone) })
  let e := gone.foldl (fun e x => e.flightLost s x.1 x.2) e
  (s.cmds.filter (fun m => m.bus == 10 && m.st == .accepted && inPeer dev m.key)).foldl (fun e m => e.atomicLost m) e

/-- A port goes down (R363, R365, R374): vector 2 is raised where it was up, and what is on its way to a peer that no port
reaches any more is lost. -/
def Eff.portDown (e : Eff) (p : Fin 48) : Eff :=
  let s := e.st
  let x := s.ports.get p
  if x.up then
    let e := e.on (fun s => ({ s with ports := s.ports.set p.val { x with up := false } p.isLt } : State).msi 2)
    if reaches e.st x.peer.toNat then e else e.peerLost s x.peer.toNat
  else e

/-- FAULT_DETECT (R363): a fault of class `cls` (the rows of R362, from 0) is detected. Rows 1 to 5: in the state or
result of the context of `act`, or, where `flag` is set, in state that its core shares, so that the core is reset. Row 6:
in the engine command `num`, or in a lift unit or an engine with no such command; in the group unit where `flag` is set; in the
MX queue of the core, where `hi` is not 0. Row 8: the port `port` is taken down. Rows 9 and 10: the device resets. Rows 7 and 11 show themselves elsewhere (R220) or are
corrected. -/
def execFaultDetect (s : State) : Host.Outcome State Fault Refusal :=
  let cid := s.act.cid
  let code := classCode s
  let e := Eff.start s
  match s.act.cls.val with
  | 5 =>
    if s.act.flag then done s (e.on (fun s => (s.breakGroups (fun _ => true)).launchFault ⟨0, 0⟩ code))
    else if s.act.hi ≠ 0 then done s (e.resetCore cid.core code)
    else
      match s.cmd s.act.num with
      | some m => done s ((e.on (fun s => s.dropCmd m.uid)).ras m.cid code)
      | none => done s (e.on (fun s => s.launchFault ⟨0, 0⟩ code))
  | 6 => stutter s
  | 7 => done s (e.portDown s.act.port)
  | 8 | 9 => done s (e.deviceReset.on (fun t => ((t.portsMsi s.anyUp).busyMsi s.host.busy).msi 3))
  | 10 => stutter s
  | _ => if s.act.flag then done s (e.resetCore cid.core code) else done s (e.ras cid code)

/-- PATROL_SCRUB (R362): latent faults are corrected; no value that the machine shows changes. -/
def execPatrolScrub (s : State) : Host.Outcome State Fault Refusal := stutter s

end Sys2Proof.Machine
end

