-- ==== Sys2Proof/Machine/Outside.lean ====
section
/-! DEFINITION. The outside world: the host's accesses and registers, the mailbox, migration, the ports, boot, power
(spec/16_copy_index.md R261; spec/21_isolation.md R342 to R346; spec/24_host_links_power.md R365 to R376). -/

namespace Sys2Proof.Machine

/-! ### Host accesses to device memory (R365, R261) -/

/-- The bytes of a host access or of a frame that performs at its home, or at the new home of a moved line. -/
def homeWrites (s : State) (p : Nat) (bs : List Byte) : List Wr :=
  bs.zipIdx.map (fun x => .byte (forwarded s (p + x.2)) x.1)

/-- Whether no accepted atomic holds a byte of an extent of device memory (R242). -/
def homeFree (s : State) (p n : Nat) : Bool := (List.range n).all (fun i => !atomicHeld s (forwarded s (p + i)) 1)

/-- The bytes that an access names. -/
def accPlace (a : HostAcc) : Nat × Nat := match a with | .rd p n => (p, n) | .wr p d => (p, d.length)

/-- An access of the host to device memory: a write writes its bytes, a read changes nothing. -/
def hostAccess (s : State) (a : HostAcc) : Host.Outcome State Fault Refusal :=
  let x := accPlace a
  if !homeFree s x.1 x.2 then stutter s
  else
    match a with
    | .rd _ _ => done s (Eff.start s)
    | .wr p d => done s ((Eff.start s).put (homeWrites s p d))

/-- HOST_BAR_ACCESS (R365): the host reads or writes the memory BAR, as `acc` says. At or above 766 GiB it completes with
Completer Abort and has no effect. -/
def execHostBarAccess (s : State) : Host.Outcome State Fault Refusal :=
  match s.act.acc with
  | some a => if 766 * 2 ^ 30 < (accPlace a).1 + (accPlace a).2 then done s (Eff.start s) else hostAccess s a
  | none => stutter s

/-! ### Migration (R261, R371) -/

/-- Whether an address lies on a line that a migration has moved away. -/
def movedAway (s : State) (p : Nat) : Bool := forwarded s p != p

/-- ACCESS_FORWARD (R261): an access, `acc` of `act`, that reaches the old home of a MOVED line performs once, at the new
home. -/
def execAccessForward (s : State) : Host.Outcome State Fault Refusal :=
  match s.act.acc with
  | some a =>
    let x := accPlace a
    if movedAway s x.1 ∧ x.1 % 128 + x.2 ≤ 128 then hostAccess s a else stutter s
  | none => stutter s

/-- The migration of the page at an address. -/
def State.migr (s : State) (old : Nat) : Option Migr := s.migrs.find? (fun g => g.old == old)

/-- The state with a migration changed. -/
def State.modMigr (s : State) (old : Nat) (f : Migr → Migr) : State :=
  { s with migrs := s.migrs.map (fun g => if g.old = old then f g else g) }

/-- The mailbox request is over with a result (R366, R370): vector 4. -/
def State.mailDone (s : State) (result : Nat) : State :=
  ({ s with host := { s.host with busy := false, result := BitVec.ofNat 8 result } } : State).msi 4

/-- Whether a line of device memory is in use at its home: an accepted atomic has still to perform on it, a sector of it is in
flight, or a tile fetch pins it. -/
def lineBusy (s : State) (k : Nat) : Bool :=
  atomicHeld s k 128 || s.flight.any (fun f => f.wr.any (fun p => p.1 / 128 == k / 128) || f.src.any (fun j => j.any (fun j => j / 128 == k / 128))) ||
    s.pins.any (fun l => l.key / 128 == k / 128)

/-- LINE_MOVE (R261, R371): line `line` of the migrating page at `num` is copied to its new home and marked MOVED, once
every access that has reached it has performed; after the last line the mailbox request is over, and the host is told. -/
def execLineMove (s : State) : Host.Outcome State Fault Refusal :=
  match s.migr s.act.num with
  | some g =>
    let l := s.act.line
    let o := 128 * l.val
    if g.moved.contains l || lineBusy s (g.old + o) || lineBusy s (g.new + o) then stutter s
    else
      let e := (Eff.start s).put (wrBytes (g.new + o) (s.mem.bytes (g.old + o) 128))
      let last := g.moved.length == 31
      let e := e.on (fun s => s.modMigr g.old (fun g => { g with moved := l :: g.moved, told := if last then some s.invNext else none }))
      done s (if last then e.on (fun s => s.mailDone 0) else e)
  | none => stutter s

/-- END_MARKER (R261, R371): once the host's invalidation of the old translation has completed, the old home sends the end
marker of line `line` of the page at `num`; with the last one the migration is over (log entry 28). -/
def execEndMarker (s : State) : Host.Outcome State Fault Refusal :=
  match s.migr s.act.num with
  | some g =>
    let l := s.act.line
    if !g.sent || g.ended.contains l then stutter s
    else if g.ended.length = 31 then
      done s ((Eff.start s).on (fun s => { s with migrs := s.migrs.filter (fun x => x.old != g.old) }))
    else done s ((Eff.start s).on (fun s => s.modMigr g.old (fun g => { g with ended := l :: g.ended })))
  | none => stutter s

/-! ### Registers (R366, R367, R369) -/

/-- CSTAT (R367). -/
def cstat (s : State) : Word :=
  let l := s.launch
  let st := match l.st with | .idle => 0 | .running => 1 | .ended => 2 | .rejected => 3
  let gone : Bool := l.st == .ended
  let fin := if gone then (match l.fin with | .root => 0 | .halt => 1 | .trap => 2 | .fault => 3) else 0
  BitVec.ofNat 64 ((if gone then l.devcore * 2 ^ 32 + l.ctx * 2 ^ 24 + l.cause * 2 ^ 16 else 0) +
    (if l.st = .rejected then l.rej * 2 ^ 8 else 0) + l.lwb.toNat * 2 ^ 7 + l.jerr.toNat * 2 ^ 6 + fin * 2 ^ 4 + st)

/-- What the host reads at an offset of the control BAR (R366). -/
def hostReg (s : State) (off : Nat) : Word :=
  match off with
  | 0x008 => s.host.lpasid.setWidth 64
  | 0x010 => cstat s
  | 0x018 => if s.launch.st = .ended then s.launch.ccode else 0
  | 0x020 => s.launch.seqno
  | 0x040 => s.host.tlogb
  | 0x048 => s.host.tlogw
  | 0x080 => s.host.mbreq
  | 0x090 => BitVec.ofNat 64 (s.host.busy.toNat * 2 ^ 63 + s.host.result.toNat)
  | 0x0C0 => BitVec.ofNat 64 (((List.finRange 48).map (fun p => (s.ports.get p).up.toNat * 2 ^ p.val)).sum)
  | 0x0C8 => BitVec.ofNat 64 s.power.mw
  | _ => 0

/-- TLOGB_WRITE (R369): the host writes `word` to TLOGB; TLOGW restarts. -/
def execTlogbWrite (s : State) : Host.Outcome State Fault Refusal :=
  done s ((Eff.start s).on (fun s => { s with host := { s.host with tlogb := s.act.word &&& ~~~0xFF0, tlogw := 0 } }))

/-! ### The mailbox (R370) -/

/-- `n` bytes that the device management core reads at a bus address; none where the address is refused. -/
def busRead (s : State) (a n : Nat) : Option (List Byte) :=
  if (List.range n).any (fun i => (busPlace s (a + i)).isNone) then none
  else some ((List.range n).map (fun i => s.mem.get ((busPlace s (a + i)).getD 0)))

/-- Whether the device management core may write `n` bytes at a bus address. -/
def busOk (s : State) (a n : Nat) : Bool := (List.range n).all (fun i => (busPlace s (a + i)).isSome)

/-- Word `i` of the request that the device management core has taken. -/
def mailWord (s : State) (i : Nat) : Word := s.host.req.getD i 0

/-- The eight words at MBREQ. -/
def mailAt (s : State) : List Word :=
  (List.range 8).map (fun i => BitVec.ofNat 64 (leNat ((busRead s (s.host.mbreq.toNat + 8 * i) 8).getD [])))

/-- Whether MBREQ names a request that can be read. -/
def mailReadable (s : State) : Bool := s.host.mbreq.toNat % 64 == 0 && busOk s s.host.mbreq.toNat 64

/-- The command of the request. -/
def mailCommand (s : State) : Nat := field (mailWord s 0) 0 8

/-- MBDB (R366, R370): a request starts, with the words that MBREQ then names; one that cannot be read has a bad operand, and
one whose command the table does not list is a bad command. -/
def State.doorbell (s : State) : State :=
  if s.host.busy then s
  else if !mailReadable s then s.mailDone 2
  else
    let t : State := { s with host := { s.host with req := mailAt s } }
    if mailCommand t = 0 ∨ 7 < mailCommand t then t.mailDone 1 else { t with host := { t.host with busy := true } }

/-- REGISTER_WRITE (R366): the host writes `word` at offset `num` of the control BAR: LPASID, MBREQ or MBDB; LAUNCH and
TLOGB have steps of their own, and every other offset ignores the write. -/
def execRegisterWrite (s : State) : Host.Outcome State Fault Refusal :=
  match s.act.num with
  | 0x008 => done s ((Eff.start s).on (fun s => { s with host := { s.host with lpasid := s.act.word.setWidth 20 } }))
  | 0x080 => done s ((Eff.start s).on (fun s => { s with host := { s.host with mbreq := s.act.word } }))
  | 0x088 => done s ((Eff.start s).on State.doorbell)
  | _ => stutter s

/-- STATE is 0, 2 or 3, and the device is not in recovery mode (R344). -/
def notRunning (s : State) : Bool := s.launch.st != .running && !s.boot.recovery

/-- What the body of a mailbox command comes to: a bad operand, a wait for the host's reply for a page, or its effect. -/
inductive Mail where
  | bad
  | wait
  | ok (e : Eff)

/-- A mailbox command that has started (R370): refused in a STATE that does not allow it, else served by its body. -/
def mailbox (n : Nat) (allowed : State → Bool) (body : State → Mail) (s : State) : Host.Outcome State Fault Refusal :=
  if !s.host.busy || mailCommand s != n || !s.migrs.all (fun g => g.told.isSome) then stutter s
  else if !allowed s then done s ((Eff.start s).on (fun s => s.mailDone 3))
  else
    match body s with
    | .bad => done s ((Eff.start s).on (fun s => s.mailDone 2))
    | .wait => stutter s
    | .ok e => done s (e.on (fun s => s.mailDone 0))

/-- LOCALINIT copies launch data into the scratchpads of the cores whose ENTRY is not zero, or into chip scratchpad. -/
def localInit (s : State) : Mail :=
  let p := s.host.lpasid
  let src := mailWord s 1
  let len := (mailWord s 2).toNat
  let off := (mailWord s 3).toNat
  let sv := mailWord s 5
  let kind := (mailWord s 4).toNat
  let source := if len = 0 then some true else present s p src len false
  let bs := if len = 0 then [] else readBytes s 0 p src len
  if 1 < kind ∨ (if kind = 0 then 0x27F00 else 0x4000000) < off + len then .bad
  else
    match allKnown [source, if kind = 0 then present s p sv 0x8080 false else some true] with
    | some false => .bad
    | none => .wait
    | some true =>
      .ok ((Eff.start s).put (if kind = 0 then (launchCores s p sv).flatMap (fun n => wrBytes (coreKey n off) bs)
        else wrBytes (chipKey off) bs))

/-- LOCALINIT (R370). -/
def execLocalinit (s : State) : Host.Outcome State Fault Refusal := mailbox 1 notRunning localInit s

/-- The signed part of an attestation report (R346). -/
def reportBody (s : State) (nonce : List Byte) : List Byte :=
  let running := s.launch.st == .running
  leBytes 4 1 ++ leBytes 4 (Bool.toNat s.boot.debug + 2 * s.boot.recovery.toNat) ++ leBytes 4 s.boot.svn.toNat ++
  leBytes 4 s.boot.minSvn.toNat ++ nonce ++ leBytes 32 (Config.sha3 s.boot.idPub).toNat ++ leBytes 32 s.boot.mdmc.toNat ++
  leBytes 32 s.boot.mcsc.toNat ++ leBytes 32 (Config.sha3 s.boot.fuses).toNat ++
  leBytes 8 (if running then s.launch.seqno.toNat else 0) ++ leBytes 4 (if running then s.launch.pasid.toNat else 0) ++
  leBytes 4 0

/-- An attestation report: 2612 bytes. -/
def report (s : State) (nonce : List Byte) : List Byte :=
  let b := reportBody s nonce
  b ++ leBytes 2420 (Config.dsaSign s.boot.aliasSeed (Config.sha3 b)).toNat

/-- ATTEST (R346, R370). -/
def execAttest (s : State) : Host.Outcome State Fault Refusal :=
  mailbox 2 (fun _ => true) (fun s =>
    match busRead s (mailWord s 1).toNat 32 with
    | some nonce =>
      let a := (mailWord s 2).toNat
      if busOk s a 2612 then .ok ((Eff.start s).put (busWrites s a (report s nonce))) else .bad
    | none => .bad) s

/-- The seed of the device identity key (R345). -/
def identitySeed (secret : BitVec 256) : BitVec 256 := Config.sha3 (leBytes 32 secret.toNat ++ [0x01])

/-- The two certificates, each after its length (R370). -/
def certBytes (s : State) : List Byte :=
  let a := Config.aliasCert (identitySeed s.boot.secret) s.boot.aliasPub
  leBytes 4 s.boot.idCert.length ++ s.boot.idCert ++ leBytes 4 a.length ++ a

/-- CERTS (R370); a buffer that is too small is a bad operand. -/
def execCerts (s : State) : Host.Outcome State Fault Refusal :=
  mailbox 3 (fun _ => true) (fun s =>
    let bs := certBytes s
    let a := (mailWord s 1).toNat
    if bs.length ≤ (mailWord s 2).toNat ∧ busOk s a bs.length then .ok ((Eff.start s).put (busWrites s a bs)) else .bad) s

/-- FWLOAD (R370): the image goes into slot A or B. -/
def execFwload (s : State) : Host.Outcome State Fault Refusal :=
  mailbox 4 (fun s => s.launch.st != .running) (fun s =>
    match busRead s (mailWord s 1).toNat (mailWord s 2).toNat, (mailWord s 3).toNat with
    | some bs, 0 => .ok ((Eff.start s).on (fun s => { s with boot := { s.boot with slotA := bs } }))
    | some bs, 1 => .ok ((Eff.start s).on (fun s => { s with boot := { s.boot with slotB := bs } }))
    | _, _ => .bad) s

/-- SVNSET (R344, R370): the fused minimum rises to the running security version. -/
def execSvnset (s : State) : Host.Outcome State Fault Refusal :=
  mailbox 5 notRunning (fun s => .ok ((Eff.start s).on (fun s =>
    { s with boot := { s.boot with minSvn := if s.boot.minSvn.toNat < s.boot.svn.toNat then s.boot.svn else s.boot.minSvn } }))) s

/-- Whether an address is that of a page of device memory below the firmware region. -/
def pageOk (a : Nat) : Bool := a % 4096 == 0 && a < 766 * 2 ^ 30

/-- MIGRATE (R370, R371): the move of a page begins; BUSY stays 1 until every line has moved. -/
def execMigrate (s : State) : Host.Outcome State Fault Refusal :=
  if !s.host.busy || mailCommand s != 6 || !s.migrs.all (fun g => g.told.isSome) then stutter s
  else if s.launch.st ≠ .running then done s ((Eff.start s).on (fun s => s.mailDone 3))
  else
    let old := (mailWord s 1).toNat
    let new := (mailWord s 2).toNat
    if !pageOk old || !pageOk new || old == new || s.migrs.any (fun g => g.old == old || g.new == old || g.old == new || g.new == new) then
      done s ((Eff.start s).on (fun s => s.mailDone 2))
    else
      done s ((Eff.start s).on (fun s =>
        { s with migrs := s.migrs ++ [{ old := old, new := new, pasid := (mailWord s 3).setWidth 20,
                                        vpage := (mailWord s 4).toNat / 4096 * 4096, moved := [], told := none,
                                        sent := false, ended := [] }] }))

/-- Every port goes down (R370, R374), with vector 2 where one was up (R365). -/
def State.portsDown (s : State) : State :=
  ({ s with ports := s.ports.map (fun p => { p with up := false }) } : State).portsMsi s.anyUp

/-- Every port goes down, and what is on its way to a peer is lost (R374). -/
def Eff.portsDown (e : Eff) : Eff :=
  let s := e.st
  let devs := dedup ((s.ports.toList.filter (·.up)).map (fun x => x.peer.toNat))
  devs.foldl (fun e d => e.peerLost s d) (e.on State.portsDown)

/-- DEVNUM (R370, R373): the device number is set, and every port retrains. -/
def execDevnum (s : State) : Host.Outcome State Fault Refusal :=
  mailbox 7 notRunning (fun s =>
    if 255 < (mailWord s 1).toNat then .bad
    else .ok ((Eff.start s).portsDown.on (fun t => { t with devnum := (mailWord s 1).setWidth 8 }))) s

/-! ### Boot and power (R342, R344, R345, R376) -/

/-- Whether the boot ROM accepts an image (R344). -/
def imageOk (b : Boot) (img : List Byte) : Bool :=
  Config.sha3 (Config.imgKey img) == b.keyHash &&
  Config.dsaVerify (Config.imgKey img) (Config.sha3 img) (Config.imgSig img) && b.minSvn.toNat ≤ (Config.imgSvn img).toNat

/-- The image that boots: slot A's, or else slot B's. -/
def bootImage (b : Boot) : Option (List Byte) := [b.slotA, b.slotB].find? (imageOk b)

/-- The keys that the ROM derives (R345) and the memory keys that it draws (R342), for the measured firmware. -/
def Boot.derive (b : Boot) : Boot :=
  let seed := Config.sha3 (leBytes 32 b.secret.toNat ++ [0x02] ++ leBytes 32 b.mdmc.toNat ++ leBytes 32 b.mcsc.toNat)
  let key (i : Nat) : BitVec 256 := Config.sha3 (leBytes 32 (Config.entropy (b.draws + i)).toNat)
  { b with locked := true, idPub := Config.dsaPublic (identitySeed b.secret), aliasSeed := seed,
           aliasPub := Config.dsaPublic seed, memKeys := key 0 ++ key 1, draws := b.draws + 2 }

/-- What the boot ROM leaves: the accepted image's measures and version, or recovery mode (R344). -/
def Boot.boot (b : Boot) : Boot :=
  match bootImage b with
  | some img =>
    ({ b with powered := true, recovery := false, svn := Config.imgSvn img,
              mdmc := Config.sha3 (Config.imgDmc img), mcsc := Config.sha3 (Config.imgCsc img) } : Boot).derive
  | none => ({ b with powered := true, recovery := true, svn := 0, mdmc := 0, mcsc := 0 } : Boot).derive

/-- SECURE_BOOT (R344, R345): the boot ROM runs, once after each reset. -/
def execSecureBoot (s : State) : Host.Outcome State Fault Refusal :=
  if s.boot.locked then stutter s else done s ((Eff.start s).on (fun s => { s with boot := s.boot.boot }))

/-- POWER_LOSS (R342): every domain loses power together; on-chip state, device memory and the memory keys end. -/
def execPowerLoss (s : State) : Host.Outcome State Fault Refusal :=
  done s ((Eff.start s).deviceReset.on (fun s => { s with boot := { s.boot with powered := false } }))

/-- The clock after a reading of PWRMW in milliwatts (R376). -/
def nextClock (mhz mw : Nat) : Nat :=
  if 1800000 < mw then (if 100 < mhz then mhz - 100 else mhz)
  else if mw < 1700000 then min 2700 (mhz + 100) else mhz

/-- POWER_CAP_TICK (R376): firmware reads PWRMW, which then reports `num` milliwatts, and steps the stream-core clock. -/
def execPowerCapTick (s : State) : Host.Outcome State Fault Refusal :=
  done s ((Eff.start s).on (fun s => { s with power := { mw := s.act.num, mhz := nextClock s.power.mhz s.act.num } }))

/-! ### Ports (R343, R362, R372 to R374) -/

/-- The state with a port changed. -/
def State.modPort (s : State) (p : Fin 48) (f : Port → Port) : State :=
  { s with ports := s.ports.set p.val (f (s.ports.get p)) p.isLt }

/-- What the other end of a port sends in a key exchange (R343, R345): its device identity key and its alias key, of 1312 bytes
each, its signature, of 2420 bytes, and its certificate chain. -/
structure PeerHello where
  idPub : List Byte
  akey  : List Byte
  sig   : List Byte
  chain : List Byte

/-- The parts of what the other end sends. -/
def helloOf (bs : List Byte) : PeerHello :=
  { idPub := bs.take 1312, akey := (bs.drop 1312).take 1312, sig := (bs.drop 2624).take 2420, chain := bs.drop 5044 }

/-- The transcript digest of an exchange: the second half of what the exchange agrees on. -/
def transcript (p draws : Nat) : BitVec 256 := (Config.kemSecret p draws).extractLsb' 256 256

/-- Whether the other end is authentic (R343): its signature over the transcript digest verifies under its alias key, and its
certificate chain holds. -/
def PeerHello.ok (h : PeerHello) (p draws : Nat) : Bool :=
  Config.dsaVerify h.akey (transcript p draws) h.sig && Config.chainOk h.idPub h.akey h.chain

/-- Whether this end initiates (R343): its identity digest is the lower one (R345). -/
def PeerHello.weInitiate (h : PeerHello) (b : Boot) : Bool := (Config.sha3 b.idPub).toNat < (Config.sha3 h.idPub).toNat

/-- A port with the keys of a key exchange (R343): for each direction SHA3-256 of the shared secret, the transcript digest
and a direction byte, 0x00 from the initiator; the frame counter restarts under a new epoch. -/
def Port.keyed (x : Port) (p draws : Nat) : Port :=
  let z := leBytes 64 (Config.kemSecret p draws).toNat
  let k0 := Config.sha3 (z ++ [0x00])
  let k1 := Config.sha3 (z ++ [0x01])
  { x with txKey := if x.first then k0 else k1, rxKey := if x.first then k1 else k0, epoch := x.epoch + 1, txCtr := 0 }

/-- The sequence number that a port to a peer expects: the ports to one peer share it (R373). -/
def State.nextSeq (s : State) (peer : BitVec 8) : Nat :=
  s.ports.toList.foldl (fun n x => if x.peer == peer then max n x.rxSeq else n) 0

/-- PORT_TRAIN (R343, R373): port `port` trains, with what the other end sends in `bytes`. Where the other end is authentic the
port comes up and knows the device number `hi` there; where it is not, the port stays down. -/
def execPortTrain (s : State) : Host.Outcome State Fault Refusal :=
  let p := s.act.port
  let h := helloOf s.act.bytes
  let peer : BitVec 8 := BitVec.ofNat 8 s.act.hi
  if (s.ports.get p).up then stutter s
  else
    done s ((Eff.start s).on (fun s =>
      let t : State := { s with boot := { s.boot with draws := s.boot.draws + 1 } }
      if !h.ok p.val s.boot.draws then t
      else
        (t.modPort p (fun x =>
          { ({ x with first := h.weInitiate s.boot } : Port).keyed p.val s.boot.draws with
            up := true, peer := peer, rxSeq := s.nextSeq peer, retry := 0 })).msi 2))

/-- PORT_REKEY (R343): port `port` exchanges new keys, with what the other end sends in `bytes`; the roles stay. A port whose
authentication fails does not stay up. -/
def execPortRekey (s : State) : Host.Outcome State Fault Refusal :=
  let p := s.act.port
  let h := helloOf s.act.bytes
  if !(s.ports.get p).up then stutter s
  else
    let e := (Eff.start s).on (fun s => { s with boot := { s.boot with draws := s.boot.draws + 1 } })
    done s (if h.ok p.val s.boot.draws then e.on (fun t => t.modPort p (fun x => x.keyed p.val s.boot.draws)) else e.portDown p)

/-- How many bytes a frame's access covers. -/
def frameSize (f : Frame) : Nat :=
  match f.req with
  | .write => f.data.length
  | .read n => n
  | .atomic _ => 32

/-- Whether a frame has the form of R372: 1 to 8 beats of 32 bytes, and an atomic on one aligned sector (R242). -/
def frameLegal (f : Frame) : Bool :=
  let beats := (f.addr % 32 + frameSize f + 31) / 32
  1 ≤ frameSize f && beats ≤ 8 &&
    (match f.req with
     | .atomic ctl => f.addr % 32 == 0 && f.data.length == atLen ctl && atOp ctl < 8
     | _ => true)

/-- Whether the tag of a frame verifies under a port's key: the nonce is the epoch and the frame counter, which stays below
2^48 (R343). -/
def Port.tagOk (x : Port) (f : Frame) : Bool :=
  f.ctr < 2 ^ 48 && Config.gcmTag x.rxKey (x.epoch ++ BitVec.ofNat 64 f.ctr) f.addr f.data == f.tag

/-- Whether a frame's atomic comes to the new home of a migrating line before the line's end marker (R261). -/
def frameEarly (f : Frame) (s : State) : Bool :=
  match f.req with
  | .atomic _ => s.awaitsMarker f.addr
  | _ => false

/-- The writes of a frame's access at its home, or at the new home of a moved line (R261, R373). -/
def frameWrites (f : Frame) (s : State) : List Wr :=
  match f.req with
  | .write => homeWrites s f.addr f.data
  | .read _ => []
  | .atomic ctl => wrBytes (forwarded s f.addr) (atomSector ctl (s.mem.bytes (forwarded s f.addr) 32) f.data).1

/-- A frame is delivered: its access performs at the home, unless it names the firmware region or beyond; the ports to the
same peer expect the next one (R372, R373). -/
def Eff.deliver (e : Eff) (p : Fin 48) (f : Frame) : Eff :=
  let e := if 766 * 2 ^ 30 < f.addr + frameSize f then e else e.put (frameWrites f e.st)
  let peer := (e.st.ports.get p).peer
  e.on (fun s => { s with ports := s.ports.map (fun x =>
    if x.peer == peer then { x with rxSeq := f.seq + 1, retry := if x.up then 0 else x.retry } else x) })

/-- LINK_FRAME_RECEIVE (R343, R362, R372, R373): port `port` receives the frame `frame`, having sent `hi` frames of its own
since it received the last one: its counter advances by them, and where it would reach 2^48 the port first exchanges new
keys. A bad CRC is retried, and after eight failed retries the port goes down; a bad tag takes the port down; a frame
received before is not performed again; an atomic waits for the end marker of a line that has migrated there. -/
def execLinkFrameReceive (s : State) : Host.Outcome State Fault Refusal :=
  let p := s.act.port
  let x := s.ports.get p
  match s.act.frame with
  | some f =>
    let e := (Eff.start s).on (fun s => s.modPort p (fun x => { x with txCtr := x.txCtr + s.act.hi }))
    if !x.up || !frameLegal f || 2 ^ 48 ≤ x.txCtr + s.act.hi then stutter s
    else if !f.crcOk then
      done s (if 8 ≤ x.retry then e.portDown p
        else e.on (fun s => s.modPort p (fun x => { x with retry := x.retry + 1 })))
    else if !x.tagOk f then done s (e.portDown p)
    else if f.seq < x.rxSeq then done s (e.on (fun s => s.modPort p (fun x => { x with retry := 0 })))
    else if x.rxSeq < f.seq ∨ !homeFree s f.addr (frameSize f) ∨ frameEarly f s then stutter s
    else done s (e.deliver p f)
  | none => stutter s

/-- PORT_DOWN (R374): port `port` goes down. -/
def execPortDown (s : State) : Host.Outcome State Fault Refusal :=
  let p := s.act.port
  if (s.ports.get p).up then done s ((Eff.start s).portDown p) else stutter s

end Sys2Proof.Machine
end

