-- ==== Sys2Proof/Machine/Dispatch.lean ====
section
/-! DEFINITION. One arm for each instruction: its meaning. -/

namespace Sys2Proof.Machine

/-- The meaning of an instruction. -/
def exec (i : Instr) (s : State) : Host.Outcome State Fault Refusal :=
  match i with
  | .add u g src w => Sys2Proof.Machine.execAdd u g src w s
  | .sub u g src w => Sys2Proof.Machine.execSub u g src w s
  | .mul u g src w => Sys2Proof.Machine.execMul u g src w s
  | .mulh u g src w => Sys2Proof.Machine.execMulh u g src w s
  | .mulhu u g src w => Sys2Proof.Machine.execMulhu u g src w s
  | .div u g src w => Sys2Proof.Machine.execDiv u g src w s
  | .divu u g src w => Sys2Proof.Machine.execDivu u g src w s
  | .rem u g src w => Sys2Proof.Machine.execRem u g src w s
  | .remu u g src w => Sys2Proof.Machine.execRemu u g src w s
  | .and u g src w => Sys2Proof.Machine.execAnd u g src w s
  | .or u g src w => Sys2Proof.Machine.execOr u g src w s
  | .xor u g src w => Sys2Proof.Machine.execXor u g src w s
  | .andn u g src w => Sys2Proof.Machine.execAndn u g src w s
  | .shl u g src w => Sys2Proof.Machine.execShl u g src w s
  | .shr u g src w => Sys2Proof.Machine.execShr u g src w s
  | .sar u g src w => Sys2Proof.Machine.execSar u g src w s
  | .rol u g src w => Sys2Proof.Machine.execRol u g src w s
  | .clz u g src w => Sys2Proof.Machine.execClz u g src w s
  | .ctz u g src w => Sys2Proof.Machine.execCtz u g src w s
  | .popc u g src w => Sys2Proof.Machine.execPopc u g src w s
  | .min u g src w => Sys2Proof.Machine.execMin u g src w s
  | .max u g src w => Sys2Proof.Machine.execMax u g src w s
  | .minu u g src w => Sys2Proof.Machine.execMinu u g src w s
  | .maxu u g src w => Sys2Proof.Machine.execMaxu u g src w s
  | .cmpeq u g src w => Sys2Proof.Machine.execCmpeq u g src w s
  | .cmpne u g src w => Sys2Proof.Machine.execCmpne u g src w s
  | .cmplt u g src w => Sys2Proof.Machine.execCmplt u g src w s
  | .cmpltu u g src w => Sys2Proof.Machine.execCmpltu u g src w s
  | .cmple u g src w => Sys2Proof.Machine.execCmple u g src w s
  | .cmpleu u g src w => Sys2Proof.Machine.execCmpleu u g src w s
  | .sel u g src => Sys2Proof.Machine.execSel u g src s
  | .extb u g src w => Sys2Proof.Machine.execExtb u g src w s
  | .insb u g src w => Sys2Proof.Machine.execInsb u g src w s
  | .sext u g src => Sys2Proof.Machine.execSext u g src s
  | .zext u g src => Sys2Proof.Machine.execZext u g src s
  | .mov u g src w => Sys2Proof.Machine.execMov u g src w s
  | .lea u g src => Sys2Proof.Machine.execLea u g src s
  | .bswap u g src w => Sys2Proof.Machine.execBswap u g src w s
  | .vadd u g src ty => Sys2Proof.Machine.execVadd u g src ty s
  | .vsub u g src ty => Sys2Proof.Machine.execVsub u g src ty s
  | .vmul u g src ty => Sys2Proof.Machine.execVmul u g src ty s
  | .vfma u g src ty => Sys2Proof.Machine.execVfma u g src ty s
  | .vfms u g src ty => Sys2Proof.Machine.execVfms u g src ty s
  | .vnfma u g src ty => Sys2Proof.Machine.execVnfma u g src ty s
  | .vmin u g src ty => Sys2Proof.Machine.execVmin u g src ty s
  | .vmax u g src ty => Sys2Proof.Machine.execVmax u g src ty s
  | .vabs u g src ty => Sys2Proof.Machine.execVabs u g src ty s
  | .vneg u g src ty => Sys2Proof.Machine.execVneg u g src ty s
  | .vcmpeq u g src ty => Sys2Proof.Machine.execVcmpeq u g src ty s
  | .vcmplt u g src ty => Sys2Proof.Machine.execVcmplt u g src ty s
  | .vcmple u g src ty => Sys2Proof.Machine.execVcmple u g src ty s
  | .vcmpun u g src ty => Sys2Proof.Machine.execVcmpun u g src ty s
  | .vand u g src ty => Sys2Proof.Machine.execVand u g src ty s
  | .vor u g src ty => Sys2Proof.Machine.execVor u g src ty s
  | .vxor u g src ty => Sys2Proof.Machine.execVxor u g src ty s
  | .vshl u g src ty => Sys2Proof.Machine.execVshl u g src ty s
  | .vshr u g src ty => Sys2Proof.Machine.execVshr u g src ty s
  | .vsar u g src ty => Sys2Proof.Machine.execVsar u g src ty s
  | .vsel u g src ty => Sys2Proof.Machine.execVsel u g src ty s
  | .vbcast u g src ty => Sys2Proof.Machine.execVbcast u g src ty s
  | .vperm u g src ty => Sys2Proof.Machine.execVperm u g src ty s
  | .vtbl u g src ty => Sys2Proof.Machine.execVtbl u g src ty s
  | .vredadd u g src ty => Sys2Proof.Machine.execVredadd u g src ty s
  | .vredmax u g src ty => Sys2Proof.Machine.execVredmax u g src ty s
  | .vredmin u g src ty => Sys2Proof.Machine.execVredmin u g src ty s
  | .vscan u g src ty => Sys2Proof.Machine.execVscan u g src ty s
  | .vtopk u g src ty => Sys2Proof.Machine.execVtopk u g src ty s
  | .vcvt u g src ty => Sys2Proof.Machine.execVcvt u g src ty s
  | .vmulh u g src ty => Sys2Proof.Machine.execVmulh u g src ty s
  | .vdot2 u g src ty => Sys2Proof.Machine.execVdot2 u g src ty s
  | .vclamp u g src ty => Sys2Proof.Machine.execVclamp u g src ty s
  | .vcntm u g src ty => Sys2Proof.Machine.execVcntm u g src ty s
  | .xrcp g src ty => Sys2Proof.Machine.execXrcp g src ty s
  | .xrsq g src ty => Sys2Proof.Machine.execXrsq g src ty s
  | .xsqrt g src ty => Sys2Proof.Machine.execXsqrt g src ty s
  | .xexp2 g src ty => Sys2Proof.Machine.execXexp2 g src ty s
  | .xlog2 g src ty => Sys2Proof.Machine.execXlog2 g src ty s
  | .xexp g src ty => Sys2Proof.Machine.execXexp g src ty s
  | .xsin g src ty => Sys2Proof.Machine.execXsin g src ty s
  | .xcos g src ty => Sys2Proof.Machine.execXcos g src ty s
  | .xtanh g src ty => Sys2Proof.Machine.execXtanh g src ty s
  | .xsigm g src ty => Sys2Proof.Machine.execXsigm g src ty s
  | .xgelu g src ty => Sys2Proof.Machine.execXgelu g src ty s
  | .xsilu g src ty => Sys2Proof.Machine.execXsilu g src ty s
  | .xdiv g src ty => Sys2Proof.Machine.execXdiv g src ty s
  | .unpk4s g src => Sys2Proof.Machine.execUnpk4s g src s
  | .unpk4z g src => Sys2Proof.Machine.execUnpk4z g src s
  | .unpk6s g src => Sys2Proof.Machine.execUnpk6s g src s
  | .unpk6z g src => Sys2Proof.Machine.execUnpk6z g src s
  | .unpk8s g src => Sys2Proof.Machine.execUnpk8s g src s
  | .unpk8z g src => Sys2Proof.Machine.execUnpk8z g src s
  | .unpke4 g src => Sys2Proof.Machine.execUnpke4 g src s
  | .unpke5 g src => Sys2Proof.Machine.execUnpke5 g src s
  | .unpksn4 g src => Sys2Proof.Machine.execUnpksn4 g src s
  | .bsread g src => Sys2Proof.Machine.execBsread g src s
  | .bsinit g src => Sys2Proof.Machine.execBsinit g src s
  | .unpkix g src => Sys2Proof.Machine.execUnpkix g src s
  | .pack4s g src wrap => Sys2Proof.Machine.execPack4s g src wrap s
  | .pack4z g src wrap => Sys2Proof.Machine.execPack4z g src wrap s
  | .pack6s g src wrap => Sys2Proof.Machine.execPack6s g src wrap s
  | .pack6z g src wrap => Sys2Proof.Machine.execPack6z g src wrap s
  | .pack8s g src wrap => Sys2Proof.Machine.execPack8s g src wrap s
  | .pack8z g src wrap => Sys2Proof.Machine.execPack8z g src wrap s
  | .packe4 g src rm => Sys2Proof.Machine.execPacke4 g src rm s
  | .packe5 g src rm => Sys2Proof.Machine.execPacke5 g src rm s
  | .packb16 g src rm => Sys2Proof.Machine.execPackb16 g src rm s
  | .packh16 g src rm => Sys2Proof.Machine.execPackh16 g src rm s
  | .packix g src wrap => Sys2Proof.Machine.execPackix g src wrap s
  | .ld8s g src a => Sys2Proof.Machine.execLd8s g src a s
  | .ld8z g src a => Sys2Proof.Machine.execLd8z g src a s
  | .ld16s g src a => Sys2Proof.Machine.execLd16s g src a s
  | .ld16z g src a => Sys2Proof.Machine.execLd16z g src a s
  | .ld32s g src a => Sys2Proof.Machine.execLd32s g src a s
  | .ld32z g src a => Sys2Proof.Machine.execLd32z g src a s
  | .ld64 g src a => Sys2Proof.Machine.execLd64 g src a s
  | .st8 g src a => Sys2Proof.Machine.execSt8 g src a s
  | .st16 g src a => Sys2Proof.Machine.execSt16 g src a s
  | .st32 g src a => Sys2Proof.Machine.execSt32 g src a s
  | .st64 g src a => Sys2Proof.Machine.execSt64 g src a s
  | .vld g src a => Sys2Proof.Machine.execVld g src a s
  | .vst g src a => Sys2Proof.Machine.execVst g src a s
  | .vldl g src a => Sys2Proof.Machine.execVldl g src a s
  | .vstl g src a => Sys2Proof.Machine.execVstl g src a s
  | .vgath g src a => Sys2Proof.Machine.execVgath g src a s
  | .vscat g src a => Sys2Proof.Machine.execVscat g src a s
  | .ldx g src a => Sys2Proof.Machine.execLdx g src a s
  | .vldx g src a => Sys2Proof.Machine.execVldx g src a s
  | .stx g src a => Sys2Proof.Machine.execStx g src a s
  | .vstx g src a => Sys2Proof.Machine.execVstx g src a s
  | .amoadd g src a => Sys2Proof.Machine.execAmoadd g src a s
  | .amomin g src a => Sys2Proof.Machine.execAmomin g src a s
  | .amomax g src a => Sys2Proof.Machine.execAmomax g src a s
  | .amoswap g src a => Sys2Proof.Machine.execAmoswap g src a s
  | .amocas g src a => Sys2Proof.Machine.execAmocas g src a s
  | .amofadd g src a => Sys2Proof.Machine.execAmofadd g src a s
  | .drain g src sc => Sys2Proof.Machine.execDrain g src sc s
  | .map g src => Sys2Proof.Machine.execMap g src s
  | .unmap g src => Sys2Proof.Machine.execUnmap g src s
  | .ownset g src => Sys2Proof.Machine.execOwnset g src s
  | .br g src => Sys2Proof.Machine.execBr g src s
  | .brc g src j => Sys2Proof.Machine.execBrc g src j s
  | .brnc g src j => Sys2Proof.Machine.execBrnc g src j s
  | .call g src => Sys2Proof.Machine.execCall g src s
  | .ret g src => Sys2Proof.Machine.execRet g src s
  | .loop g src => Sys2Proof.Machine.execLoop g src s
  | .loopi g src => Sys2Proof.Machine.execLoopi g src s
  | .exit g src => Sys2Proof.Machine.execExit g src s
  | .wait g src => Sys2Proof.Machine.execWait g src s
  | .csrrd g src => Sys2Proof.Machine.execCsrrd g src s
  | .csrwr g src => Sys2Proof.Machine.execCsrwr g src s
  | .trap g src => Sys2Proof.Machine.execTrap g src s
  | .qpt g src => Sys2Proof.Machine.execQpt g src s
  | .probe g src => Sys2Proof.Machine.execProbe g src s
  | .spawn g src pri => Sys2Proof.Machine.execSpawn g src pri s
  | .joini g src => Sys2Proof.Machine.execJoini g src s
  | .gbar g src j => Sys2Proof.Machine.execGbar g src j s
  | .tdone g src => Sys2Proof.Machine.execTdone g src s
  | .twaitb g src => Sys2Proof.Machine.execTwaitb g src s
  | .eret g src => Sys2Proof.Machine.execEret g src s
  | .halt g src => Sys2Proof.Machine.execHalt g src s
  | .mma g src sp h => Sys2Proof.Machine.execMma g src sp h s
  | .mzero g src h => Sys2Proof.Machine.execMzero g src h s
  | .mdrain g src h => Sys2Proof.Machine.execMdrain g src h s
  | .mload g src h => Sys2Proof.Machine.execMload g src h s
  | .msetq g src => Sys2Proof.Machine.execMsetq g src s
  | .msetd g src => Sys2Proof.Machine.execMsetd g src s
  | .mcfg g src => Sys2Proof.Machine.execMcfg g src s
  | .cpy g src => Sys2Proof.Machine.execCpy g src s
  | .cpy2d g src => Sys2Proof.Machine.execCpy2d g src s
  | .cpy3d g src => Sys2Proof.Machine.execCpy3d g src s
  | .fill g src => Sys2Proof.Machine.execFill g src s
  | .cpst g src => Sys2Proof.Machine.execCpst g src s
  | .atom g src => Sys2Proof.Machine.execAtom g src s
  | .atomnr g src => Sys2Proof.Machine.execAtomnr g src s
  | .afence g src => Sys2Proof.Machine.execAfence g src s
  | .gathr g src => Sys2Proof.Machine.execGathr g src s
  | .scatr g src => Sys2Proof.Machine.execScatr g src s
  | .binput g src => Sys2Proof.Machine.execBinput g src s
  | .binflush g src => Sys2Proof.Machine.execBinflush g src s
  | .binplay g src => Sys2Proof.Machine.execBinplay g src s
  | .fqcnt g src => Sys2Proof.Machine.execFqcnt g src s
  | .tdecl g src => Sys2Proof.Machine.execTdecl g src s
  | .tld g src => Sys2Proof.Machine.execTld g src s
  | .tst g src => Sys2Proof.Machine.execTst g src s
  | .tadd g src => Sys2Proof.Machine.execTadd g src s
  | .tscan g src => Sys2Proof.Machine.execTscan g src s
  | .tnext g src => Sys2Proof.Machine.execTnext g src s
  | .tclose g src => Sys2Proof.Machine.execTclose g src s
  | .tdense g src => Sys2Proof.Machine.execTdense g src s
  | .tcount g src => Sys2Proof.Machine.execTcount g src s
  | .tpool g src => Sys2Proof.Machine.execTpool g src s
  | .rkon g src => Sys2Proof.Machine.execRkon g src s
  | .rkoff g src => Sys2Proof.Machine.execRkoff g src s
  | .rkldt g src => Sys2Proof.Machine.execRkldt g src s
  | .rkstt g src => Sys2Proof.Machine.execRkstt g src s
  | .rkkey g src => Sys2Proof.Machine.execRkkey g src s
  | .rkcmp g src => Sys2Proof.Machine.execRkcmp g src s
  | .rkwr g src => Sys2Proof.Machine.execRkwr g src s
  | .rktt g src => Sys2Proof.Machine.execRktt g src s
  | .rkcnt g src => Sys2Proof.Machine.execRkcnt g src s
  | .rkfind g src => Sys2Proof.Machine.execRkfind g src s
  | .rkmapi g src => Sys2Proof.Machine.execRkmapi g src s
  | .wset g src n => Sys2Proof.Machine.execWset g src n s
  | .wrel g src n => Sys2Proof.Machine.execWrel g src n s
  | .wstat g src n => Sys2Proof.Machine.execWstat g src n s
  | .wskip g src n => Sys2Proof.Machine.execWskip g src n s
  | .kld g src => Sys2Proof.Machine.execKld g src s
  | .kst g src => Sys2Proof.Machine.execKst g src s
  | .kmap g src f => Sys2Proof.Machine.execKmap g src f s
  | .kpair g src o => Sys2Proof.Machine.execKpair g src o s
  | .kcmp g src => Sys2Proof.Machine.execKcmp g src s
  | .ksort g src => Sys2Proof.Machine.execKsort g src s
  | .reclu g src m => Sys2Proof.Machine.execReclu g src m s
  | .kremap g src => Sys2Proof.Machine.execKremap g src s
  | .kget g src => Sys2Proof.Machine.execKget g src s
  | .kset g src => Sys2Proof.Machine.execKset g src s
  | .kcnt g src => Sys2Proof.Machine.execKcnt g src s
  | .kxld g src => Sys2Proof.Machine.execKxld g src s
  | .kxst g src => Sys2Proof.Machine.execKxst g src s
  | .kfmt g src => Sys2Proof.Machine.execKfmt g src s
  | .bundleIssue moves => Sys2Proof.Machine.execBundleIssue moves s
  | .contextSwitch => Sys2Proof.Machine.execContextSwitch s
  | .resultVisible => Sys2Proof.Machine.execResultVisible s
  | .transferEffect => Sys2Proof.Machine.execTransferEffect s
  | .loopStateCommit => Sys2Proof.Machine.execLoopStateCommit s
  | .instructionFetch => Sys2Proof.Machine.execInstructionFetch s
  | .fixedStorePerform => Sys2Proof.Machine.execFixedStorePerform s
  | .scoreboardedAccessPerform => Sys2Proof.Machine.execScoreboardedAccessPerform s
  | .amoPerform => Sys2Proof.Machine.execAmoPerform s
  | .windowFill => Sys2Proof.Machine.execWindowFill s
  | .mapApply => Sys2Proof.Machine.execMapApply s
  | .ownsetApply => Sys2Proof.Machine.execOwnsetApply s
  | .unmapComplete => Sys2Proof.Machine.execUnmapComplete s
  | .drainComplete => Sys2Proof.Machine.execDrainComplete s
  | .randomWordGenerate => Sys2Proof.Machine.execRandomWordGenerate s
  | .kbOperationStart => Sys2Proof.Machine.execKbOperationStart s
  | .kbOperationComplete => Sys2Proof.Machine.execKbOperationComplete s
  | .streamCapture => Sys2Proof.Machine.execStreamCapture s
  | .streamVectorProduce => Sys2Proof.Machine.execStreamVectorProduce s
  | .mxOperationStart => Sys2Proof.Machine.execMxOperationStart s
  | .tileLineArrival => Sys2Proof.Machine.execTileLineArrival s
  | .mmaChunk => Sys2Proof.Machine.execMmaChunk s
  | .mxOperationComplete => Sys2Proof.Machine.execMxOperationComplete s
  | .copyDispatch => Sys2Proof.Machine.execCopyDispatch s
  | .copyItem => Sys2Proof.Machine.execCopyItem s
  | .gondolaSteal => Sys2Proof.Machine.execGondolaSteal s
  | .engineCommandComplete => Sys2Proof.Machine.execEngineCommandComplete s
  | .cpstPerform => Sys2Proof.Machine.execCpstPerform s
  | .atomicAccept => Sys2Proof.Machine.execAtomicAccept s
  | .atomicPerform => Sys2Proof.Machine.execAtomicPerform s
  | .nearAtomicPerform => Sys2Proof.Machine.execNearAtomicPerform s
  | .lineMove => Sys2Proof.Machine.execLineMove s
  | .accessForward => Sys2Proof.Machine.execAccessForward s
  | .endMarker => Sys2Proof.Machine.execEndMarker s
  | .indexBatch => Sys2Proof.Machine.execIndexBatch s
  | .faultQueueReplay => Sys2Proof.Machine.execFaultQueueReplay s
  | .priResponse => Sys2Proof.Machine.execPriResponse s
  | .atsTranslationReply => Sys2Proof.Machine.execAtsTranslationReply s
  | .binRecordPlace => Sys2Proof.Machine.execBinRecordPlace s
  | .binPlay => Sys2Proof.Machine.execBinPlay s
  | .treeUnitOperation => Sys2Proof.Machine.execTreeUnitOperation s
  | .rkonAdmit => Sys2Proof.Machine.execRkonAdmit s
  | .rkonSliceSwitch => Sys2Proof.Machine.execRkonSliceSwitch s
  | .rinkSetAdmit => Sys2Proof.Machine.execRinkSetAdmit s
  | .postQueuePerform => Sys2Proof.Machine.execPostQueuePerform s
  | .contextEnd => Sys2Proof.Machine.execContextEnd s
  | .joinStep => Sys2Proof.Machine.execJoinStep s
  | .liftPop => Sys2Proof.Machine.execLiftPop s
  | .powerGate => Sys2Proof.Machine.execPowerGate s
  | .coreWake => Sys2Proof.Machine.execCoreWake s
  | .groupArrival => Sys2Proof.Machine.execGroupArrival s
  | .twaitbWake => Sys2Proof.Machine.execTwaitbWake s
  | .launchWrite => Sys2Proof.Machine.execLaunchWrite s
  | .launchClear => Sys2Proof.Machine.execLaunchClear s
  | .invalidationRequest => Sys2Proof.Machine.execInvalidationRequest s
  | .invalidationAck => Sys2Proof.Machine.execInvalidationAck s
  | .invalidationComplete => Sys2Proof.Machine.execInvalidationComplete s
  | .invalidationWatchdog => Sys2Proof.Machine.execInvalidationWatchdog s
  | .trapTake => Sys2Proof.Machine.execTrapTake s
  | .preemptRequest => Sys2Proof.Machine.execPreemptRequest s
  | .contextSave => Sys2Proof.Machine.execContextSave s
  | .haltedCommandComplete => Sys2Proof.Machine.execHaltedCommandComplete s
  | .contextResume => Sys2Proof.Machine.execContextResume s
  | .assistService => Sys2Proof.Machine.execAssistService s
  | .faultDetect => Sys2Proof.Machine.execFaultDetect s
  | .patrolScrub => Sys2Proof.Machine.execPatrolScrub s
  | .secureBoot => Sys2Proof.Machine.execSecureBoot s
  | .portTrain => Sys2Proof.Machine.execPortTrain s
  | .portRekey => Sys2Proof.Machine.execPortRekey s
  | .linkFrameReceive => Sys2Proof.Machine.execLinkFrameReceive s
  | .portDown => Sys2Proof.Machine.execPortDown s
  | .powerCapTick => Sys2Proof.Machine.execPowerCapTick s
  | .hostBarAccess => Sys2Proof.Machine.execHostBarAccess s
  | .tlogbWrite => Sys2Proof.Machine.execTlogbWrite s
  | .registerWrite => Sys2Proof.Machine.execRegisterWrite s
  | .localinit => Sys2Proof.Machine.execLocalinit s
  | .attest => Sys2Proof.Machine.execAttest s
  | .certs => Sys2Proof.Machine.execCerts s
  | .fwload => Sys2Proof.Machine.execFwload s
  | .svnset => Sys2Proof.Machine.execSvnset s
  | .migrate => Sys2Proof.Machine.execMigrate s
  | .devnum => Sys2Proof.Machine.execDevnum s
  | .powerLoss => Sys2Proof.Machine.execPowerLoss s

end Sys2Proof.Machine
end

