-- ==== Sys2Proof/Machine/Step.lean ====
section
/-! DEFINITION. One step of the device: the next entry of the schedule, or a free choice where it is empty
(log entry 5). A core issues the bundle at the program counter of its running context, or a part or the host acts. -/

namespace Sys2Proof.Machine

/-- Core `n` issues: the bundle at its running context's program counter runs; or a trap is taken, or a sector of the
bundle is fetched. A core that is gated, or whose running context cannot issue, does nothing; nor does a core whose
running context has blocked while another can issue, until CONTEXT_SWITCH makes that one running (R300). -/
def issueStep (n : Fin 4112) (s : State) : Host.Outcome State Fault Refusal :=
  let k := s.core n
  let cid : Cid := ⟨n, k.running⟩
  let c := s.ctx cid
  if k.gated ∨ c.st ≠ .live ∨ c.ended ∨ mustSwitch s n then stutter s
  else
    match fetched s cid c.nextPc with
    | .run i len => exec i { s.unstall n with cur := cid, ir := len }
    | .trap cause => done s (issueFailed cid cause s)
    | .fetch a => done s (issueFetch cid a s)

/-- Run one entry of the schedule. A part's entry names a step of a part, never a bundle. -/
def runSched (x : Sched) (s : State) : Host.Outcome State Fault Refusal :=
  match x with
  | .issue n => issueStep n s
  | .ev i a => if (movesOfInstr i).isNone then exec i { s with act := a } else stutter s

/-- One step of the device. The counter of free values and choices advances with each (log entry 5). -/
def step (s : State) : Host.Outcome State Fault Refusal :=
  match s.sched with
  | x :: r => runSched x { s with sched := r, tick := s.tick + 1 }
  | [] => runSched (Config.next s.tick) { s with tick := s.tick + 1 }

/-- The state in which the next step fetches and runs a table word as the one move of a bundle (log entry 2). -/
def State.withFetchWord (s : State) (nbits w : Nat) : State := placeBytes s (wordBytes nbits w)

end Sys2Proof.Machine
end

