-- ==== Sys2Proof/Safety.lean ====
section
/-! DEFINITION. The terms in which claims about runs are stated: what a safe run keeps, when a context stands ready to
issue a bundle of one move, what that bundle reads, and the state that it leaves. -/

namespace Sys2Proof.Machine

/-! ### What every step keeps -/

/-- The invariant of the model: memory has its canonical form. -/
def State.Inv (s : State) : Prop := s.mem.wf = true

/-- A run of `n` steps that stops at no fault and no refusal. -/
def runs : Nat → State → State → Prop
  | 0, s, t => s = t
  | n + 1, s, t => ∃ u, step s = .next u ∧ runs n u t

/-! ### A bundle of one move -/

/-- The device at the bundle boundary of the context that issues, once everything due there has happened: stores have
performed, results have become visible, loop state and transfers have taken effect (R34, R39, R72, R89). -/
def boundaryEff (s : State) : Eff := (Eff.start s).settle s.cur

/-- The same as a state. -/
def State.boundaryState (s : State) : State := (boundaryEff s).st

/-- The issuing context at that boundary. -/
def State.issuer (s : State) : Ctx := s.boundaryState.ctx s.cur

/-- The context `cur` stands ready to issue a bundle of one move: it is live, no trap or pre-emption is due, the guard is
known and true, the source has landed, and fewer than 16 results are not yet visible (R28, R35, R159, R183, R348, R353). -/
structure Ready (s : State) (g : Guard) (src : Src) : Prop where
  live  : (s.ctx s.cur).st = .live
  going : (s.ctx s.cur).ended = false
  calm  : (s.issuer.due = [] ∧ s.issuer.preempt = false)
  known : s.issuer.guardPending g = false
  holds : s.issuer.guard g = true
  ready : s.issuer.sourceWaits src = false
  reclu : (src == .latR 13 && s.boundaryState.recluOut s.cur) = false
  fills : s.issuer.popMiss src = none
  room  : s.issuer.pend.length < 16

/-- No operation that the context has observed complete by a WAIT is outstanding, so that an access or a command may be
triggered (R229). -/
def State.unfenced (s : State) : Prop := s.boundaryState.fenced s.cur = false

/-- What the operation of unit `u` reads in that bundle (R33): the state at the boundary, the source's value, and the
unit's operand latches. -/
def State.reads (s : State) (u : Fin 15) (src : Src) : In :=
  let l := s.issuer.latch u
  { cid := s.cur, s := s.boundaryState, b := s.issuer.source src, o1 := l.o1, o2 := l.o2, o3 := l.o3,
    rnd := s.issuer.rndWord }

/-- The issuing context once the bundle's move has been taken and its program counter has passed the bundle (R26, R33);
`rnd` says that the trigger pops a random word too (R58). -/
def State.moved (s : State) (src : Src) (rnd : Bool) : Ctx :=
  let c := s.issuer.countDown.sourceTake src
  let c := if rnd then c.rndTake else c
  { c with pc := s.issuer.pc + BitVec.ofNat 64 s.ir, lastSeq := s.issuer.seq, blocked := false, quiet := false }

/-- The state that the bundle leaves where its operation changes the device by `f`, beside the memory that stores due at
the boundary have written: after the operation come the flag of a pop (R83, R183), and the MAPs and OWNSETs whose bundle
g + 3 this is (R98, R99). -/
def State.afterMove (s : State) (src : Src) (rnd : Bool) (f : State → State) : State :=
  commit s ((boundaryEff s).on (fun t =>
    ((f (t.setCtx s.cur (s.moved src rnd))).modCtx s.cur (fun c => c.flag (s.issuer.popFlag src))).applyDue s.cur))

/-- The same where the operation changes its own context alone. -/
def State.afterCtx (s : State) (src : Src) (rnd : Bool) (f : Ctx → Ctx) : State :=
  s.afterMove src rnd (fun t => t.modCtx s.cur f)

/-- The same where the operation leaves a result of unit `u` that becomes visible after `lat` bundles (R34). -/
def State.afterResult (s : State) (src : Src) (rnd : Bool) (u : Fin 15) (lat : Nat) (r q : Option Val) (fl : BitVec 9) :
    State :=
  s.afterCtx src rnd (fun c => c.result u lat r q fl)

/-- A bundle waits: no move takes effect, and the context's own stores perform (R35, R89). -/
def State.waiting (s : State) : State := commit s ((boundaryEff s).block s.cur [])

/-- A trap that the bundle takes at its boundary instead of issuing (R347). -/
def State.trapped (s : State) (cause : Nat) (arg : Word) : State := commit s ((boundaryEff s).takeTrap s.cur cause arg)

/-- A trap that an operation of the bundle raises as it issues (R347): no move takes effect. -/
def State.trapsAt (s : State) (cause : Nat) (arg : Word) : Host.Outcome State Fault Refusal :=
  .next (commit s (((boundaryEff s).ctx s.cur Ctx.forgetMiss).takeTrap s.cur cause arg))

/-! ### Lanes and what is rounded (R105, R114 to R116, R129, R130) -/

/-- The real that an exact value with no part left over stands for. -/
noncomputable def realOf (neg : Bool) (q : Nat) (e : Int) : ℝ := (if neg then -1 else 1) * ((q : ℝ) * 2 ^ e)

/-- Whether a fraction `d` above `k` units rounds up in a mode, for a negative or a positive value (R114). -/
def upward (m : RMode) (neg : Bool) (k : Nat) (d : ℝ) : Prop :=
  match m with
  | .rtz => False
  | .rup => 0 < d ∧ neg = false
  | .rdn => 0 < d ∧ neg = true
  | .sr rb => rb < ⌊d * 65536⌋₊
  | _ => 1 / 2 < d ∨ (d = 1 / 2 ∧ k % 2 = 1)

/-- `x` is RoundTo of the value of magnitude `a` > 0 and sign `neg` to format `f` in mode `m` (R114), with its flags (R115,
R116) and whether it is subnormal. -/
def RoundsAs (f : Fmt) (m : RMode) (neg : Bool) (a : ℝ) (x : Rounded) : Prop :=
  let e := max (Int.log 2 a) f.emin
  let u : ℝ := 2 ^ (e - f.fbits)
  let k := ⌊a / u⌋₊
  let big : ℝ := (2 - 2 ^ (-(f.fbits : ℤ))) * 2 ^ (2 ^ f.ebits - 2 - f.bias : ℤ)
  let largest : ℝ := if f = .e4m3 then 448 else big
  ∃ i : Nat, (i = 1 ↔ upward m neg k (a / u - k)) ∧ i ≤ 1 ∧
    let y : ℝ := (k + i : Nat) * u
    (largest < y → x = overflow f neg true m) ∧
    (y ≤ largest →
      x.pat < 2 ^ f.width ∧ (∃ q d, f.value x.pat = .fin neg q d false ∧ (q : ℝ) * 2 ^ d = y) ∧
      (y = a → x.fl = 0) ∧ (y ≠ a → 2 ^ f.emin ≤ a → x.fl = flNX) ∧ (y ≠ a → a < 2 ^ f.emin → x.fl = flNX ||| flUF) ∧
      (x.sub = true ↔ 0 < y ∧ y < 2 ^ f.emin))

/-- A result of plain lanes of width `w`: no flag and no assist. -/
def VOut.holds (o : VOut) (w : Nat) (f : Nat → Nat) : Prop :=
  o.fl = 0 ∧ o.sub = false ∧ ∃ r, o.r = some r ∧ ∀ k, k < 1024 / w → laneOf w r.toNat k = f k

/-- A result of rounded lanes of width `w`: the lanes, every lane's flags together, and the assist where a lane asks for
it. -/
def VOut.rounds (o : VOut) (w : Nat) (f : Nat → Rounded) : Prop :=
  (∃ r, o.r = some r ∧ ∀ k, k < 1024 / w → laneOf w r.toNat k = (f k).pat) ∧
    o.fl = (List.range (1024 / w)).foldl (fun a k => a ||| (f k).fl) 0 ∧
    o.sub = (List.range (1024 / w)).any (fun k => (f k).sub)

/-- Element `e` of width `w` of a 1024-bit value; zero beyond the last whole element (R109, R143). -/
def elementAt (w : Nat) (x : Vec) (e : Nat) : Nat := if (e + 1) * w ≤ 1024 then laneOf w x.toNat e else 0

/-! ### Codebooks (R152, R153, R169) -/

/-- A k-register holds some entries under a tag, zeros beyond them, and the sorted flag of R153: 1 exactly where it has an
entry, no NaN, and strictly rising values. -/
def KReg.holds (k : KReg) (tag : KTag) (l : List Nat) : Prop :=
  k.tag = tag ∧ k.n = l.length ∧ k.entries = l ∧
    (∀ i, l.length ≤ i → i < tag.cap → laneOf tag.fmt.width k.st.toNat i = 0) ∧
    (k.sorted = true ↔ l ≠ [] ∧ (∀ x ∈ l, (tag.fmt.value x).isNaN = false) ∧
      ∀ (i : Nat) (h : i + 1 < l.length), (tag.fmt.value (l[i]'(by omega))).lt (tag.fmt.value l[i + 1]) = true)

/-- `l` are the clusters of the greedy scan of R169 over some numbers, in rising order: each runs from a member to a member
and is no wider than twice the bound, every member lies in one, and a cluster's first member lies further above that of the
cluster before it. -/
def Clusters (fin : List Int) (e : Option Int) (l : List (Int × Int)) : Prop :=
  (∀ c ∈ l, c.1 ∈ fin ∧ c.2 ∈ fin ∧ c.1 ≤ c.2 ∧ ∀ b, e = some b → c.2 - c.1 ≤ 2 * b) ∧
  (∀ v ∈ fin, ∃ c ∈ l, c.1 ≤ v ∧ v ≤ c.2) ∧
  (∀ i c d, l[i]? = some c → l[i + 1]? = some d → c.2 < d.1 ∧ ∃ b, e = some b ∧ 2 * b < d.1 - c.1)

end Sys2Proof.Machine
end

