-- ==== Sys2Proof/Certificates/Slice0/Obligations.lean ====
section
/-! DEFINITION. The statements about the model, for the provers. Each docstring says what its statement claims and the
rules of spec/ that it rests on. -/

open Sys2Proof Sys2Proof.Machine

/-- Decoding the encoding of a bundle gives the bundle back (R24, R25, R28, R29, R30, R31, R36, R37, R43, R53).
For every well-formed instruction that is a bundle (a trigger alone, or a bundle of any moves), with every operand at
every value that the encoding admits, and whatever bytes follow, the decoder reads from its encoding that instruction
and the encoding's length. -/
def Obligations.BundleRoundTrip : Prop :=
  ∀ (i : Instr) (rest : List Byte), i.wf = true → (movesOfInstr i).isSome = true →
    decode (encode i ++ rest) = .ok (i, (encode i).length)

/-- Bundles that the spec writes out decode to the instructions it names (R24, R28, R29, R30, R41, R54, R60).
The bytes that the spec works out for SUB.I32, BRC with a long and with a short immediate, SPAWN, PROBE, QPT and ERET
decode to those instructions with those operands, and to their lengths. -/
def Obligations.WrittenWordsDecode : Prop :=
  decode [0x02, 0x02, 0x03, 0x1D, 0x00] = .ok (.sub 1 .always (.s 7) true, 5) ∧
  decode [0x80, 0x06, 0x05, 0xE1, 0xB7, 0x00, 0x40, 0x00] = .ok (.brc (.c 2) (.l0 0x4000) 1, 8) ∧
  decode [0x80, 0x02, 0x05, 0x01, 0xB9] = .ok (.brc (.c 2) (.imm 0x40) 1, 5) ∧
  decode [0x80, 0x02, 0x3A, 0x1D, 0x00] = .ok (.spawn .always (.s 7) 2, 5) ∧
  decode [0x80, 0x02, 0x34, 0x31, 0x00] = .ok (.probe .always (.s 12), 5) ∧
  decode [0x80, 0x02, 0x30, 0x01, 0x08] = .ok (.qpt .always (.imm 0), 5) ∧
  decode [0x80, 0x02, 0x4C, 0x15, 0x00] = .ok (.eret .always (.s 5), 5)

/-- Headers with reserved bits, empty masks and broken packet chains are no bundles (R24, R25, R38).
A header whose reserved bits are not zero, a header of MASK 0 other than 0x0200, a bank-1 packet that does not stop
and, with all its words at hand, a bank-0 packet that does not stop and is followed by one of bank 0 or by one of bank
1 that does not stop, are refused by name. No bundle that any bytes hold has a move on bus 15 that is a trigger, and
bytes that hold no bundle are refused. -/
def Obligations.ReservedHeadersRefused : Prop :=
  (∀ (b0 b1 : Byte) (rest : List Byte), 16 ≤ b1.toNat → decode (b0 :: b1 :: rest) = .error .header) ∧
  (∀ (b1 : Byte) (rest : List Byte), b1.toNat < 16 → b1 ≠ 2 → decode (0 :: b1 :: rest) = .error .mask) ∧
  (∀ (rest : List Byte), decode (0 :: 2 :: rest) = .ok (.bundleIssue [], 2)) ∧
  (∀ (bs rest : List Byte) (ms : List Move), packetOf bs = .ok (1, false, ms, rest) → decode bs = .error .bank) ∧
  (∀ (bs r1 r2 : List Byte) (stop : Bool) (m1 m2 : List Move), packetOf bs = .ok (0, false, m1, r1) →
    packetOf r1 = .ok (0, stop, m2, r2) → decode bs = .error .bank) ∧
  (∀ (bs r1 r2 : List Byte) (m1 m2 : List Move), packetOf bs = .ok (0, false, m1, r1) →
    packetOf r1 = .ok (1, false, m2, r2) → decode bs = .error .bank) ∧
  (∀ (t : Nat) (g : Guard) (src : Src), trigOn 15 t g src = none) ∧
  (∀ (bs : List Byte) (ms : List Move) (n : Nat), bundleOf bs = .ok (ms, n) → ∀ m ∈ ms, m.bus = 15 → ∀ t, m.dst ≠ .trig t) ∧
  (∀ bs : List Byte, (∀ x, bundleOf bs ≠ .ok x) → ∀ x, decode bs ≠ .ok x)

/-- A step runs the instruction that the bytes at the program counter decode to (R26, R27, R33, R300).
Where the schedule names a core that is not gated, whose running context is live and has not ended, and where no other
context must run first: if the instruction cache holds the bytes of the bundle at the context's next program counter,
that counter is canonical, no acknowledged invalidation that is not complete names the bundle's page, and the bytes
decode to an instruction, the step is exec of it, with the context as the one that issues and the bundle's length as
what the program counter will pass; a core that had stalled has not then. A step of another part is exec of its own
instruction with what the part is given. The counter of the model's free values advances by one. -/
def Obligations.StepRunsDecoded : Prop :=
  (∀ (s : State) (n : Fin 4112) (r : List Sched) (bs : List Byte) (i : Instr) (len : Nat),
    let cid : Cid := ⟨n, (s.core n).running⟩
    s.sched = .issue n :: r → (s.core n).gated = false → (s.ctx cid).st = .live → (s.ctx cid).ended = false →
    mustSwitch { s with sched := r, tick := s.tick + 1 } n = false → canonical (s.ctx cid).nextPc = true →
    bundleAt (s.core n).icache (s.ctx cid).nextPc = .inl bs → rangeHeld s (s.ctx cid) (s.ctx cid).nextPc bs.length = false →
    decode bs = .ok (i, len) →
    step s = exec i { ({ s with sched := r, tick := s.tick + 1 } : State).unstall n with cur := cid, ir := len }) ∧
  (∀ (s : State) (i : Instr) (a : Act) (r : List Sched),
    s.sched = .ev i a :: r → movesOfInstr i = none → step s = exec i { s with sched := r, tick := s.tick + 1, act := a })

/-- Bytes that are no legal bundle raise ILLEG, a program counter that is not canonical ADDRCLASS, an absent page FATAL_UNPROBED (R27, R38, R347).
Under the same conditions, with no trap or pre-emption due at the boundary: if the bytes at the context's next program
counter are refused by the decoder, the step takes ILLEG with the program counter as its argument and performs no
move; if the program counter is not canonical, it takes ADDRCLASS, whatever the instruction cache holds; if the cache
lacks a byte of the bundle whose page the host has reported as not present, it takes FATAL_UNPROBED. The program
counter is the argument of each. That all the bytes that a bundle's headers name are wanted before any of it is
decoded is the model's choice (log entry 61). -/
def Obligations.IllegalBytesTrap : Prop :=
  ∀ (s : State) (n : Fin 4112) (r : List Sched),
    let cid : Cid := ⟨n, (s.core n).running⟩
    let u : State := { s with sched := r, tick := s.tick + 1 }
    let b := (Eff.start u).settle cid
    s.sched = .issue n :: r → (s.core n).gated = false → (s.ctx cid).st = .live → (s.ctx cid).ended = false →
    mustSwitch u n = false → (b.st.ctx cid).due = [] → (b.st.ctx cid).preempt = false →
    (∀ bs : List Byte, bundleAt (s.core n).icache (s.ctx cid).nextPc = .inl bs → canonical (s.ctx cid).nextPc = true →
      rangeHeld s (s.ctx cid) (s.ctx cid).nextPc bs.length = false → (∀ x, decode bs ≠ .ok x) →
      step s = .next (commit u (b.takeTrap cid 1 (b.st.ctx cid).pc))) ∧
    (canonical (s.ctx cid).nextPc = false →
      step s = .next (commit u (b.takeTrap cid 3 (b.st.ctx cid).pc))) ∧
    (∀ a : Word, bundleAt (s.core n).icache (s.ctx cid).nextPc = .inr a → canonical (s.ctx cid).nextPc = true →
      rangeHeld s (s.ctx cid) (s.ctx cid).nextPc ((a - (s.ctx cid).nextPc).toNat + 1) = false → canonical a = true →
      translateX s (clusterOf n) (s.ctx cid).pasid (sectorOf a) = .absent →
      step s = .next (commit u (b.takeTrap cid 6 (b.st.ctx cid).pc)))

/-- Every step keeps memory in its canonical form (R14, R18, R240).
From every state whose memory lists its cells at strictly rising keys and no cell that reads as an unlisted one does,
a step that answers a next state leaves such a memory. -/
def Obligations.StepKeepsMemory : Prop :=
  ∀ s t : State, s.Inv → step s = .next t → t.Inv

/-- Memory has its canonical form at reset (R342, R344).
The memory of the state after reset has the canonical form that every step keeps. -/
def Obligations.ResetKeepsMemory : Prop := State.reset.Inv

/-- What reset leaves (R13, R97, R303, R342, R344, R366, R373).
After reset no launch runs and no context is in one; LPASID, TLOGB, TLOGW, MBREQ, MBSTAT, LAUNCH's STATE and the
completion record read 0; no granule is in state E, no command, rink set, lift record or page request exists; every
port is down and the device number is 0. (That memory reads 0 and that the program counter of a context no launch has
started is 0 are the model's choices, log entries 3 and 4; nothing is said of them here.) -/
def Obligations.ResetState : Prop :=
  let s := State.reset
  (∀ cid, (s.ctx cid).st = .out) ∧ (∀ g, s.engineOwns g = false) ∧
  (∀ off ∈ [0x008, 0x010, 0x018, 0x020, 0x040, 0x048, 0x080, 0x090, 0x0C0], hostReg s off = 0) ∧
  s.cmds = [] ∧ s.sets = [] ∧ s.groups = [] ∧ s.pri = [] ∧ s.invals = [] ∧ s.migrs = [] ∧
  s.rings.all List.isEmpty = true ∧ (∀ p : Fin 48, (s.ports.get p).up = false) ∧ s.devnum = 0

/-- A number written to memory reads back, and every other byte keeps its value (R1).
In memory of canonical form, where n bytes of a number are laid from a key upward, least significant first, those n
bytes read back as the number, each of them is its own digit of base 256, and every byte outside them reads as before. -/
def Obligations.MemoryReadsBack : Prop :=
  ∀ (m : Mem) (k n x : Nat), m.wf = true → x < 256 ^ n →
    let m' := m.applyAll (wrNat k n x)
    m'.nat k n = x ∧ (∀ i, i < n → (m'.get (k + i)).toNat = x / 256 ^ i % 256) ∧
    (∀ a, a < k ∨ k + n ≤ a → m'.get a = m.get a) ∧ m'.wf = true

/-- Every 64-bit address has the class of R15 (R15).
For every address: an offset up to 0x27FFF under 0x80 is own core scratchpad; under 0x81, with bits 55 to 26 zero and
an offset up to 0x27FFF, it is core [25:18]'s scratchpad; under 0x82, with bits 55 to 24 zero, it is the slice of core
[23:16]; an offset up to 0x3FFFFFF under 0x83 is chip scratchpad; it is global exactly where bits 63 to 57 all equal
bit 56; every other address has no class. A local address reaches a memory key without any translation. -/
def Obligations.AddressClasses : Prop :=
  ∀ a : Word,
    let top := a.extractLsb' 56 8
    (top = 0x80 → classify a = if (a.extractLsb' 0 56).toNat ≤ 0x27FFF then .own (a.extractLsb' 0 56).toNat else .bad) ∧
    (top = 0x81 → classify a =
      if a.extractLsb' 26 30 = 0 ∧ (a.extractLsb' 0 18).toNat ≤ 0x27FFF then
        .peer (a.extractLsb' 18 8).toNat (a.extractLsb' 0 18).toNat
      else .bad) ∧
    (top = 0x82 → classify a =
      if a.extractLsb' 24 32 = 0 then .slice (a.extractLsb' 16 8).toNat (a.extractLsb' 0 16).toNat else .bad) ∧
    (top = 0x83 → classify a =
      if (a.extractLsb' 0 56).toNat ≤ 0x3FFFFFF then .chip (a.extractLsb' 0 56).toNat else .bad) ∧
    ((a.extractLsb' 57 7 = 0 ∧ a.getLsbD 56 = false) ∨ (a.extractLsb' 57 7 = 0x7F ∧ a.getLsbD 56 = true) →
      classify a = .glob a.toNat) ∧
    (top ≠ 0x80 → top ≠ 0x81 → top ≠ 0x82 → top ≠ 0x83 →
      ¬ ((a.extractLsb' 57 7 = 0 ∧ a.getLsbD 56 = false) ∨ (a.extractLsb' 57 7 = 0x7F ∧ a.getLsbD 56 = true)) →
      classify a = .bad) ∧
    (∀ (s : State) (n : Fin 4112) (p : BitVec 20) (wr : Bool) (k : Nat), classify a ≠ .glob a.toNat →
      localKey n (classify a) = some k → accessKey s n p a wr = .ok k) ∧
    (∀ (n : Fin 4112), n.val < 4096 → ∀ (off : Nat), classify a = .peer (coreIx n) off →
      localKey n (classify a) = localKey n (.own off))

/-- A bundle reads everything first, its moves then write, its triggers act on what was read, and the lowest bus's trap is taken (R26, R28, R31, R32, R33, R347, R348).
Where the context is live, nothing is due that halts it, every guard is known, no source or destination of a move
whose guard is true is pending, and no such move pops a stream that owes it a vector: BUNDLE_ISSUE of any moves of
legal form, with any number of triggers among them. (1) Where no operation of a true-guarded trigger traps, needs the
assist, is privileged beyond its context, waits or would exceed 16 results not yet visible, and a pending transfer
meets no second one, the bundle answers a next state: the pops of the true-guarded moves have been taken, each of
those moves has written the value that its source had before the bundle, a random word that a trigger pops has been
taken, the program counter has passed the bundle, what was pending has counted down by one bundle; then the operation
of each true-guarded trigger, in the order of the moves, has had its effect, with its trigger value, its unit's
operand latches and the device as they stood before the bundle; then come the flags of the pops and the MAPs and
OWNSETs that are due. A bundle without triggers is the case of no operation. (2) Where one of those operations traps
at issue and none of an earlier move does (the moves of a decoded bundle stand in ascending order of their buses),
that trap is taken and no move has its effect. -/
def Obligations.MovesReadThenWrite : Prop :=
  ∀ (ms : List Move) (s : State),
    let c := s.issuer
    let sl := ms.map slotOf
    let act := sl.filter (fun x => c.guard x.mv.guard)
    let rd (x : Slot) (o : Op) : In :=
      { cid := s.cur, s := s.boundaryState, b := c.source x.mv.src, o1 := (c.latch o.bus).o1, o2 := (c.latch o.bus).o2,
        o3 := (c.latch o.bus).o3, rnd := c.rndWord }
    let ops := act.filterMap (fun x => x.op.map (fun o => (o, rd x o)))
    limitsOk ms = true → dstsOk ms = true → (∀ x ∈ sl, ∀ t, x.mv.dst = .trig t → x.op.isSome = true) →
    (s.ctx s.cur).st = .live → (s.ctx s.cur).ended = false → c.due = [] → c.preempt = false →
    (∀ m ∈ ms, c.guardPending m.guard = false) → (∀ x ∈ act, moveWaits s.boundaryState s.cur x.mv = false) →
    (∀ x ∈ act, c.popMiss x.mv.src = none) →
    (∀ p ∈ ops, (p.1.rnd = true → c.sourceWaits .rnd = false) ∧ (c.xfer = none ∨ p.1.xf p.2 = false) ∧
      (isCsc s.cur = true ∨ p.1.priv = false) ∧ p.1.pv p.2 = false) →
    ((∀ p ∈ ops, p.1.chk p.2 = none ∧ p.1.blk p.2 = false ∧ p.1.asst p.2 = none ∧ p.1.sw p.2 = none ∧
        (p.1.acc = true → s.unfenced ∧ ∀ q ∈ ops, q.1.left q.2 = [])) →
      c.pend.length + (ops.filter (fun p => p.1.res)).length ≤ 16 →
      exec (.bundleIssue ms) s = .next (commit s ((boundaryEff s).on (fun t =>
        let d := act.foldl (fun d x => d.sourceTake x.mv.src) c.countDown
        let d := act.foldl (fun d x => d.dest x.mv.dst (c.source x.mv.src)) d
        let d := if act.any (fun x => match x.op with | some o => o.rnd | none => false) then d.rndTake else d
        let d := { d with pc := c.pc + BitVec.ofNat 64 s.ir, lastSeq := c.seq, blocked := false, quiet := false }
        let u := ops.foldl (fun u p => p.1.eff p.2 u) (t.setCtx s.cur d)
        (u.modCtx s.cur (fun c' => c'.flag (act.foldl (fun f x => f ||| c.popFlag x.mv.src) 0))).applyDue s.cur)))) ∧
    (∀ (l1 l2 : List (Op × In)) (o : Op) (i : In) (cause : Nat) (arg : Word), ops = l1 ++ (o, i) :: l2 →
      (∀ p ∈ l1, p.1.chk p.2 = none) → o.chk i = some (cause, arg) →
      exec (.bundleIssue ms) s = .next (commit s (((boundaryEff s).ctx s.cur Ctx.forgetMiss).takeTrap s.cur cause arg)))

/-- A move copies bits without conversion, cut or filled to the width of its destination (R32).
For every value, 64 or 1024 bits wide, and every destination: s0 reads zero and takes no value, and a move to an s
register changes no other; a 64-bit destination takes bits 63 to 0; a v register takes a 64-bit value in bits 63 to 0
with the rest zero; a predicate takes bit 0; a 1024-bit operand latch holds a 64-bit value as a scalar broadcast, of
which every lane of width w (32 or 16) reads bits w-1 to 0. -/
def Obligations.DestinationsTakeValues : Prop :=
  ∀ (c : Ctx) (x : Word) (y : Vec),
    (∀ v, c.dest (.s 0) v = c) ∧ c.readS 0 = 0 ∧
    (∀ (i j : Fin 64) v, i ≠ j → (c.dest (.s i) v).readS j = c.readS j) ∧
    (∀ i : Fin 64, i ≠ 0 → (c.dest (.s i) (.vc y)).readS i = y.extractLsb' 0 64 ∧ (c.dest (.s i) (.sc x)).readS i = x) ∧
    (∀ i : Fin 8, (c.dest (.m i) (.vc y)).m.get i = y.extractLsb' 0 64 ∧ (c.dest (.m i) (.sc x)).m.get i = x) ∧
    (∀ i : Fin 32, (c.dest (.v i) (.vc y)).v.get i = y ∧ (c.dest (.v i) (.sc x)).v.get i = (0 : BitVec 960) ++ x) ∧
    (∀ i : Fin 4, (c.dest (.c i) (.vc y)).c.get i = y.getLsbD 0 ∧ (c.dest (.c i) (.sc x)).c.get i = x.getLsbD 0) ∧
    (∀ u : Fin 15, (c.dest (.latch u 2) (.vc y)).latch u = { c.latch u with o3 := y.extractLsb' 0 64 } ∧
      (c.dest (.latch u 2) (.sc x)).latch u = { c.latch u with o3 := x } ∧
      (c.dest (.latch u 0) (.sc x)).latch u = { c.latch u with o1 := .sc x } ∧
      (c.dest (.latch u 1) (.sc x)).latch u = { c.latch u with o2 := .sc x } ∧
      (c.dest (.latch u 0) (.vc y)).latch u =
        { c.latch u with o1 := if u.val ∈ [2, 3, 4, 5, 6, 8] then .vc y else .sc (y.extractLsb' 0 64) } ∧
      (c.dest (.latch u 1) (.vc y)).latch u =
        { c.latch u with o2 := if u.val ∈ [2, 3, 4, 5, 8] then .vc y else .sc (y.extractLsb' 0 64) }) ∧
    (∀ i, i < 32 → laneOf 32 ((Val.sc x).lanes 32).toNat i = x.toNat % 2 ^ 32) ∧
    (∀ i, i < 64 → laneOf 16 ((Val.sc x).lanes 16).toNat i = x.toNat % 2 ^ 16) ∧
    (∀ w, (Val.vc y).lanes w = y)

/-- A trigger whose guard is false starts nothing (R28).
GUARD 0 always holds, 1 to 8 name ps0 to ps7 of the current window, 9 to 12 name c0 to c3 and 13 to 15 name their
negations for c0 to c2, read as they stood before the bundle. For every well-formed instruction that is a trigger
alone: where the context is live, nothing halts it at the boundary, the guard names no pending predicate and is false,
the bundle answers a next state in which the program counter has passed it and what was pending has counted down by
one bundle; nothing is written, popped or started, and the bundle does not wait, whatever it names; only MAPs and
OWNSETs whose bundle g + 3 it is come into force. Where the guard names a pending predicate, the bundle waits. -/
def Obligations.FalseGuardDoesNothing : Prop :=
  (∀ (c : Ctx), c.guard (guardOf 0) = true ∧ (∀ i : Fin 8, c.guard (guardOf (1 + i.val)) = c.ps i.val) ∧
    (∀ i : Fin 4, c.guard (guardOf (9 + i.val)) = c.c.get i) ∧
    (∀ i : Fin 3, c.guard (guardOf (13 + i.val)) = !(c.c.get (i.castSucc)))) ∧
  (∀ (i : Instr) (b : Fin 16) (t : Nat) (g : Guard) (src : Src) (s : State),
    trigOf i = some (b, t, g, src) → i.wf = true → (s.ctx s.cur).st = .live → (s.ctx s.cur).ended = false →
    s.issuer.due = [] → s.issuer.preempt = false → s.issuer.pend.length ≤ 16 →
    (s.issuer.guardPending g = false → s.issuer.guard g = false →
      exec i s = .next (commit s ((boundaryEff s).on (fun u => (u.setCtx s.cur
        { s.issuer.countDown with pc := s.issuer.pc + BitVec.ofNat 64 s.ir, lastSeq := s.issuer.seq, blocked := false,
                                  quiet := false }).applyDue s.cur)))) ∧
    (s.issuer.guardPending g = true → exec i s = .next s.waiting))

/-- A bundle that reads a register that has not landed waits, and only its own stores go on (R35, R89, R159).
For every well-formed instruction that is a trigger alone (ERET and TPOOL in a CSC only), while no control transfer is
pending: where the guard is true and the source names a pending s register, v register or predicate, an empty stream
that still owes a vector, or KB.r while a RECLU is outstanding, the bundle has none of its effects; the context's
fixed-latency stores perform (at once, in the step in which it blocks: the model's choice, log entry 73), and it is
marked as blocked. -/
def Obligations.PendingOperandsWait : Prop :=
  ∀ (i : Instr) (b : Fin 16) (t : Nat) (g : Guard) (src : Src) (s : State),
    trigOf i = some (b, t, g, src) → i.wf = true → (s.ctx s.cur).st = .live → (s.ctx s.cur).ended = false →
    s.issuer.due = [] → s.issuer.preempt = false → s.issuer.guardPending g = false → s.issuer.guard g = true →
    s.issuer.xfer = none → ((b = 7 ∧ t = 76) ∨ (b = 11 ∧ t = 15) → isCsc s.cur = true) →
    (s.issuer.sourceWaits src = true ∨ (src = .latR 13 ∧ s.boundaryState.recluOut s.cur = true)) →
    exec i s = .next s.waiting ∧ (s.waiting.ctx s.cur).pc = s.issuer.pc ∧ (s.waiting.ctx s.cur).blocked = true ∧
    (s.waiting.ctx s.cur).stores = []

/-- The scalar operations compute the table of R67 (R67).
For every class S operation but the divisions, on either unit, at both widths, in every state in which its bundle is
ready: exec answers the next state in which the unit's .r becomes visible with the value that R67's table gives for a
from .o1, b from the source and c from .o2 (at width 32 the low halves, sign-extended), one bundle later, or three for
the multiplications; no flag is set and nothing traps. -/
def Obligations.ScalarOperations : Prop :=
  ∀ (u : Fin 2) (g : Guard) (src : Src) (w : Bool) (s : State), Ready s g src →
    let i := s.reads (saUnit u) src
    let a := i.o1.word
    let b := i.b.word
    let c := i.o2.word
    let gives (lat : Nat) (x : Word) : Host.Outcome State Fault Refusal :=
      .next (s.afterResult src false (saUnit u) lat (some (.sc x)) none 0)
    let at3 (f : (n : Nat) → BitVec n → BitVec n → BitVec n → BitVec n) : Word :=
      if w then (f 32 (a.setWidth 32) (b.setWidth 32) (c.setWidth 32)).signExtend 64 else f 64 a b c
    let at2 (f : (n : Nat) → BitVec n → BitVec n → BitVec n) : Word := at3 (fun n a b _ => f n a b)
    let test (p : (n : Nat) → BitVec n → BitVec n → Prop) [∀ n a b, Decidable (p n a b)] : Word :=
      at2 (fun n a b => if p n a b then 1#n else 0#n)
    let pos (x : Nat) : Nat := x % 64
    let len (x : Nat) : Nat := min (x / 256 % 128) 64
    exec (.add u g src w) s = gives 1 (at2 (fun _ a b => a + b)) ∧
    exec (.sub u g src w) s = gives 1 (at2 (fun _ a b => a - b)) ∧
    exec (.mul u g src w) s = gives 3 (at2 (fun n a b => BitVec.ofInt n (a.toInt * b.toInt))) ∧
    exec (.mulh u g src w) s = gives 3 (at2 (fun n a b => BitVec.ofInt n (a.toInt * b.toInt / 2 ^ n))) ∧
    exec (.mulhu u g src w) s = gives 3 (at2 (fun n a b => BitVec.ofNat n (a.toNat * b.toNat / 2 ^ n))) ∧
    exec (.and u g src w) s = gives 1 (at2 (fun _ a b => a &&& b)) ∧
    exec (.or u g src w) s = gives 1 (at2 (fun _ a b => a ||| b)) ∧
    exec (.xor u g src w) s = gives 1 (at2 (fun _ a b => a ^^^ b)) ∧
    exec (.andn u g src w) s = gives 1 (at2 (fun _ a b => a &&& ~~~b)) ∧
    exec (.shl u g src w) s = gives 1 (at2 (fun n a b => BitVec.ofNat n (a.toNat * 2 ^ (b.toNat % n)))) ∧
    exec (.shr u g src w) s = gives 1 (at2 (fun n a b => BitVec.ofNat n (a.toNat / 2 ^ (b.toNat % n)))) ∧
    exec (.sar u g src w) s = gives 1 (at2 (fun n a b => BitVec.ofInt n (a.toInt / 2 ^ (b.toNat % n)))) ∧
    exec (.rol u g src w) s = gives 1 (at2 (fun n a b =>
      BitVec.ofNat n (a.toNat * 2 ^ (b.toNat % n) + a.toNat / 2 ^ (n - b.toNat % n)))) ∧
    exec (.clz u g src w) s = gives 1 (at2 (fun n _ b =>
      BitVec.ofNat n (((List.range n).takeWhile (fun i => !b.getLsbD (n - 1 - i))).length))) ∧
    exec (.ctz u g src w) s = gives 1 (at2 (fun n _ b =>
      BitVec.ofNat n (((List.range n).takeWhile (fun i => !b.getLsbD i)).length))) ∧
    exec (.popc u g src w) s = gives 1 (at2 (fun n _ b =>
      BitVec.ofNat n (((List.range n).filter (fun i => b.getLsbD i)).length))) ∧
    exec (.min u g src w) s = gives 1 (at2 (fun _ a b => if a.toInt ≤ b.toInt then a else b)) ∧
    exec (.max u g src w) s = gives 1 (at2 (fun _ a b => if a.toInt ≤ b.toInt then b else a)) ∧
    exec (.minu u g src w) s = gives 1 (at2 (fun _ a b => if a.toNat ≤ b.toNat then a else b)) ∧
    exec (.maxu u g src w) s = gives 1 (at2 (fun _ a b => if a.toNat ≤ b.toNat then b else a)) ∧
    exec (.cmpeq u g src w) s = gives 1 (test (fun _ a b => a = b)) ∧
    exec (.cmpne u g src w) s = gives 1 (test (fun _ a b => a ≠ b)) ∧
    exec (.cmplt u g src w) s = gives 1 (test (fun _ a b => a.toInt < b.toInt)) ∧
    exec (.cmple u g src w) s = gives 1 (test (fun _ a b => a.toInt ≤ b.toInt)) ∧
    exec (.cmpltu u g src w) s = gives 1 (test (fun _ a b => a.toNat < b.toNat)) ∧
    exec (.cmpleu u g src w) s = gives 1 (test (fun _ a b => a.toNat ≤ b.toNat)) ∧
    exec (.sel u g src) s = gives 1 (if a ≠ 0 then b else c) ∧
    exec (.extb u g src w) s = gives 1 (at2 (fun n a b => BitVec.ofNat n (a.toNat / 2 ^ pos b.toNat % 2 ^ len b.toNat))) ∧
    exec (.insb u g src w) s = gives 1 (at3 (fun n a b c =>
      let mask := BitVec.ofNat n ((2 ^ len b.toNat - 1) * 2 ^ pos b.toNat)
      (a &&& ~~~mask) ||| ((c <<< pos b.toNat) &&& mask))) ∧
    exec (.sext u g src) s = gives 1 (let n := a.toNat % 128
      if n = 0 ∨ 64 ≤ n then b else (b.setWidth n).signExtend 64) ∧
    exec (.zext u g src) s = gives 1 (let n := a.toNat % 128
      if n = 0 ∨ 64 ≤ n then b else (b.setWidth n).setWidth 64) ∧
    exec (.mov u g src w) s = gives 1 (at2 (fun _ _ b => b)) ∧
    exec (.lea u g src) s = gives 1 (a + b * BitVec.ofNat 64 (2 ^ (c.toNat % 8))) ∧
    exec (.bswap u g src w) s = gives 1 (at2 (fun n _ b => BitVec.ofNat n (leNat (leBytes (n / 8) b.toNat).reverse)))

/-- DIV, DIVU, REM and REMU give quotient and remainder as R68 says (R68).
In every state in which the bundle is ready, each of the four divisions answers the next state in which twelve bundles
later .r and .q show quotient and remainder (DIV, DIVU) or remainder and quotient (REM, REMU), at both widths: the
exact quotient truncated toward zero and the remainder of the dividend's sign; for a divisor of zero the quotient -1,
or 2^N - 1 unsigned, the dividend as the remainder, and STAT.DZ set with the result; for the least number divided by
-1 the quotient is the least number and the remainder zero. -/
def Obligations.ScalarDivision : Prop :=
  ∀ (u : Fin 2) (g : Guard) (src : Src) (w : Bool) (s : State), Ready s g src →
    let i := s.reads (saUnit u) src
    let a := i.o1.word
    let b := i.b.word
    let at2 (f : (n : Nat) → BitVec n → BitVec n → BitVec n) : Word :=
      if w then (f 32 (a.setWidth 32) (b.setWidth 32)).signExtend 64 else f 64 a b
    let qs := at2 (fun n a b => if b = 0 then BitVec.ofInt n (-1)
      else if a.toInt = -(2 ^ (n - 1)) ∧ b.toInt = -1 then BitVec.ofInt n (-(2 ^ (n - 1)))
      else BitVec.ofInt n (a.toInt.tdiv b.toInt))
    let rs := at2 (fun n a b => if b = 0 then a
      else if a.toInt = -(2 ^ (n - 1)) ∧ b.toInt = -1 then 0
      else BitVec.ofInt n (a.toInt - b.toInt * a.toInt.tdiv b.toInt))
    let qu := at2 (fun n a b => if b = 0 then BitVec.ofNat n (2 ^ n - 1) else BitVec.ofNat n (a.toNat / b.toNat))
    let ru := at2 (fun n a b => if b = 0 then a else BitVec.ofNat n (a.toNat - b.toNat * (a.toNat / b.toNat)))
    let dz : BitVec 9 := if (if w then b.toNat % 2 ^ 32 = 0 else b = 0) then 2 else 0
    let gives (r q : Word) : Host.Outcome State Fault Refusal :=
      .next (s.afterResult src false (saUnit u) 12 (some (.sc r)) (some (.sc q)) dz)
    exec (.div u g src w) s = gives qs rs ∧ exec (.divu u g src w) s = gives qu ru ∧
    exec (.rem u g src w) s = gives rs qs ∧ exec (.remu u g src w) s = gives ru qu

/-- Every class V operation runs and leaves its result; what the reductions, scans, VTOPK and VCVT hold (R33, R34, R50, R55, R118, R126, R129, R130, R136, R137, R138, R139).
For each of the 34 class V operations, on either unit, in every type that R55 allows it, in every state in which its
bundle is ready: where no lane needs the assist (no rounded lane is subnormal while FPC.FZW is 0) and, for VTBL, no
counted operation that writes its k-register is outstanding, exec answers the next state in which the operation's .r
and .q, as they are computed from .o1, the source, .o2, .o3 and FPC, become visible with their flags after the
operation's latency: 4 bundles for the F group and 2 for I and N, or the operation's own. For every operand, VREDADD
holds the sum of the enabled lanes modulo 2^w, or for floating lanes the pairwise tree of RNE steps in which masked
lanes enter as -0; VREDMAX and VREDMIN an enabled lane that none exceeds, the canonical NaN where an enabled lane is
NaN, and the bound where none is enabled; VSCAN the running sums in lane order; VTOPK the candidates by descending
rank, ties to the lower lane, with their lanes and their number; VCVT each lane converted as its two types say, placed
by width, with ConvertInt as R118 says. -/
def Obligations.VectorOperations : Prop :=
  (∀ (u : Fin 2) (g : Guard) (src : Src) (ty : VTy) (s : State), Ready s g src →
    let v := (s.reads (vaUnit u) src).v
    let lat := if vtyF ty then 4 else 2
    let runs (i : Instr) (lat : Nat) (f : VOut) : Prop :=
      f.sub = false → exec i s = .next (s.afterResult src false (vaUnit u) lat (f.r.map Val.vc) f.q f.fl)
    runs (.vadd u g src ty) lat (fnVadd ty v) ∧ runs (.vsub u g src ty) lat (fnVsub ty v) ∧
    runs (.vmul u g src ty) lat (fnVmul ty v) ∧ runs (.vfma u g src ty) lat (fnVfma ty v) ∧
    runs (.vfms u g src ty) lat (fnVfms ty v) ∧ runs (.vnfma u g src ty) lat (fnVnfma ty v) ∧
    runs (.vmin u g src ty) lat (fnVmin ty v) ∧ runs (.vmax u g src ty) lat (fnVmax ty v) ∧
    runs (.vclamp u g src ty) lat (fnVclamp ty v) ∧ runs (.vcmpeq u g src ty) lat (fnVcmpeq ty v) ∧
    runs (.vcmplt u g src ty) lat (fnVcmplt ty v) ∧ runs (.vcmple u g src ty) lat (fnVcmple ty v) ∧
    runs (.vsel u g src ty) 2 (fnVsel ty v) ∧ runs (.vbcast u g src ty) 2 (fnVbcast ty v) ∧
    runs (.vperm u g src ty) 3 (fnVperm ty v) ∧ runs (.vredadd u g src ty) 6 (fnVredadd ty v) ∧
    runs (.vredmax u g src ty) 6 (fnVredmax ty v) ∧ runs (.vredmin u g src ty) 6 (fnVredmin ty v) ∧
    runs (.vscan u g src ty) 8 (fnVscan ty v) ∧ runs (.vtopk u g src ty) 10 (fnVtopk ty v) ∧
    runs (.vcvt u g src ty) 2 (fnVcvt ty v) ∧
    ((vtyF ty || vtyI ty) = true → runs (.vabs u g src ty) lat (fnVabs ty v) ∧ runs (.vneg u g src ty) lat (fnVneg ty v)) ∧
    (vtyF ty = true → runs (.vcmpun u g src ty) 4 (fnVcmpun ty v) ∧
      (s.boundaryState.kbWrites s.cur false ((s.reads (vaUnit u) src).o2.word.toNat % 16) = false →
        runs (.vtbl u g src ty) 3 (fnVtbl ty v))) ∧
    ((vtyI ty || vtyN ty) = true → runs (.vand u g src ty) 2 (fnVand ty v) ∧ runs (.vor u g src ty) 2 (fnVor ty v) ∧
      runs (.vxor u g src ty) 2 (fnVxor ty v) ∧ runs (.vshl u g src ty) 2 (fnVshl ty v) ∧
      runs (.vshr u g src ty) 2 (fnVshr ty v) ∧ runs (.vmulh u g src ty) 2 (fnVmulh ty v)) ∧
    (vtyI ty = true → runs (.vsar u g src ty) 2 (fnVsar ty v) ∧ runs (.vcntm u g src ty) 2 (fnVcntm ty v)) ∧
    ((ty == .bf16 || ty == .f16 || ty == .i16) = true → runs (.vdot2 u g src ty) lat (fnVdot2 ty v))) ∧
  (∀ (ty : VTy) (v : VIn),
    let t := laneTy ty
    let w := t.w
    let n := 1024 / w
    let y (k : Nat) := laneOf w (v.b.lanes w).toNat k
    let on (k : Nat) : Bool := v.o3.getLsbD k
    let lone (o : VOut) (p : Nat) (fl : BitVec 9) (sub : Bool) : Prop :=
      o.r = some (BitVec.ofNat 1024 p) ∧ o.q = none ∧ o.fl = fl ∧ o.sub = sub
    let low : Nat := match t with | .fl f => 2 ^ (w - 1) + f.infMag | .int _ => 2 ^ (w - 1) | .nat _ => 0
    let high : Nat := match t with | .fl f => f.infMag | .int _ => 2 ^ (w - 1) - 1 | .nat _ => 2 ^ w - 1
    let best (o : VOut) (above : Int → Int → Prop) (empty : Nat) : Prop :=
      ((∀ k, k < n → on k = false) → lone o empty 0 false) ∧
      ((∃ k, k < n ∧ on k = true) → ∃ p, lone o p 0 false ∧
        ((∃ f, t = .fl f ∧ p = f.qnan ∧ ∃ k, k < n ∧ on k = true ∧ f.isNaN (y k) = true) ∨
          ((∀ f, t = .fl f → ∀ k, k < n → on k = true → f.isNaN (y k) = false) ∧
            (∃ k, k < n ∧ on k = true ∧ y k = p) ∧ ∀ k, k < n → on k = true → ¬ above (t.rank (y k)) (t.rank p))))
    best (fnVredmax ty v) (· > ·) low ∧ best (fnVredmin ty v) (· < ·) high ∧
    (vtyF ty = false →
      let part (k : Nat) : Int := if on k then t.toInt (y k) else 0
      lone (fnVredadd ty v) ((∑ k ∈ Finset.range n, part k) % 2 ^ w).toNat 0 false ∧
      (fnVscan ty v).holds w (fun k => ((∑ i ∈ Finset.range (k + 1), part i) % 2 ^ w).toNat)) ∧
    (∀ f : Fmt, t = .fl f →
      let enter (k : Nat) : Nat := if on k then y k else 2 ^ (w - 1)
      let step (a b : Nat) : Rounded :=
        roundLane f (v.fpc &&& ~~~3) ((f.value a).add false (f.value b)) [f.value a, f.value b]
      (∀ T : Nat → Nat → Rounded, (∀ k, T 0 k = ⟨enter k, 0, false⟩) →
        (∀ j k, T (j + 1) k =
          let r := step (T j (2 * k)).pat (T j (2 * k + 1)).pat
          ⟨r.pat, r.fl ||| (T j (2 * k)).fl ||| (T j (2 * k + 1)).fl, r.sub || (T j (2 * k)).sub || (T j (2 * k + 1)).sub⟩) →
        let r := T (if w = 32 then 5 else 6) 0
        lone (fnVredadd ty v) r.pat r.fl r.sub) ∧
      (∀ S : Nat → Rounded, S 0 = ⟨if f.isNaN (enter 0) then f.qnan else enter 0, 0, false⟩ →
        (∀ k, S (k + 1) = step (S k).pat (enter (k + 1))) → (fnVscan ty v).rounds w S)) ∧
    (∀ C : List Nat, (∀ k, k ∈ C ↔ k < n ∧ on k = true) →
      C.Pairwise (fun i j => t.rank (y j) < t.rank (y i) ∨ (t.rank (y j) = t.rank (y i) ∧ i < j)) →
      let slots := n / 2
      let slot (j : Nat) : Option Nat := if j < v.o2.word.toNat % 256 then C[j]? else none
      (fnVtopk ty v).q = some (.sc (BitVec.ofNat 64 C.length)) ∧
      (fnVtopk ty v).holds w (fun k =>
        if k < slots then
          match slot k with
          | some i => (match t with | .fl f => f.canon (y i) | _ => y i)
          | none => low
        else (slot (k - slots)).getD 0xFFFF)) ∧
    (v.o2.word.toNat % 8 = 7 → lone (fnVcvt ty v) 0 1 false) ∧
    (∀ sty : VTy, tyOfNum (v.o2.word.toNat % 8) = some sty →
      let s := laneTy sty
      let h := (v.o2.word.getLsbD 3).toNat
      let conv (k : Nat) := convLane s t v.fpc (laneOf s.w (v.b.lanes s.w).toNat k)
      (fnVcvt ty v).rounds w (fun k =>
        if s.w = w then conv k
        else if s.w = 16 then conv (32 * h + k)
        else if 32 * h ≤ k ∧ k < 32 * h + 32 then conv (k - 32 * h)
        else ⟨laneOf 16 (v.o1.lanes 16).toNat k, 0, false⟩))) ∧
  (∀ (f g : Fmt) (s d : LaneTy) (fpc : Word) (x : Nat), s.isF = false → d.isF = false →
    let v := f.value x
    let i := rlInt (s.toInt x)
    let c := convertInt d.lo d.hi v (modeOf fpc)
    let k := max d.lo (min d.hi (s.toInt x))
    convLane (.fl f) (.fl g) fpc x =
      (if f = g then ⟨f.canon x, 0, false⟩ else if g = .f32 then ⟨(roundTo g v .rne).pat, 0, false⟩ else roundLane g fpc v [v]) ∧
    convLane (.fl f) d fpc x = ⟨(c.1 % 2 ^ d.w).toNat, c.2, false⟩ ∧
    convLane s (.fl g) fpc x = roundLane g fpc i [i] ∧
    (d.lo ≤ d.hi → convLane s d fpc x = ⟨(k % 2 ^ d.w).toNat, if k = s.toInt x then 0 else 0x20, false⟩)) ∧
  (∀ (lo hi : Int) (m : RMode) (n : Bool) (q : Nat) (e : Int), lo ≤ hi → m ∈ [.rne, .rtz, .rup, .rdn] →
    let a : ℝ := q * 2 ^ e
    convertInt lo hi .nan m = (0, 1) ∧ convertInt lo hi (.inf n) m = (if n then lo else hi, 0x21) ∧
    ∃ i : Nat, i ≤ 1 ∧ (i = 1 ↔ upward m n ⌊a⌋₊ (a - ⌊a⌋₊)) ∧
      let r : Int := (if n then -1 else 1) * (⌊a⌋₊ + i : Nat)
      (r < lo → convertInt lo hi (.fin n q e false) m = (lo, 0x21)) ∧
      (hi < r → convertInt lo hi (.fin n q e false) m = (hi, 0x21)) ∧
      (lo ≤ r → r ≤ hi → (a = ⌊a⌋₊ → convertInt lo hi (.fin n q e false) m = (r, 0)) ∧
        (a ≠ ⌊a⌋₊ → convertInt lo hi (.fin n q e false) m = (r, 0x10))))

/-- What the lanes of the vector operations hold, and how floating lanes are rounded (R114, R118, R126, R129, R130, R131, R132, R133, R134, R135, R136, R140).
For every operand. In every type of the I and N groups lane k of the result is: the sum, difference, product, and the
three fused forms of lanes k modulo 2^w; the smaller or larger; the absolute value, the clamp to the bounds of .o1 and
.o2 and the high half of the product; all ones or zero for the compares, with bit k of .q the test; the bitwise forms;
the shifts by the count modulo w. In every type of the F group it is RoundTo of the exact sum, difference, product or
fused form, or the value that R130 to R132 give the value operations and compares; VTBL rounds the entry that the
index names and gives +0 with KOOR at or above the count; VDOT2 rounds one exact sum of two products and an F32 lane,
or adds them modulo 2^32. RoundTo itself is R114's, with the overflows of R115 and the flags of R116, for every value
of sufficient length, and the exact sums, products and quotients are those of the reals. In every type VSEL, VBCAST
and VPERM copy the lane that R134 names. VCNTM counts the enabled lanes that are not zero and leaves .r alone. -/
def Obligations.VectorLanes : Prop :=
  (∀ (ty : VTy) (v : VIn),
    let t := laneTy ty
    let w := t.w
    let x (k : Nat) := laneOf w (v.o1.lanes w).toNat k
    let y (k : Nat) := laneOf w (v.b.lanes w).toNat k
    let z (k : Nat) := laneOf w (v.o2.lanes w).toNat k
    let mod (n : Int) : Nat := (n % 2 ^ w).toNat
    let tests (o : VOut) (p : Nat → Prop) [DecidablePred p] : Prop :=
      o.holds w (fun k => if p k then 2 ^ w - 1 else 0) ∧
        ∃ q : Word, o.q = some (.sc q) ∧ ∀ k, k < 64 → q.getLsbD k = (k < 1024 / w && decide (p k))
    (vtyF ty = false →
      (fnVadd ty v).holds w (fun k => mod (x k + y k)) ∧ (fnVsub ty v).holds w (fun k => mod ((x k : Int) - y k)) ∧
      (fnVmul ty v).holds w (fun k => mod (x k * y k)) ∧ (fnVfma ty v).holds w (fun k => mod (x k * y k + z k)) ∧
      (fnVfms ty v).holds w (fun k => mod ((x k : Int) * y k - z k)) ∧
      (fnVnfma ty v).holds w (fun k => mod (-((x k : Int) * y k) + z k)) ∧
      (fnVmin ty v).holds w (fun k => if t.toInt (x k) ≤ t.toInt (y k) then x k else y k) ∧
      (fnVmax ty v).holds w (fun k => if t.toInt (x k) ≤ t.toInt (y k) then y k else x k) ∧
      (fnVclamp ty v).holds w (fun k =>
        mod (min (max (t.toInt (y k)) (t.toInt (x k))) (t.toInt (z k)))) ∧
      (fnVmulh ty v).holds w (fun k => mod (t.toInt (x k) * t.toInt (y k) / 2 ^ w)) ∧
      (fnVand ty v).holds w (fun k => x k &&& y k) ∧ (fnVor ty v).holds w (fun k => x k ||| y k) ∧
      (fnVxor ty v).holds w (fun k => x k ^^^ y k) ∧ (fnVshl ty v).holds w (fun k => mod (x k * 2 ^ (y k % w))) ∧
      (fnVshr ty v).holds w (fun k => x k / 2 ^ (y k % w)) ∧
      tests (fnVcmpeq ty v) (fun k => x k = y k) ∧ tests (fnVcmplt ty v) (fun k => t.toInt (x k) < t.toInt (y k)) ∧
      tests (fnVcmple ty v) (fun k => t.toInt (x k) ≤ t.toInt (y k))) ∧
    (vtyI ty = true → (fnVsar ty v).holds w (fun k => mod (signedOf w (x k) / 2 ^ (y k % w))) ∧
      (fnVneg ty v).holds w (fun k => mod (-(y k : Int))) ∧
      (fnVabs ty v).holds w (fun k => mod |signedOf w (y k)|) ∧
      (fnVcntm ty v).r = none ∧ (fnVcntm ty v).fl = 0 ∧ (fnVcntm ty v).q = some (.sc (BitVec.ofNat 64
        ((List.range (1024 / w)).filter (fun k => v.o3.getLsbD k && y k != 0)).length))) ∧
    (fnVsel ty v).holds w (fun k => if v.o3.getLsbD k then x k else y k) ∧
    (fnVbcast ty v).holds w (fun _ => laneOf w (v.o1.lanes w).toNat (v.b.word.toNat % 64 % (1024 / w))) ∧
    (fnVperm ty v).holds w (fun k => let d := y k % (2 * (1024 / w)); if d < 1024 / w then x d else z (d - 1024 / w)) ∧
    (∀ f : Fmt, t = .fl f →
      let X (k : Nat) := f.value (x k)
      let Y (k : Nat) := f.value (y k)
      let Z (k : Nat) := f.value (z k)
      let rdn := isRdn v.fpc
      let rnd := roundLane f v.fpc
      let value (one two : Nat) (p : Nat) : Nat := if f.isNaN one ∨ f.isNaN two then f.qnan else p
      (fnVadd ty v).rounds w (fun k => rnd ((X k).add rdn (Y k)) [X k, Y k]) ∧
      (fnVsub ty v).rounds w (fun k => rnd ((X k).add rdn (Y k).minus) [X k, Y k]) ∧
      (fnVmul ty v).rounds w (fun k => rnd ((X k).mul (Y k)) [X k, Y k]) ∧
      (fnVfma ty v).rounds w (fun k => rnd (((X k).mul (Y k)).add rdn (Z k)) [X k, Y k, Z k]) ∧
      (fnVfms ty v).rounds w (fun k => rnd (((X k).mul (Y k)).add rdn (Z k).minus) [X k, Y k, Z k]) ∧
      (fnVnfma ty v).rounds w (fun k => rnd (((X k).mul (Y k)).minus.add rdn (Z k)) [X k, Y k, Z k]) ∧
      (fnVmin ty v).holds w (fun k => value (x k) (y k) (if f.key (x k) ≤ f.key (y k) then x k else y k)) ∧
      (fnVmax ty v).holds w (fun k => value (x k) (y k) (if f.key (x k) ≤ f.key (y k) then y k else x k)) ∧
      (fnVclamp ty v).holds w (fun k =>
        if f.isNaN (x k) ∨ f.isNaN (y k) ∨ f.isNaN (z k) then f.qnan
        else
          let lower := if f.key (x k) ≤ f.key (y k) then y k else x k
          if f.key lower ≤ f.key (z k) then lower else z k) ∧
      (fnVabs ty v).holds w (fun k => value (y k) (y k) (y k % 2 ^ (w - 1))) ∧
      (fnVneg ty v).holds w (fun k => value (y k) (y k) ((y k + 2 ^ (w - 1)) % 2 ^ w)) ∧
      tests (fnVcmpeq ty v) (fun k => (X k).eq (Y k) = true) ∧ tests (fnVcmplt ty v) (fun k => (X k).lt (Y k) = true) ∧
      tests (fnVcmple ty v) (fun k => (X k).le (Y k) = true) ∧
      tests (fnVcmpun ty v) (fun k => ((X k).isNaN || (Y k).isNaN) = true) ∧
      (fnVtbl ty v).rounds w (fun k =>
        let e := v.kr.tag.fmt.value (v.kr.entry (y k % 256))
        if v.kr.n ≤ y k % 256 then ⟨0, 0x40, false⟩
        else if v.kr.tag.fmt = f ∨ f = .f32 then ⟨(roundTo f e .rne).pat, 0, false⟩
        else rnd e [e])) ∧
    (ty ∈ [.bf16, .f16, .i16] →
      let a (k : Nat) := laneOf 16 (v.o1.lanes 16).toNat k
      let b (k : Nat) := laneOf 16 (v.b.lanes 16).toNat k
      let c (k : Nat) := laneOf 32 (v.o2.lanes 32).toNat k
      (ty = .i16 → (fnVdot2 ty v).holds 32 (fun k =>
        ((signedOf 16 (a (2 * k)) * signedOf 16 (b (2 * k)) + signedOf 16 (a (2 * k + 1)) * signedOf 16 (b (2 * k + 1))
          + signedOf 32 (c k)) % 2 ^ 32).toNat)) ∧
      (∀ f : Fmt, t = .fl f → (fnVdot2 ty v).rounds 32 (fun k =>
        let A := f.value (a (2 * k))
        let B := f.value (b (2 * k))
        let C := f.value (a (2 * k + 1))
        let D := f.value (b (2 * k + 1))
        let E := Fmt.f32.value (c k)
        let rdn := isRdn v.fpc
        roundLane .f32 v.fpc (((A.mul B).add rdn (C.mul D)).add rdn E) [A, B, C, D, E])))) ∧
  (∀ (f : Fmt) (fpc : Word) (x : Rl) (ops : List Rl),
    let m : RMode := match fpc.toNat % 4 with | 0 => .rne | 1 => .rtz | 2 => .rup | _ => .rdn
    let r := roundTo f x m
    let fl := if x.isNaN && ops.all (fun o => !o.isNaN) then r.fl ||| flNV else r.fl
    roundLane f fpc x ops =
      if r.sub && fpc.getLsbD 2 then ⟨if r.pat.testBit (f.width - 1) then 2 ^ (f.width - 1) else 0, fl ||| 0x18, false⟩
      else ⟨r.pat, fl, r.sub⟩) ∧
  (∀ (f : Fmt) (m : RMode) (n st : Bool) (q : Nat) (e : Int) (a : ℝ),
    (st = false → q ≠ 0 ∧ a = q * 2 ^ e) → (st = true → 2 ^ 40 ≤ q ∧ (q : ℝ) * 2 ^ e < a ∧ a < ((q : ℝ) + 1) * 2 ^ e) →
    RoundsAs f m n a (roundTo f (.fin n q e st) m)) ∧
  (∀ (f : Fmt) (m : RMode) (n : Bool) (e : Int),
    roundTo f (.fin n 0 e false) m = ⟨if n then 2 ^ (f.width - 1) else 0, 0, false⟩ ∧
    roundTo f .nan m = ⟨f.qnan, 0, false⟩ ∧ (f ≠ .e4m3 → roundTo f (.inf n) m = ⟨f.signed n (f.maxMag + 1), 0, false⟩) ∧
    (let big : Nat := f.maxMag + if n then 2 ^ (f.width - 1) else 0
     let up : Bool := match m with | .rne | .sr _ => true | .rup => !n | .rdn => n | _ => false
     (overflow f n true m = if m = .sat then ⟨big, 0x34, false⟩ else if !up then ⟨big, 0x14, false⟩
       else if f = .e4m3 then ⟨0x7F, 0x11, false⟩ else ⟨big + 1, 0x14, false⟩) ∧
     roundTo .e4m3 (.inf n) m = if m = .sat then ⟨if n then 0xFE else 0x7E, 0x20, false⟩
       else if up then ⟨0x7F, 1, false⟩ else ⟨if n then 0xFE else 0x7E, 0x14, false⟩)) ∧
  (∀ (rdn n m : Bool) (q r : Nat) (e d : Int),
    (∃ k p g, (Rl.fin n q e false).add rdn (.fin m r d false) = .fin k p g false ∧
      realOf k p g = realOf n q e + realOf m r d ∧
      (p = 0 → k = if q = 0 ∧ r = 0 ∧ n = m then n else rdn)) ∧
    (Rl.fin n q e false).mul (.fin m r d false) = .fin (n != m) (q * r) (e + d) false ∧
    ((Rl.fin n q e false).lt (.fin m r d false) = true ↔ realOf n q e < realOf m r d) ∧
    (q ≠ 0 → r ≠ 0 → ∀ f mode,
      RoundsAs f mode (n != m) ((q : ℝ) * 2 ^ e / (r * 2 ^ d)) (roundTo f ((Rl.fin n q e false).div (.fin m r d false)) mode)))

/-- Every class X, U and P operation runs, and what its lanes hold (R33, R34, R56, R57, R122, R142, R143, R144, R145, R146, R147, R149).
In every state in which the bundle is ready: each class X operation, where no lane needs the assist, leaves its lanes
in .r after 12 bundles (16 for XDIV); each unpack leaves its lanes after 2; BSINIT and BSREAD step the context's bit
cursors and leave their lanes; each pack leaves .o1 with its field overwritten after 2. A pack of rm 2 pops one random
word, so that its queue must not be empty while FPC.SRE is 1, and its source is not that queue. For every operand: a
class X lane is its function of the lane, rounded by FPC.RM, with R122's limits, domains and poles, the reciprocal,
the two roots and the quotient rounded as R114 says from the real value, and the other functions at the arguments
written out here the nearest F32 values of the real functions; the unpacks give the elements that R143 numbers,
extended or widened exactly, UNPKSN4 the elements of R111; the floating packs round each source lane in the mode of
rm, with random bits by lane, into the field, and leave every other element of .o1. (Where the model's intervals do
not decide a rounding, a class X lane is a free value, and tanh(-0) is -0 by the model's choice: log entry 17. In
which lanes an unpack of a scalar source lays its elements, 16-bit lanes and 32-bit ones for UNPKSN4, is the model's
choice: log entry 22.) -/
def Obligations.SpecialUnpackPack : Prop :=
  (∀ (g : Guard) (src : Src) (ty : XTy) (s : State), Ready s g src →
    let v := (s.reads 8 src).v
    let runs (i : Instr) (lat : Nat) (f : VOut) : Prop :=
      f.sub = false → exec i s = .next (s.afterResult src false 8 lat (f.r.map Val.vc) f.q f.fl)
    runs (.xrcp g src ty) 12 (vSpecial .rcp ty v) ∧ runs (.xrsq g src ty) 12 (vSpecial .rsq ty v) ∧
    runs (.xsqrt g src ty) 12 (vSpecial .sqrt ty v) ∧ runs (.xexp2 g src ty) 12 (vSpecial .exp2 ty v) ∧
    runs (.xlog2 g src ty) 12 (vSpecial .log2 ty v) ∧ runs (.xexp g src ty) 12 (vSpecial .exp ty v) ∧
    runs (.xsin g src ty) 12 (vSpecial .sin ty v) ∧ runs (.xcos g src ty) 12 (vSpecial .cos ty v) ∧
    runs (.xtanh g src ty) 12 (vSpecial .tanh ty v) ∧ runs (.xsigm g src ty) 12 (vSpecial .sigm ty v) ∧
    runs (.xgelu g src ty) 12 (vSpecial .gelu ty v) ∧ runs (.xsilu g src ty) 12 (vSpecial .silu ty v) ∧
    runs (.xdiv g src ty) 16 (fnXdiv ty v)) ∧
  (∀ (g : Guard) (src : Src) (s : State), Ready s g src →
    let v := (s.reads 4 src).v
    let runs (i : Instr) (f : VOut) : Prop :=
      exec i s = .next (s.afterResult src false 4 2 (f.r.map Val.vc) f.q f.fl)
    runs (.unpk4s g src) (fnUnpk4 true v) ∧ runs (.unpk4z g src) (fnUnpk4 false v) ∧
    runs (.unpk6s g src) (fnUnpk6 true v) ∧ runs (.unpk6z g src) (fnUnpk6 false v) ∧
    runs (.unpk8s g src) (fnUnpk8 true v) ∧ runs (.unpk8z g src) (fnUnpk8 false v) ∧
    runs (.unpke4 g src) (fnUnpkE .e4m3 v) ∧ runs (.unpke5 g src) (fnUnpkE .e5m2 v) ∧
    runs (.unpksn4 g src) (fnUnpksn4 v) ∧ runs (.unpkix g src) (fnUnpkix v) ∧
    (let lane (k : Fin 32) := bsInitLane (laneOf 32 (v.o1.lanes 32).toNat k.val) (laneOf 32 (v.b.lanes 32).toNat k.val)
        (laneOf 32 (v.o2.lanes 32).toNat k.val)
     exec (.bsinit g src) s = .next (s.afterCtx src false (fun c =>
       Ctx.result { c with bsWin := Vector.ofFn (fun k => (lane k).1), bsCnt := Vector.ofFn (fun k => (lane k).2) }
         4 2 (some (.vc 0)) none 0))) ∧
    (let lane (k : Fin 32) := bsReadLane ((s.moved src false).bsWin.get k) ((s.moved src false).bsCnt.get k)
        (laneOf 32 (v.b.lanes 32).toNat k.val) (laneOf 32 (v.o1.lanes 32).toNat k.val)
     exec (.bsread g src) s = .next (s.afterCtx src false (fun c =>
       Ctx.result { c with bsWin := Vector.ofFn (fun k => (lane k).1), bsCnt := Vector.ofFn (fun k => (lane k).2.1) }
         4 2 (some (.vc (vecOf 32 ((List.finRange 32).map (fun k => (lane k).2.2))))) none 0)))) ∧
  (∀ (g : Guard) (src : Src) (wrap : Bool) (rm : PRm) (s : State), Ready s g src →
    let v := (s.reads 5 src).v
    let runs (i : Instr) (rnd : Bool) (f : VOut) : Prop :=
      f.sub = false → exec i s = .next (s.afterResult src rnd 5 2 (f.r.map Val.vc) f.q f.fl)
    runs (.pack4s g src wrap) false (packInt (fun _ => 4) (fun i => 64 * (i.o3.toNat % 4)) true wrap v) ∧
    runs (.pack4z g src wrap) false (packInt (fun _ => 4) (fun i => 64 * (i.o3.toNat % 4)) false wrap v) ∧
    runs (.pack6s g src wrap) false (packInt (fun _ => 6) (fun i => 64 * (i.o3.toNat % 4)) true wrap v) ∧
    runs (.pack6z g src wrap) false (packInt (fun _ => 6) (fun i => 64 * (i.o3.toNat % 4)) false wrap v) ∧
    runs (.pack8s g src wrap) false (packInt (fun _ => 8) (fun i => 64 * (i.o3.toNat % 2)) true wrap v) ∧
    runs (.pack8z g src wrap) false (packInt (fun _ => 8) (fun i => 64 * (i.o3.toNat % 2)) false wrap v) ∧
    runs (.packix g src wrap) false
      (packInt (fun i => widOf i.o3.toNat) (fun i => 64 * (i.o3.toNat / 4 % 8)) false wrap v) ∧
    ((rm = .sr → src ≠ .rnd ∧ s.issuer.sourceWaits .rnd = false) →
      runs (.packe4 g src rm) (rm == .sr) (packE .e4m3 rm v) ∧ runs (.packe5 g src rm) (rm == .sr) (packE .e5m2 rm v) ∧
      runs (.packb16 g src rm) (rm == .sr) (packH .bf16 rm v) ∧ runs (.packh16 g src rm) (rm == .sr) (packH .f16 rm v))) ∧
  (∀ (fn : SpFn) (ty : XTy) (v : VIn),
    let f := xFmt ty
    let x (k : Nat) := laneOf f.width (v.o1.lanes f.width).toNat k
    let y (k : Nat) := laneOf f.width (v.b.lanes f.width).toNat k
    let m := modeOf v.fpc
    (vSpecial fn ty v).rounds f.width (fun k => assistLane f v.fpc (fn.round f f (y k) m)) ∧
    (fnXdiv ty v).rounds f.width (fun k =>
      let a := f.value (x k)
      let b := f.value (y k)
      let r := roundLane f v.fpc (a.div b) [a, b]
      if b.isZero && !a.isZero && !a.isNaN && !a.isInf then ⟨r.pat, r.fl ||| 2, r.sub⟩ else r)) ∧
  (∀ (f g : Fmt) (m : RMode) (p : Nat),
    let at_ (fn : SpFn) := fn.round f g p m
    let gives (fn : SpFn) (x : Rl) (fl : BitVec 9) : Prop :=
      let r := roundTo g x m
      at_ fn = ⟨r.pat, r.fl ||| fl, r.sub⟩
    (f.value p = .nan → ∀ fn, gives fn .nan 0) ∧
    (∀ n, f.value p = .inf n →
      gives .rcp (rlZero n) 0 ∧ gives .tanh (.fin n 1 0 false) 0 ∧ gives .sin .nan 1 ∧ gives .cos .nan 1 ∧
      (∀ fn ∈ [SpFn.rsq, .sqrt, .log2, .log], n = true → gives fn .nan 1) ∧
      (∀ fn ∈ [SpFn.exp2, .exp, .sigm], n = true → gives fn (rlZero false) 0) ∧
      (∀ fn ∈ [SpFn.gelu, .silu], n = true → gives fn (rlZero true) 0) ∧
      (n = false → gives .rsq (rlZero false) 0 ∧ gives .sigm (rlInt 1) 0 ∧
        ∀ fn ∈ [SpFn.sqrt, .log2, .log, .exp2, .exp, .gelu, .silu], gives fn (.inf false) 0)) ∧
    (∀ n e, f.value p = .fin n 0 e false →
      gives .rcp (.inf n) 2 ∧ gives .rsq (.inf n) 2 ∧ gives .log2 (.inf true) 2 ∧ gives .log (.inf true) 2 ∧
      gives .sigm (.fin false 1 (-1) false) 0 ∧ (∀ fn ∈ [SpFn.exp2, .exp, .cos], gives fn (rlInt 1) 0) ∧
      ∀ fn ∈ [SpFn.sqrt, .sin, .tanh, .gelu, .silu], gives fn (rlZero n) 0) ∧
    (∀ n q e, q ≠ 0 → f.value p = .fin n q e false →
      let a : ℝ := q * 2 ^ e
      RoundsAs g m n (1 / a) (at_ .rcp) ∧
      (n = true → ∀ fn ∈ [SpFn.rsq, .sqrt, .log2, .log], gives fn .nan 1) ∧
      (n = false → RoundsAs g m false (Real.sqrt a) (at_ .sqrt) ∧ RoundsAs g m false (1 / Real.sqrt a) (at_ .rsq)))) ∧
  (let near (fn : SpFn) (x r : Nat) : Prop := (fn.round .f32 .f32 x .rne).pat = r
   near .exp2 0x3F000000 0x3FB504F3 ∧ near .exp2 0x40400000 0x41000000 ∧ near .exp 0x3F800000 0x402DF854 ∧
   near .exp 0xBF800000 0x3EBC5AB2 ∧ near .log2 0x40400000 0x3FCAE00D ∧ near .log 0x40400000 0x3F8C9F54 ∧
   near .log 0x3F800000 0 ∧ near .sin 0x3F800000 0x3F576AA4 ∧ near .cos 0x3F800000 0x3F0A5140 ∧
   near .tanh 0x3F800000 0x3F42F7D6 ∧ near .sigm 0x3F800000 0x3F3B26A8 ∧ near .sigm 0xBF800000 0x3E89B2B1 ∧
   near .gelu 0x3F800000 0x3F57625F ∧ near .gelu 0xBF800000 0xBE227686 ∧ near .silu 0x3F800000 0x3F3B26A8 ∧
   near .silu 0xBF800000 0xBE89B2B1) ∧
  (∀ (sgn : Bool) (f : Fmt) (v : VIn),
    let b := v.b.lanes 16
    let sel (lo n : Nat) := v.o3.toNat / 2 ^ lo % 2 ^ n
    let ext (w x : Nat) : Nat := if sgn then (signedOf w x % 2 ^ 16).toNat else x
    let second (o : VOut) (l : Nat → Nat) : Prop :=
      ∃ q, o.q = some (.vc q) ∧ ∀ k, k < 64 → laneOf 16 q.toNat k = l k
    let wid := [2, 4, 6, 8].getD (sel 0 2) 0
    (fnUnpk4 sgn v).holds 16 (fun k => ext 4 (elementAt 4 b (128 * sel 0 1 + k))) ∧
    second (fnUnpk4 sgn v) (fun k => ext 4 (elementAt 4 b (128 * sel 0 1 + 64 + k))) ∧
    (fnUnpk6 sgn v).holds 16 (fun k => ext 6 (elementAt 6 b (64 * sel 0 2 + k))) ∧ (fnUnpk6 sgn v).q = none ∧
    (fnUnpk8 sgn v).holds 16 (fun k => ext 8 (elementAt 8 b (64 * sel 0 1 + k))) ∧ (fnUnpk8 sgn v).q = none ∧
    (fnUnpkix v).holds 16 (fun k => elementAt wid b (128 * sel 2 3 + k)) ∧
    second (fnUnpkix v) (fun k => elementAt wid b (128 * sel 2 3 + 64 + k)) ∧
    (fnUnpkE f v).holds 16 (fun k =>
      let g : Fmt := if sel 1 1 = 1 then .f16 else .bf16
      (roundTo g (f.value (elementAt 8 b (64 * sel 0 1 + k))) .rne).pat) ∧ (fnUnpkE f v).q = none ∧
    (fnUnpksn4 v).q = none ∧ (fnUnpksn4 v).rounds 32 (fun k =>
      let e := 32 * sel 0 3 + k
      let sw := v.o2.word.toNat
      let level : Int := [-1024, -712, -536, -404, -292, -188, -92, 0, 80, 164, 252, 344, 448, 576, 744, 1024].getD
        (laneOf 4 (v.b.lanes 32).toNat e) 0
      let s := Fmt.f32.value (sw / 2 ^ 32)
      let x := ((Rl.fin (level < 0) level.natAbs (-10) false).mul (.fin false (laneOf 8 sw (e / 64)) (-8) false)).mul s
      ⟨(roundTo .f32 x .rne).pat, if x.isNaN && !s.isNaN then 1 else 0, false⟩)) ∧
  (∀ (g : Fmt) (rm : PRm) (v : VIn),
    let word := if v.fpc.getLsbD 3 then some v.rnd else none
    let mode (k : Nat) : RMode :=
      match rm, word with
      | .rtz, _ => .rtz
      | .rnes, _ => .sat
      | .sr, some w => .sr ((w.rotateRight (7 * k % 64)).toNat % 65536)
      | _, _ => .rne
    let packs (o : VOut) (f : Fmt) (n first : Nat) (x : Nat → Rounded) : Prop :=
      (∃ r, o.r = some r ∧ (∀ k, k < n → laneOf g.width r.toNat (first + k) = (x k).pat) ∧
        ∀ e, e < 1024 / g.width → (e < first ∨ first + n ≤ e) →
          laneOf g.width r.toNat e = laneOf g.width (v.o1.lanes f.width).toNat e) ∧
      o.fl = (List.range n).foldl (fun a k => a ||| (x k).fl) 0 ∧ o.sub = (List.range n).any (fun k => (x k).sub) ∧
      (rm ≠ .rnes → o.q = none) ∧
      (rm = .rnes → ∃ q : Word, o.q = some (.sc q) ∧
        ∀ k, k < 64 → q.getLsbD k = (decide (k < n) && ((x k).fl &&& 0x20) != 0))
    let lane (f : Fmt) (k : Nat) := roundTo g (f.value (laneOf f.width (v.b.lanes f.width).toNat k)) (mode k)
    (g = .e4m3 ∨ g = .e5m2 →
      (v.o3.getLsbD 2 = true → packs (packE g rm v) .bf16 64 (64 * (v.o3.toNat % 2))
        (fun k => ⟨(lane .bf16 k).pat, (lane .bf16 k).fl, false⟩)) ∧
      (v.o3.getLsbD 2 = false → packs (packE g rm v) .f32 32 (32 * (v.o3.toNat % 4))
        (fun k => ⟨(lane .f32 k).pat, (lane .f32 k).fl, false⟩))) ∧
    (g = .bf16 ∨ g = .f16 → packs (packH g rm v) .f32 32 (32 * (v.o3.toNat % 2))
      (fun k => assistLane g v.fpc (lane .f32 k))))

/-- The integer packs saturate or wrap, and name the lanes they clamped (R148).
For every operand and every selector, the kept elements of PACK4, PACK6, PACK8 and PACKIX: at rm 0 the nearest value
of the target's range, at rm 1 the low bits of the lane; the elements outside the field keep .o1's; at rm 0 .q names
exactly the kept lanes that were clamped, and SAT is set if there is one; at rm 1 no flag is set and .q is left alone.
The range is that of a signed number of 4, 6 or 8 bits for the S forms, and of an unsigned one of the element's width
for the Z forms and PACKIX. -/
def Obligations.IntegerPacks : Prop :=
  ∀ (w first : Nat) (sgn wrap : Bool) (v : VIn), w ∈ [2, 4, 6, 8] → first ≤ 448 →
    let o := packInt (fun _ => w) (fun _ => first) sgn wrap v
    let x (k : Nat) : Int := if sgn then signedOf 16 (laneOf 16 (v.b.lanes 16).toNat k) else laneOf 16 (v.b.lanes 16).toNat k
    let lo : Int := if sgn then -(2 ^ (w - 1)) else 0
    let hi : Int := if sgn then 2 ^ (w - 1) - 1 else 2 ^ w - 1
    let kept (k : Nat) : Bool := (first + k + 1) * w ≤ 1024
    let out (k : Nat) : Bool := x k < lo ∨ hi < x k
    (∃ r, o.r = some r ∧
      (∀ k, k < 64 → kept k = true → laneOf w r.toNat (first + k) =
        ((if wrap then x k else max lo (min hi (x k))) % 2 ^ w).toNat) ∧
      (∀ e, e < 1024 / w → (e < first ∨ first + 64 ≤ e) → laneOf w r.toNat e = laneOf w (v.o1.lanes 16).toNat e)) ∧
    (wrap = true → o.q = none ∧ o.fl = 0) ∧
    (wrap = false → (∃ q : Word, o.q = some (.sc q) ∧ ∀ k, k < 64 → q.getLsbD k = (kept k && out k)) ∧
      o.fl = if (List.range 64).any (fun k => kept k && out k) then 0x20 else 0)

/-- An operation whose result needs the assist traps with a record of it (R120, R347, R360).
For every trigger alone whose operation asks for the assist (a rounded lane is subnormal while FPC.FZW is 0), in every
state in which the bundle is ready and the operation does not wait: exec answers a next state in which the context
halts with cause 4, one record and the argument 1; the record names the unit, the code, FPC, the random word or 0, .o3
and the L - 1 bundles of the operation's latency that remain, and holds the trigger value, .o1 and .o2 as the
operation's lanes read them; no result of the operation is placed, the program counter has passed the bundle, and no
launch is ended. -/
def Obligations.AssistTaken : Prop :=
  ∀ (i : Instr) (b : Fin 16) (t : Nat) (g : Guard) (src : Src) (o : Op) (rec : AssistRec) (s : State),
    trigOf i = some (b, t, g, src) → i.wf = true → opOf i = some o → Ready s g src →
    o.asst (s.reads o.bus src) = some rec → (o.rnd = true → s.issuer.sourceWaits .rnd = false) →
    o.blk (s.reads o.bus src) = false →
    ∃ u : State, exec i s = .next u ∧ u.launch = s.launch ∧
      (u.ctx s.cur).st = .halting ∧ (u.ctx s.cur).trap = some ⟨4, 1, none⟩ ∧ (u.ctx s.cur).assist = [rec] ∧
      (u.ctx s.cur).pc = s.issuer.pc + BitVec.ofNat 64 s.ir ∧ (u.ctx s.cur).pend = (s.moved src o.rnd).pend ∧
      rec.u.val = b.val ∧ rec.t = t ∧ rec.fpc = s.issuer.fpc ∧
      rec.rnd = (if o.rnd then s.issuer.rndWord else 0) ∧ rec.o3 = (s.issuer.latch rec.u).o3 ∧
      (let l := s.issuer.latch rec.u
       let width (n : Nat) : Nat := if n % 8 ∈ [1, 2, 4, 6] then 16 else 32
       let w := if b.val = 5 then 32 else width t
       let cvt : Bool := b.val < 4 ∧ t / 8 = 29
       let dot : Bool := b.val < 4 ∧ t / 8 = 31
       rec.b = (s.issuer.source src).lanes (if cvt then width l.o2.word.toNat else if dot then 16 else w) ∧
       rec.o1 = l.o1.lanes (if cvt || dot then 16 else w) ∧
       rec.o2 = l.o2.lanes (if cvt then 16 else if dot then 32 else w) ∧
       rec.rem = match b.val, t / 8 with
         | 5, _ => 1 | 8, 12 => 15 | 8, _ => 11 | _, 23 => 2 | _, 24 => 5 | _, 27 => 7 | _, 29 => 1 | _, _ => 3)

/-- A fixed-latency load reads memory as its bundle issues (R33, R34, R88, R89, R91).
For LD8S to LD64 and VLD in any alias class, at an aligned address that is local, in every state in which the bundle
is ready and no operation is outstanding that a WAIT has shown complete: where DBG is 0, no byte of the access lies in
a granule that an engine owns and none is behind an outstanding access of the context, exec answers the next state in
which MU.r becomes visible four bundles later with the bytes read at issue, sign- or zero-extended to 64 bits, bits
1023 to 64 zero, or all 128 bytes for VLD. -/
def Obligations.FixedLoads : Prop :=
  ∀ (g : Guard) (src : Src) (a : Fin 4) (s : State) (k : Nat), Ready s g src → s.unfenced →
    let i := s.reads 6 src
    let m := s.boundaryState.mem
    let loads (j : Instr) (n : Nat) (r : Vec) : Prop :=
      i.b.word.toNat % n = 0 → fixedKey s.boundaryState s.cur.core i.b.word = some k → s.issuer.dbg = 0 →
      (∀ x, x < n → s.boundaryState.engineOwns (granuleOf (k + x)) = false) →
      (∀ x, x < n → x % 4 = 0 → behindAccess s.boundaryState s.cur s.issuer.seq a (k + x) (min n 4) = false) →
      exec j s = .next (s.afterResult src false 6 4 (some (.vc r)) none 0)
    let zero (n : Nat) : Vec := BitVec.ofNat 1024 (m.nat k n)
    let sign (n : Nat) : Vec := (BitVec.ofInt 64 (signedOf (8 * n) (m.nat k n))).setWidth 1024
    loads (.ld8s g src a) 1 (sign 1) ∧ loads (.ld8z g src a) 1 (zero 1) ∧
    loads (.ld16s g src a) 2 (sign 2) ∧ loads (.ld16z g src a) 2 (zero 2) ∧
    loads (.ld32s g src a) 4 (sign 4) ∧ loads (.ld32z g src a) 4 (zero 4) ∧
    loads (.ld64 g src a) 8 (zero 8) ∧ loads (.vld g src a) 128 (zero 128)

/-- A fixed-latency store takes its data at its bundle and writes nothing before its perform point (R33, R88, R89, R91).
For ST8 to ST64 and VST in any alias class, at an aligned address that is local, in every state in which the bundle is
ready and no operation is outstanding that a WAIT has shown complete: where DBG.OWN is 0, no byte that it writes lies
in a granule that an engine owns and none is behind an outstanding access, exec answers the next state in which the
context holds one store more, with the bytes of .o1 (of the lanes that .o3 enables, for VST) at the address of the
source, to perform four bundles later. Every byte of memory reads as at the bundle boundary. -/
def Obligations.FixedStores : Prop :=
  ∀ (g : Guard) (src : Src) (a : Fin 4) (s : State) (k : Nat), Ready s g src → s.unfenced →
    let i := s.reads 6 src
    let stores (j : Instr) (n : Nat) (on : Nat → Bool) (ws : List (Nat × Byte)) : Prop :=
      i.b.word.toNat % n = 0 → fixedKey s.boundaryState s.cur.core i.b.word = some k → s.issuer.dbgOwn = false →
      (∀ x, x < n → on (x / 4) = true → s.boundaryState.engineOwns (granuleOf (k + x)) = false) →
      (∀ x, x < n → x % 4 = 0 → on (x / 4) = true → behindAccess s.boundaryState s.cur s.issuer.seq a (k + x) (min n 4) = false) →
      exec j s = .next (s.afterCtx src false (fun c =>
        { c with stores := c.stores ++ [{ seq := c.seq, a := a, wr := ws, rem := 3 }], seq := c.seq + 1 })) ∧
      ∀ (u : State) (x : Nat), exec j s = .next u → u.mem.get x = s.boundaryState.mem.get x
    stores (.st8 g src a) 1 (fun _ => true) (pairsAt k (leBytes 1 i.o1.word.toNat)) ∧
    stores (.st16 g src a) 2 (fun _ => true) (pairsAt k (leBytes 2 i.o1.word.toNat)) ∧
    stores (.st32 g src a) 4 (fun _ => true) (pairsAt k (leBytes 4 i.o1.word.toNat)) ∧
    stores (.st64 g src a) 8 (fun _ => true) (pairsAt k (leBytes 8 i.o1.word.toNat)) ∧
    stores (.vst g src a) 128 (fun j => i.o3.getLsbD j) (((List.range 32).filter (fun j => i.o3.getLsbD j)).flatMap (fun j =>
      pairsAt (k + 4 * j) (leBytes 4 (laneOf 32 (i.o1.lanes 32).toNat j))))

/-- Class M accesses outside their reach, misaligned, unmapped or under DBG trap before any effect (R16, R59, R88, R92, R93, R94, R96, R103, R347).
For every fixed-latency load and store of 1, 2, 4, 8 or 128 bytes, in every state in which the bundle is ready: where
its address is no multiple of its size, or lies neither in own core scratchpad outside every window's backing nor in
the own cluster-shared slice, exec answers the state in which the trap with cause 3 and the address as argument is
taken at the boundary: no move takes effect. The same for VLDL and VSTL with a lane offset that is no multiple of 4
below 1024 (the argument, which the spec does not state, is a free value), for VGATH and VSCAT from a base that is no
local multiple of 4, for VSCAT with an enabled lane that addresses no word (the argument is the lowest such lane's
address), for LDX, VLDX, STX, VSTX and the AMOs at a misaligned address or one in no window (of a CSC, window 0x80 is
none: log entry 19), and for an AMO at a global one; LDX, VLDX, STX and VSTX at an aligned global address that no
active window covers raise FATAL_UNMAPPED with it (that ADDRCLASS goes before FATAL_UNMAPPED is the model's choice,
log entry 66). With DBG.OWN 1, a fixed-latency access that reads or writes a granule that an engine owns raises
OWNER_DBG with the granule's address; with DBG.PEND 1, a load that reads a word whose own store is pending raises
PEND_DBG with the word's address, or, in a lane slice, the code of R103 (that OWNER_DBG goes first and that the lowest
word or lane is reported is the model's choice, log entry 66). -/
def Obligations.MisalignedTraps : Prop :=
  ∀ (g : Guard) (src : Src) (a : Fin 4) (s : State), Ready s g src →
    let x := (s.reads 6 src).b.word
    let traps (j : Instr) (n : Nat) : Prop :=
      (x.toNat % n ≠ 0 ∨ fixedKey s.boundaryState s.cur.core x = none) →
      exec j s = s.trapsAt 3 x
    traps (.ld8s g src a) 1 ∧ traps (.ld8z g src a) 1 ∧ traps (.ld16s g src a) 2 ∧ traps (.ld16z g src a) 2 ∧
    traps (.ld32s g src a) 4 ∧ traps (.ld32z g src a) 4 ∧ traps (.ld64 g src a) 8 ∧ traps (.vld g src a) 128 ∧
    traps (.st8 g src a) 1 ∧ traps (.st16 g src a) 2 ∧ traps (.st32 g src a) 4 ∧ traps (.st64 g src a) 8 ∧
    traps (.vst g src a) 128 ∧
    (let i := s.reads 6 src
     let lane (k : Nat) : Nat := laneOf 32 (i.b.lanes 32).toNat k
     let p := i.o2.word
     let size := 2 ^ (i.o2.word.toNat % 4)
     let on (k : Nat) : Bool := i.o3.getLsbD k
     let first (P : Nat → Prop) (k : Nat) : Prop := P k ∧ ∀ j, j < k → ¬ P j
     let owned (k : Nat) : Prop := s.boundaryState.engineOwns (k / 1024) = true
     let all (_ : Nat) : Bool := true
     ((∃ k, k < 32 ∧ (lane k % 4 ≠ 0 ∨ 1024 ≤ lane k)) →
       exec (.vldl g src a) s = s.trapsAt 3 s.boundaryState.freeWord ∧
       exec (.vstl g src a) s = s.trapsAt 3 s.boundaryState.freeWord) ∧
     ((p.toNat % 4 ≠ 0 ∨ fixedKey s.boundaryState s.cur.core p = none) →
       exec (.vgath g src a) s = s.trapsAt 3 p ∧ exec (.vscat g src a) s = s.trapsAt 3 p) ∧
     (i.baseLoc.isSome = true → ∀ k, first (fun k => k < 32 ∧ on k = true ∧ i.lanePlace (lane k) = none) k →
       exec (.vscat g src a) s = s.trapsAt 3 (p + BitVec.ofNat 64 (lane k))) ∧
     (let reach (j : Instr) (n : Nat) (amo : Bool) : Prop :=
        ((x.toNat % n ≠ 0 ∨ locOf s.cur.core x = .bad ∨ (amo = true ∧ canonical x = true)) → exec j s = s.trapsAt 3 x) ∧
        (amo = false → x.toNat % n = 0 → canonical x = true →
          (s.boundaryState.core s.cur.core).coverOf x = none → exec j s = s.trapsAt 5 x)
      reach (.ldx g src a) size false ∧ reach (.vldx g src a) 128 false ∧ reach (.stx g src a) size false ∧
      reach (.vstx g src a) 128 false ∧ reach (.amoadd g src a) 8 true ∧ reach (.amomin g src a) 8 true ∧
      reach (.amomax g src a) 8 true ∧ reach (.amoswap g src a) 8 true ∧ reach (.amocas g src a) 8 true ∧
      reach (.amofadd g src a) 4 true) ∧
     (let debug (j : Instr) (n : Nat) (load : Bool) (on : Nat → Bool) : Prop :=
        ∀ k w, x.toNat % n = 0 → fixedKey s.boundaryState s.cur.core x = some k →
          let word (w : Nat) : Prop := w < (n + 3) / 4 ∧ on w = true
          (s.issuer.dbgOwn = true → first (fun w => word w ∧ owned (k + 4 * w)) w →
            exec j s = s.trapsAt 7 ((x + BitVec.ofNat 64 (4 * w)) &&& ~~~0x3FF)) ∧
          (load = true → s.issuer.dbgPend = true → (s.issuer.dbgOwn = true → ∀ w, word w → ¬ owned (k + 4 * w)) →
            first (fun w => word w ∧ s.issuer.wordPending (k + 4 * w) = true) w →
            exec j s = s.trapsAt 8 ((x + BitVec.ofNat 64 (4 * w)) &&& ~~~3))
      debug (.ld8s g src a) 1 true all ∧ debug (.ld8z g src a) 1 true all ∧ debug (.ld16s g src a) 2 true all ∧
      debug (.ld16z g src a) 2 true all ∧ debug (.ld32s g src a) 4 true all ∧ debug (.ld32z g src a) 4 true all ∧
      debug (.ld64 g src a) 8 true all ∧ debug (.vld g src a) 128 true all ∧ debug (.st8 g src a) 1 false all ∧
      debug (.st16 g src a) 2 false all ∧ debug (.st32 g src a) 4 false all ∧ debug (.st64 g src a) 8 false all ∧
      debug (.vst g src a) 128 false on) ∧
     ((∀ k, k < 32 → lane k % 4 = 0 ∧ lane k < 1024) → s.issuer.dbgPend = true →
       ∀ k, first (fun k => k < 32 ∧ s.issuer.wordPending (laneKey s.cur.core.val k (lane k)) = true) k →
         exec (.vldl g src a) s = s.trapsAt 8 (BitVec.ofNat 64 (0x84 * 2 ^ 56 + 0x400 * k + lane k))) ∧
     (i.baseLoc.isSome = true →
       (s.issuer.dbgOwn = true → ∀ k q, first (fun k => k < 32 ∧ ∃ q, i.lanePlace (lane k) = some q ∧ owned q) k →
         i.lanePlace (lane k) = some q →
         exec (.vgath g src a) s = s.trapsAt 7 ((p + BitVec.ofNat 64 (lane k)) &&& ~~~0x3FF)) ∧
       (s.issuer.dbgOwn = true → (∀ k, k < 32 → on k = true → (i.lanePlace (lane k)).isSome = true) →
         ∀ k, first (fun k => k < 32 ∧ on k = true ∧ ∃ q, i.lanePlace (lane k) = some q ∧ owned q) k →
         exec (.vscat g src a) s = s.trapsAt 7 ((p + BitVec.ofNat 64 (lane k)) &&& ~~~0x3FF)) ∧
       (s.issuer.dbgPend = true → s.issuer.dbgOwn = false →
         ∀ k, first (fun k => k < 32 ∧ ∃ q, i.lanePlace (lane k) = some q ∧ s.issuer.wordPending q = true) k →
         exec (.vgath g src a) s = s.trapsAt 8 ((p + BitVec.ofNat 64 (lane k)) &&& ~~~3))))

/-- VLDL, VSTL, VGATH and VSCAT (R88, R89, R91, R92, R93).
In every state in which the bundle is ready, with DBG 0 and no operation outstanding that a WAIT has shown complete:
where every lane's offset is a multiple of 4 below 1024, VLDL leaves the words of the 32 lane slices at those offsets
in MU.r after two bundles, and VSTL holds a store of the enabled lanes' words, to perform two bundles later. From a
base that is local and a multiple of 4, with no engine-owned granule and no outstanding access in the way of a lane,
VGATH leaves each lane's word after four bundles, zero with a bit of .q set for each lane that is misaligned, outside
the window or in a window's backing; VSCAT, where every enabled lane addresses a word, holds a store of the enabled
lanes' words in rising lane order. No byte of memory changes yet. -/
def Obligations.LanesGathersScatters : Prop :=
  ∀ (g : Guard) (src : Src) (a : Fin 4) (s : State), Ready s g src → s.issuer.dbg = 0 → s.unfenced →
    let i := s.reads 6 src
    let m := s.boundaryState.mem
    let lane (x : Val) (k : Nat) : Nat := laneOf 32 (x.lanes 32).toNat k
    let place (k o : Nat) : Nat := laneKey s.cur.core.val k o
    let holds (lat : Nat) (ws : List (Nat × Byte)) : State :=
      s.afterCtx src false (fun c =>
        { c with stores := c.stores ++ [{ seq := c.seq, a := a, wr := ws, rem := lat - 1 }], seq := c.seq + 1 })
    ((∀ k, k < 32 → lane i.b k % 4 = 0 ∧ lane i.b k < 1024) →
      exec (.vldl g src a) s = .next (s.afterResult src false 6 2
        (some (.vc (vecOf 32 ((List.range 32).map (fun k => m.nat (place k (lane i.b k)) 4))))) none 0) ∧
      exec (.vstl g src a) s = .next (holds 2 (((List.range 32).filter (fun k => i.o3.getLsbD k)).flatMap (fun k =>
        pairsAt (place k (lane i.b k)) (leBytes 4 (lane i.o1 k)))))) ∧
    (i.baseLoc.isSome = true →
      (let at' (k : Nat) : Option Nat := i.lanePlace (lane i.b k)
       let free (k : Nat) : Prop := ∀ x, at' k = some x → s.boundaryState.engineOwns (granuleOf x) = false ∧
         behindAccess s.boundaryState s.cur s.issuer.seq a x 4 = false
       ((∀ k, k < 32 → free k) → exec (.vgath g src a) s = .next (s.afterResult src false 6 4
          (some (.vc (vecOf 32 ((List.range 32).map (fun k => ((at' k).map (fun x => m.nat x 4)).getD 0)))))
          (some (.sc (bitsOf ((List.range 32).map (fun k => (at' k).isNone))))) 0)) ∧
       ((∀ k, k < 32 → i.o3.getLsbD k = true → free k ∧ (at' k).isSome = true) →
        exec (.vscat g src a) s = .next (holds 4 (((List.range 32).filter (fun k => i.o3.getLsbD k)).flatMap (fun k =>
          pairsAt ((at' k).getD 0) (leBytes 4 (lane i.o1 k))))))))

/-- LDX, VLDX, STX, VSTX, the AMOs and DRAIN enter the scoreboard (R73, R88, R94, R95, R96, R102).
In every state in which the bundle is ready, and for the accesses no operation is outstanding that a WAIT has shown
complete: where the operation's address is aligned and reaches a local window (of a CSC, not window 0x80: log entry
19), or, for LDX to VSTX, a global address that an active window covers, where fewer than 32 operations are counted in
its counter and its register is not pending, exec answers the next state in which the context holds the operation
last, at its place in the trigger order, with what it captured; ld or st is one more; and the destination register of
a load or an AMO is pending (s0 never is). DRAIN needs no address. Memory is as at the boundary. -/
def Obligations.ScoreboardedTriggers : Prop :=
  ∀ (g : Guard) (src : Src) (a : Fin 4) (s : State), Ready s g src →
    let i := s.reads 6 src
    let x := i.b.word
    let n := 2 ^ (i.o2.word.toNat % 4)
    let rd : Fin 64 := Fin.ofNat 64 (i.o1.word.toNat % 64)
    let ra : Fin 64 := Fin.ofNat 64 (i.o3.toNat % 64)
    let vd : Fin 32 := Fin.ofNat 32 (i.o1.word.toNat % 32)
    let size : Fin 4 := Fin.ofNat 4 (i.o2.word.toNat % 4)
    let win := (s.boundaryState.core s.cur.core).coverOf x
    let reach : Prop := match locOf s.cur.core x with | .bad => False | .glob _ => win.isSome = true | _ => True
    let near : Prop := match locOf s.cur.core x with | .bad => False | .glob _ => False | _ => True
    let enters (j : Instr) (ld : Bool) (kind : SbKind) (w : Option (Fin 8)) (y : Word) (cl : Fin 4) (pend : Ctx → Ctx) : Prop :=
      exec j s = .next (s.afterCtx src false (fun c => let c := c.note (if ld then 0 else 1); pend
        { c with sb := c.sb ++ [{ seq := c.seq, kind := kind, a := cl, addr := y, win := w }], seq := c.seq + 1,
                 ld := if ld then c.ld + 1 else c.ld, stc := if ld then c.stc else c.stc + 1 }))
    (s.unfenced → x.toNat % n = 0 → reach → s.issuer.ld < 32 → s.issuer.pendS.getLsbD rd.val = false →
      enters (.ldx g src a) true (.ldx size (i.o2.word.getLsbD 2) rd) win x a (fun c => c.pendingS rd true)) ∧
    (s.unfenced → x.toNat % 128 = 0 → reach → s.issuer.ld < 32 → s.issuer.pendV.getLsbD vd.val = false →
      enters (.vldx g src a) true (.vldx vd) win x a (fun c => c.pendingV vd true)) ∧
    (s.unfenced → x.toNat % n = 0 → reach → s.issuer.stc < 32 →
      enters (.stx g src a) false (.stx size i.o1.word) win x a (fun c => c)) ∧
    (s.unfenced → x.toNat % 128 = 0 → reach → s.issuer.stc < 32 →
      enters (.vstx g src a) false (.vstx (i.o1.lanes 32) (i.o3.setWidth 32)) win x a (fun c => c)) ∧
    (s.unfenced → near → s.issuer.ld < 32 → s.issuer.pendS.getLsbD ra.val = false →
      (x.toNat % 8 = 0 →
        enters (.amoadd g src a) true (.amoAdd i.o1.word ra) win x a (fun c => c.pendingS ra true) ∧
        enters (.amomin g src a) true (.amoMin i.o1.word ra) win x a (fun c => c.pendingS ra true) ∧
        enters (.amomax g src a) true (.amoMax i.o1.word ra) win x a (fun c => c.pendingS ra true) ∧
        enters (.amoswap g src a) true (.amoSwap i.o1.word ra) win x a (fun c => c.pendingS ra true) ∧
        enters (.amocas g src a) true (.amoCas i.o1.word i.o2.word ra) win x a (fun c => c.pendingS ra true)) ∧
      (x.toNat % 4 = 0 →
        enters (.amofadd g src a) true (.amoFadd (i.o1.word.setWidth 32) ra) win x a (fun c => c.pendingS ra true))) ∧
    (s.issuer.stc < 32 → enters (.drain g src a) false (.drain a) none 0 0 (fun c => c))

/-- MAP, UNMAP and OWNSET (R59, R97, R98, R99, R101).
In every state in which the bundle is ready: a MAP of a stream core (not of a CSC, which has no backing for it: log
entry 19), of a canonical multiple of 2^GLOG with SLOG from 12 to 16 and GLOG from SLOG to 48, a backing that is a
multiple of its size and ends at or below 0x27F00, in a slot in no use, whose range and backing meet no other window's
(active, or configured by a MAP not yet in force), with at most 64 KiB of backing in all, and whose slot and backing
no window on its way out still holds (log entry 24), is in force after three more bundles with the slot, range,
backing and SHARED bit of .o1 and the source; an UNMAP of an active slot is counted in st and its window stops
covering its range at once, and an UNMAP of a slot in no use, or already being unmapped, changes nothing; an OWNSET of
1 to 64 granules from a multiple of 1 KiB that stay in own scratchpad, the own cluster-shared slice or chip scratchpad
(of a CSC, in chip scratchpad: log entry 19), and, for a grant, with a count from 1 that takes no granule above 255
once the OWNSETs already issued are in force (log entry 64), is in force after three more bundles; a reclaim waits for
an engine access that is performing on one of them. Every other MAP or OWNSET raises ADDRCLASS. -/
def Obligations.WindowAndOwnerTriggers : Prop :=
  ∀ (g : Guard) (src : Src) (s : State), Ready s g src →
    let i := s.reads 6 src
    let b := s.boundaryState
    let x := i.o1.word
    let slot : Fin 8 := Fin.ofNat 8 (i.b.word.toNat % 8)
    let later (k : ApplyKind) : State :=
      s.afterCtx src false (fun c => { c with applies := c.applies ++ [{ kind := k, rem := 3 }] })
    let traps := s.trapsAt 3 i.b.word
    let glog := x.toNat / 2 ^ 12 % 64
    let slog := x.toNat / 2 ^ 8 % 16
    let boff := x.toNat / 2 ^ 20 % 2 ^ 18
    let mapSlot : Fin 8 := Fin.ofNat 8 (x.toNat % 8)
    let apart (a n c m : Nat) : Prop := a + n ≤ c ∨ c + m ≤ a
    let others := mapped b s.cur.core
    let allowed : Prop :=
      s.cur.core.val < 4096 ∧ canonical i.b.word = true ∧ i.b.word.toNat % 2 ^ glog = 0 ∧ 12 ≤ slog ∧ slog ≤ 16 ∧ slog ≤ glog ∧ glog ≤ 48 ∧
      boff % 2 ^ slog = 0 ∧ boff + 2 ^ slog ≤ 0x27F00 ∧
      (∀ p ∈ others, p.2.dying = false → p.1 ≠ mapSlot ∧ apart i.b.word.toNat (2 ^ glog) p.2.g0.toNat (2 ^ p.2.glog) ∧
        apart boff (2 ^ slog) p.2.boff (2 ^ p.2.slog)) ∧
      ((others.filter (fun p => !p.2.dying)).map (fun p => 2 ^ p.2.slog)).sum + 2 ^ slog ≤ 0x10000
    (allowed → (∀ p ∈ others, p.2.dying = true → p.1 ≠ mapSlot ∧ apart boff (2 ^ slog) p.2.boff (2 ^ p.2.slog)) →
      exec (.map g src) s = .next (later (.map mapSlot i.b.word glog slog boff (x.getLsbD 3)))) ∧
    (¬ allowed → exec (.map g src) s = traps) ∧
    (let ng := x.toNat / 2 ^ 16 % 256
     let cnt := x.toNat / 256 % 256
     let base : Option (Nat × Nat) := match classify i.b.word with
       | .own o => if s.cur.core.val < 4096 ∧ o + 1024 * ng ≤ 0x28000 then some (coreKey s.cur.core.val 0, o) else none
       | .slice n o => if s.cur.core.val < 4096 ∧ n = s.cur.core.val % 256 ∧ o + 1024 * ng ≤ 0x10000
           then some (sliceKey s.cur.core.val 0, o) else none
       | .chip o => if o + 1024 * ng ≤ 0x4000000 then some (chipKey 0, o) else none
       | _ => none
     let takes (k : Nat × Nat) : Prop := i.b.word.toNat % 1024 = 0 ∧ 1 ≤ ng ∧ ng ≤ 64 ∧ base = some k ∧
       (x.getLsbD 0 = true → 0 < cnt ∧ ∀ j, j < ng → ownGet b.ownAhead ((k.1 + k.2) / 1024 + j) + cnt ≤ 255)
     (∀ k, takes k → (x.getLsbD 0 = false → ∀ j, j < ng → b.granuleBusy ((k.1 + k.2) / 1024 + j) = false) →
       exec (.ownset g src) s =
         .next (later (.own ((List.range ng).map (fun j => (k.1 + k.2) / 1024 + j)) (x.getLsbD 0) cnt))) ∧
     ((¬ ∃ k, takes k) → exec (.ownset g src) s = traps)) ∧
    (s.issuer.stc < 32 →
      (∀ w, (b.core s.cur.core).wins.get slot = some w → w.dying = false →
        exec (.unmap g src) s = .next (s.afterMove src false (fun t =>
          (t.modCore s.cur.core (fun k => k.modWin slot (fun w => { w with dying := true }))).modCtx s.cur
            (fun c => c.addSb false (.unmap slot) 0 0 none)))) ∧
      ((∀ w, (b.core s.cur.core).wins.get slot = some w → w.dying = true) →
        exec (.unmap g src) s = .next (s.afterMove src false (fun t => t))))

/-- What an AMO computes, in one step, at its memory (R96).
In memory of canonical form, for every AMO in the scoreboard of a context that has tried a bundle since it (R300),
whose turn has come and whose location is no engine's: AMO_PERFORM answers the next state in which the location holds
the table's new value of the old value m and the operand v (the sum modulo 2^64; the smaller or larger as signed
numbers; v; v where m equals the compare value, else m; the F32 sum rounded to nearest, for AMOFADD), the destination
register has the old value and is no longer pending, the operation has left the scoreboard, ld is one less, and every
other byte of memory reads as before. -/
def Obligations.AtomicMemoryOperations : Prop :=
  ∀ (s : State) (o : SbOp) (k : Nat),
    let cid := s.act.cid
    let c := s.ctx cid
    s.Inv → c.sbAt s.act.num = some o → o.kind.isAmo = true → c.young o.seq = false → sbTurn s cid o = true → sbTarget s cid o = .at k →
    let n := match o.kind with | .amoFadd _ _ => 4 | _ => 8
    let m := s.mem.nat k n
    let w : Word := BitVec.ofNat 64 m
    let new : Nat × Fin 64 := match o.kind with
      | .amoAdd v rd => ((m + v.toNat) % 2 ^ 64, rd)
      | .amoMin v rd => ((if w.toInt ≤ v.toInt then w else v).toNat, rd)
      | .amoMax v rd => ((if w.toInt ≤ v.toInt then v else w).toNat, rd)
      | .amoSwap v rd => (v.toNat, rd)
      | .amoCas v cmp rd => (if w = cmp then v.toNat else m, rd)
      | .amoFadd v rd => ((roundTo .f32 ((Fmt.f32.value m).add false (Fmt.f32.value v.toNat)) .rne).pat, rd)
      | _ => (0, 0)
    ∃ u : State, exec .amoPerform s = .next u ∧ u.mem.nat k n = new.1 % 256 ^ n ∧
      (∀ x, x < k ∨ k + n ≤ x → u.mem.get x = s.mem.get x) ∧
      u.ctx cid = (c.landS new.2 w).dropSb o.seq true ∧ (∀ d, d ≠ cid → u.ctx d = s.ctx d)

/-- What LDX, VLDX, STX and VSTX do at their memory (R94, R100, R300).
In memory of canonical form, for an access in the scoreboard of a context whose turn has come (a load's once the
context has tried a bundle since it) and whose bytes stand at a key: SCOREBOARDED_ACCESS_PERFORM answers the next
state in which a load's register has the bytes, extended, and is no longer pending; a store's bytes (of the enabled
lanes, for VSTX) are in memory and every other byte reads as before, where its page permits writing; a store through a
window gives its line scope CORE; and the operation has left the scoreboard and its counter. Where the page of the
line forbids its first store, memory is unchanged, the operation is over and FATAL_UNPROBED falls due; while the
host's reply for that page is awaited the store waits. -/
def Obligations.ScoreboardedAccesses : Prop :=
  ∀ (s : State) (o : SbOp) (k : Nat),
    let cid := s.act.cid
    let c := s.ctx cid
    s.Inv → c.sbAt s.act.num = some o → sbTurn s cid o = true → sbTarget s cid o = .at k →
    let same (u : State) : Prop := ∀ x, u.mem.get x = s.mem.get x
    let fate := windowFate s cid o.win o.addr
    let fails (u : State) : Prop := same u ∧ u.ctx cid = (c.dropSb o.seq false).unprobed o.addr
    let marks (u : State) : Prop := ∀ i w l, o.win = some i → (s.core cid.core).wins.get i = some w →
      w.hit o.addr = some l → ∃ w' l', (u.core cid.core).wins.get i = some w' ∧ w'.hit o.addr = some l' ∧ l'.scope = .core
    (∀ z sgn rd, o.kind = .ldx z sgn rd → c.young o.seq = false →
      ∃ u, exec .scoreboardedAccessPerform s = .next u ∧ same u ∧ u.ctx cid = (c.landS rd
        (if sgn then BitVec.ofInt 64 (signedOf (8 * 2 ^ z.val) (s.mem.nat k (2 ^ z.val)))
         else BitVec.ofNat 64 (s.mem.nat k (2 ^ z.val)))).dropSb o.seq true) ∧
    (∀ rd, o.kind = .vldx rd → c.young o.seq = false →
      ∃ u, exec .scoreboardedAccessPerform s = .next u ∧ same u ∧
        u.ctx cid = (c.landV rd (BitVec.ofNat 1024 (s.mem.nat k 128))).dropSb o.seq true) ∧
    (∀ z d, o.kind = .stx z d → fate ≠ .wait →
      ∃ u, exec .scoreboardedAccessPerform s = .next u ∧
        ((∃ h, fate = .ok h) → marks u ∧
          u.mem.nat k (2 ^ z.val) = d.toNat % 256 ^ (2 ^ z.val) ∧
          (∀ x, x < k ∨ k + 2 ^ z.val ≤ x → u.mem.get x = s.mem.get x) ∧ u.ctx cid = c.dropSb o.seq false) ∧
        ((∀ h, fate ≠ .ok h) → fails u)) ∧
    ((∃ z d, o.kind = .stx z d) ∨ (∃ d mask, o.kind = .vstx d mask) → fate = .wait →
      exec .scoreboardedAccessPerform s = .next s) ∧
    (∀ d mask, o.kind = .vstx d mask → fate ≠ .wait →
      ∃ u, exec .scoreboardedAccessPerform s = .next u ∧
        ((∃ h, fate = .ok h) → marks u ∧
          (∀ j, j < 32 → u.mem.nat (k + 4 * j) 4 =
            if mask.getLsbD j then laneOf 32 d.toNat j else s.mem.nat (k + 4 * j) 4) ∧
          (∀ x, x < k ∨ k + 128 ≤ x → u.mem.get x = s.mem.get x) ∧ u.ctx cid = c.dropSb o.seq false) ∧
        ((∀ h, fate ≠ .ok h) → fails u))

/-- BR, BRC, BRNC, RET, CALL, LOOP and LOOPI (R39, R69, R70, R72).
In every state in which the bundle is ready and no transfer, EXIT or HALT is pending: BR and RET leave a pending
transfer to the source's value that takes effect after two further bundles; BRC does where its predicate is 1 and BRNC
where it is 0, once it has landed, and otherwise they leave none; CALL does, where the two bundles after its own are
in the instruction cache, and writes s63 with the address that follows them, also while s63 is pending (that it does
not wait then is the model's choice, log entry 67); LOOP and LOOPI branch as R72's two tables say and leave, for the
point after two further bundles, the new LC, EC.CNT and window. Nothing else changes. -/
def Obligations.ControlTransfers : Prop :=
  ∀ (g : Guard) (src : Src) (s : State), Ready s g src → s.issuer.xfer = none →
    let c := s.issuer
    let b := (s.reads 7 src).b.word
    let ic := (s.boundaryState.core s.cur.core).icache
    let next (f : Ctx → Ctx) : Host.Outcome State Fault Refusal := .next (s.afterCtx src false f)
    let go (c : Ctx) : Ctx := { c with xfer := some { kind := .transfer, target := b, left := 2 } }
    let when' (p : Bool) (c : Ctx) : Ctx := if p then go c else c
    let rot (v : Bool) : BitVec 8 × BitVec 3 :=
      let base := c.psB - 1
      (BitVec.ofNat 8 (((List.range 8).map (fun k =>
        (if k = base.toNat then v else c.psP.getLsbD k).toNat * 2 ^ k)).sum), base)
    let loops (i : Instr) (l : LoopSt) (taken : Bool) : Prop :=
      exec i s = next (fun d => when' taken { d with loop := d.loop ++ [l] })
    exec (.br g src) s = next go ∧ exec (.ret g src) s = next go ∧
    (∀ j : Fin 4, c.pendC.getLsbD j.val = false →
      exec (.brc g src j) s = .next (s.afterMove src false (fun t =>
        if c.c.get j then t.modCtx s.cur go else t)) ∧
      exec (.brnc g src j) s = .next (s.afterMove src false (fun t =>
        if c.c.get j then t else t.modCtx s.cur go))) ∧
    (∀ n m : Nat, lenAt ic (c.pc + BitVec.ofNat 64 s.ir) = some n →
      lenAt ic (c.pc + BitVec.ofNat 64 s.ir + BitVec.ofNat 64 n) = some m →
      exec (.call g src) s = next (fun d =>
        go (d.writeS 63 (c.pc + BitVec.ofNat 64 s.ir + BitVec.ofNat 64 n + BitVec.ofNat 64 m)))) ∧
    (c.lc ≠ 0 →
      loops (.loop g src) { lc := some (c.lc - 1), cnt := none, win := none, rem := 2 } true ∧
      loops (.loopi g src) { lc := some (c.lc - 1), cnt := none, win := some (rot true), rem := 2 } true) ∧
    (c.lc = 0 →
      loops (.loop g src) { lc := none, cnt := none, win := none, rem := 2 } false ∧
      (1 < c.ecCnt.toNat →
        loops (.loopi g src) { lc := none, cnt := some (c.ecCnt - 1), win := some (rot false), rem := 2 } true) ∧
      (c.ecCnt = 1 →
        loops (.loopi g src) { lc := none, cnt := some 0, win := some (rot false), rem := 2 } false) ∧
      (c.ecCnt = 0 → loops (.loopi g src) { lc := none, cnt := none, win := none, rem := 2 } false))

/-- A control transfer within two bundles of a pending one is illegal (R38, R39, R69, R72, R77, R78, R350).
In every state in which the bundle is ready and a control transfer, EXIT or HALT is pending: BR, RET, CALL, EXIT and
HALT, a BRC or BRNC whose predicate has landed and would take it, a LOOP that would branch, a LOOPI that would (with
LC not 0, or with LC 0 and EC.CNT above 1), and an ERET raise ILLEG with the bundle's address, before any effect. -/
def Obligations.SecondTransferIllegal : Prop :=
  ∀ (g : Guard) (src : Src) (s : State), Ready s g src → s.issuer.xfer.isSome = true →
    let c := s.issuer
    let illeg : Host.Outcome State Fault Refusal := .next (s.trapped 1 c.pc)
    exec (.br g src) s = illeg ∧ exec (.ret g src) s = illeg ∧ exec (.call g src) s = illeg ∧
    exec (.exit g src) s = illeg ∧ exec (.halt g src) s = illeg ∧
    (∀ j : Fin 4, c.pendC.getLsbD j.val = false →
      (c.c.get j = true → exec (.brc g src j) s = illeg) ∧ (c.c.get j = false → exec (.brnc g src j) s = illeg)) ∧
    (c.lc ≠ 0 → exec (.loop g src) s = illeg ∧ exec (.loopi g src) s = illeg) ∧
    (c.lc = 0 → 1 < c.ecCnt.toNat → exec (.loopi g src) s = illeg) ∧ exec (.eret g src) s = illeg

/-- The stage predicates rotate (R71).
In every context, psi is P[(i + B) mod 8]. The rotation that a LOOPI decides sets B to B - 1 modulo 8 and ps0 to the
new value, and each psi from 1 to 7 is what ps(i - 1) was. PSW reads the window in bits 7 to 0, bit i being psi, B in
bits 10 to 8 and zero above. -/
def Obligations.StagePredicates : Prop :=
  ∀ (c : Ctx) (v : Bool),
    let d : Ctx := { c with psP := (c.rotate v).1, psB := (c.rotate v).2 }
    (∀ i, i < 8 → c.ps i = c.psP.getLsbD ((i + c.psB.toNat) % 8)) ∧
    d.psB.toNat = (c.psB.toNat + 7) % 8 ∧ d.ps 0 = v ∧ (∀ i, i < 7 → d.ps (i + 1) = c.ps i) ∧
    (∀ i, i < 8 → c.psw.getLsbD i = c.ps i) ∧ (c.psw.extractLsb' 8 3) = c.psB ∧ (c.psw.extractLsb' 11 53) = 0

/-- CSRRD and CSRWR (R71, R80, R81, R82, R83, R84, R103, R171, R262, R351).
In every state in which the bundle is ready: a CSRRD of a number from 0 to 14 other than TIME, or of SAVEA in a CSC,
answers the next state in which CU.r becomes visible two bundles later with the register's value: FPC, STAT zero-
extended, KPOL, IXPOL, LC, EC (the base, the window and CNT), GMEM (the groups of the slots with their valid bits),
CTXINFO (the device, cluster, core and context numbers; those of a CSC's context are the model's choice, log entry
19), DBG, RBSEED, RBQST (the queue's fill and the number of the next word), CWM, JOINP, PASID and SAVEA; a CSRRD of
TIME gives the device's count after it has been brought up to date (by as much as the model leaves open, log entry
10). A CSRWR of a writable register (SAVEA in a CSC only) answers the next state in which the register holds CU.o1
with its read-only and reserved bits left out (KPOL keeps R171's fields and IXPOL R262's); a write of RBSEED or RBQST
discards the queued words, and one of EC sets the window under the base that stands. A number above 15, SAVEA in a
stream core, or a write of a read-only register raises PRIV. -/
def Obligations.ControlRegisters : Prop :=
  ∀ (g : Guard) (src : Src) (s : State), Ready s g src →
    let i := s.reads 7 src
    let n := i.b.word.toNat
    let x := i.o1.word
    let csc := isCsc s.cur
    let priv : Host.Outcome State Fault Refusal := .next (s.trapped 2 s.issuer.pc)
    let core := s.cur.core.val
    let value (c : Ctx) (n : Nat) : Word :=
      match n with
      | 0 => c.fpc | 1 => c.stat.setWidth 64 | 2 => c.kpol | 3 => c.ixpol | 4 => c.lc
      | 5 => BitVec.ofNat 64 (c.psB.toNat * 2 ^ 16 + c.window.toNat * 2 ^ 8 + c.ecCnt.toNat)
      | 6 => BitVec.ofNat 64 (((List.finRange 4).map (fun j =>
          match c.gmem.get j with | some g => (2 ^ 15 + g.toNat) * 2 ^ (16 * j.val) | none => 0)).sum)
      | 7 => BitVec.ofNat 64 (core % 4096 * 2 ^ 32 + (if core < 4096 then core / 256 else (core - 4096) % 16) * 2 ^ 16
          + core % 256 * 2 ^ 8 + s.cur.ctx.val)
      | 9 => c.dbg | 10 => c.rbseed | 11 => BitVec.ofNat 64 (c.rbq.length * 2 ^ 48 + c.rbn.toNat)
      | 12 => c.cwm.setWidth 64 | 13 => c.joinp | 14 => c.pasid.setWidth 64 | _ => c.savea
    ((n ≤ 14 ∨ (n = 15 ∧ csc = true)) → n ≠ 8 →
      exec (.csrrd g src) s =
        .next (s.afterResult src false 7 2 (some (.sc (value s.issuer n))) none 0)) ∧
    (n = 8 → exec (.csrrd g src) s = .next (s.afterMove src false (fun t =>
      t.clock.modCtx s.cur (fun c => c.result 7 2 (some (.sc t.clock.time)) none 0)))) ∧
    ((n ∈ [0, 1, 2, 3, 4, 5, 9, 10, 11, 13] ∨ (n = 15 ∧ csc = true)) →
      exec (.csrwr g src) s = .next (s.afterCtx src false (fun c => c.csrWrite n x))) ∧
    ((16 ≤ n ∨ (n = 15 ∧ csc = false)) → exec (.csrrd g src) s = priv ∧ exec (.csrwr g src) s = priv) ∧
    (n ∈ [6, 7, 8, 12, 14] → exec (.csrwr g src) s = priv) ∧
    (∀ c : Ctx, (c.csrWrite 0 x).fpc = x &&& 0xF ∧ (c.csrWrite 1 x).stat = x.setWidth 9 ∧ (c.csrWrite 4 x).lc = x ∧
      (c.csrWrite 2 x).kpol = x &&& 0x3DFFFFFFFFFFFFFF ∧ (c.csrWrite 3 x).ixpol = x &&& 0x000000FCFFFFFFFF ∧
      (c.csrWrite 15 x).savea = x ∧
      (c.csrWrite 9 x).dbg = x &&& 3 ∧ (c.csrWrite 13 x).joinp = x ∧
      ((c.csrWrite 10 x).rbseed = x ∧ (c.csrWrite 10 x).rbq = [] ∧ (c.csrWrite 10 x).rbn = 0) ∧
      ((c.csrWrite 11 x).rbn = x.setWidth 48 ∧ (c.csrWrite 11 x).rbq = []) ∧
      ((c.csrWrite 5 x).ecCnt = x.setWidth 8 ∧ (c.csrWrite 5 x).psB = c.psB ∧
        ∀ k, k < 8 → (c.csrWrite 5 x).ps k = x.getLsbD (8 + k)))

/-- WAIT issues once each counter is no greater than its field, and waits until then (R74, R229, R309, R339).
In every state in which the bundle is ready: where each of ld, st, cp and tl, as it stands before the bundle, is no
greater than its field of b, and, for a value with every field zero, the post queue is empty, the bundle issues, and
with every field zero the context acknowledges every invalidation that has arrived; bits 63 to 16 are ignored. The
operations that it shows complete while they are still outstanding, those of a count that more operations were
triggered after than its field lets be outstanding, are recorded beside those recorded before that are still
outstanding: later accesses and commands wait for them (log entry 65). Otherwise the bundle waits: no move takes
effect. -/
def Obligations.WaitIssues : Prop :=
  ∀ (g : Guard) (src : Src) (s : State), Ready s g src →
    let c := s.issuer
    let i := s.reads 7 src
    let b := i.b.word.toNat
    let all := b % 65536 = 0
    let met := c.ld ≤ b % 16 ∧ c.stc ≤ b / 16 % 16 ∧ c.cp ≤ b / 256 % 16 ∧ c.tl ≤ b / 4096 % 16 ∧
      (all → c.post = [])
    (met → all → exec (.wait g src) s =
      .next (s.afterCtx src false (fun c => { c with ack := s.boundaryState.invNext, waited := i.waitedAfter }))) ∧
    (met → ¬ all → exec (.wait g src) s = .next (s.afterCtx src false (fun c => { c with waited := i.waitedAfter }))) ∧
    (∀ q, q ∈ i.waitedAfter ↔ ∃ k : Fin 4, q ∈ s.boundaryState.outstanding s.cur k ∧
      (q ∈ c.waited ∨ b / 16 ^ k.val % 16 < ((c.recent.get k).filter (fun r => q < r)).length)) ∧
    (¬ met → ∃ u, exec (.wait g src) s = .next u ∧ (u.ctx s.cur).pc = c.pc ∧ (u.ctx s.cur).blocked = true ∧
      (u.ctx s.cur).stores = [] ∧ (u.ctx s.cur).s = c.s ∧ (u.ctx s.cur).w = c.w)

/-- EXIT, HALT, QPT and PROBE (R15, R39, R77, R78, R309, R313, R336, R337, R339).
In every state in which the bundle is ready, all four counters are zero and the post queue is empty: EXIT, where no
transfer is pending and JOINP is zero or a 64-aligned shared address, leaves the end of the record for the point after
two further bundles; HALT, where no transfer is pending, leaves the end of the launch there, with its code; QPT issues
where no invalidation that reached the device before its bundle first reached issue is left; PROBE issues where its
range is legal and no page of it is absent. EXIT, QPT and PROBE acknowledge every invalidation that has arrived. While
a counter is not zero or the post queue holds an entry, EXIT (with a legal JOINP), HALT and QPT wait. EXIT with any
other JOINP raises ADDRCLASS with it, and so does PROBE for a range that leaves its window or is not canonical
throughout (in window 0x82 a range may run on from one core's slice into the next: the model's choice, log entry 66).
At its quiescent point PROBE takes the pages of a global range in ascending order: for the first that is not present
with the permission asked for, it sends a page request, or, where the answer was Success, tries again; it raises
FATAL_UNPROBED with the page after an Invalid Request, a Response Failure or four tries, and for a page in a peer that
no port reaches. -/
def Obligations.QuiescentBundles : Prop :=
  ∀ (g : Guard) (src : Src) (s : State), Ready s g src →
    let c := s.issuer
    let i := s.reads 7 src
    let b := s.boundaryState
    let still : Prop := c.ld = 0 ∧ c.stc = 0 ∧ c.cp = 0 ∧ c.tl = 0 ∧ c.post = []
    let joinOk : Prop := c.joinp = 0 ∨ sharedAddr c.joinp = true
    let waits (j : Instr) : Prop := ∃ u, exec j s = .next u ∧ (u.ctx s.cur).pc = c.pc ∧ (u.ctx s.cur).blocked = true ∧
      (u.ctx s.cur).xfer = c.xfer ∧ (u.ctx s.cur).s = c.s
    (still → c.xfer = none → joinOk → exec (.exit g src) s = .next (s.afterCtx src false (fun c =>
      { c with ack := b.invNext, xfer := some { kind := .exit, target := 0, left := 2 } }))) ∧
    (still → c.xfer = none → exec (.halt g src) s = .next (s.afterMove src false (fun t =>
      State.modCtx { t with nextUid := t.nextUid + 1 } s.cur (fun c =>
        { c with xfer := some { kind := .halt, target := 0, left := 2 }, haltAt := some (i.b.word, t.nextUid) })))) ∧
    (still → (∀ q ∈ b.invals, c.qpt.getD b.invNext ≤ q.num) → exec (.qpt g src) s =
      .next (s.afterCtx src false (fun c => { c with ack := b.invNext, qpt := none }))) ∧
    (c.xfer = none → ¬ joinOk → exec (.exit g src) s = s.trapsAt 3 c.joinp) ∧
    (let x := i.b.word
     let n := max 1 (i.o1.word.toNat / 2 ^ 32 % 2 ^ 32)
     let legal : Prop := match locOf s.cur.core x with
       | .bad => False
       | .glob _ => x.toNat + n ≤ 2 ^ 64 ∧ canonical (x + BitVec.ofNat 64 (n - 1)) = true
       | .slice k o => k * 2 ^ 16 + o + n ≤ 2 ^ 24
       | .chip o => o + n ≤ 0x4000000
       | .own o => o + n ≤ 0x28000
       | .peer _ o => o + n ≤ 0x28000
     let fatal (p : Nat) : Prop := exec (.probe g src) s = s.trapsAt 6 (BitVec.ofNat 64 p)
     let page (p : Nat) : PageSt := pageSt b s.cur p (i.o1.word.getLsbD 31)
     let first := x.toNat / 4096 * 4096
     (probeBad i = false ↔ legal) ∧ (¬ legal → exec (.probe g src) s = s.trapsAt 3 x) ∧
     (canonical x = false → i.probeNext = none) ∧
     (canonical x = true → c.probe = none → ∀ p st, i.probeNext = some (p, st) ↔
       p % 4096 = 0 ∧ first ≤ p ∧ p < x.toNat + n ∧ page p = st ∧ st ≠ .ok ∧
       ∀ q, q % 4096 = 0 → first ≤ q → q < p → page q = .ok) ∧
     (still → legal → ∀ p, (i.probeNext = some (p, .noPort) → fatal p) ∧
       (i.probeNext = some (p, .absent) →
         (∀ q u, c.probe = some q → q.page = p → q.asked = some u →
           (b.priCode u = some .invalid ∨ b.priCode u = some .failure → fatal p) ∧
           (b.priCode u = some .success → ∃ t, exec (.probe g src) s = .next t ∧ (t.ctx s.cur).pc = c.pc ∧
             (t.ctx s.cur).probe = some { q with tries := q.tries + 1, asked := none })) ∧
         (∀ q, c.probe = some q → q.page = p → q.asked = none → q.tries = 4 → fatal p) ∧
         ((b.pri.filter (fun r => r.code.isNone)).length < 512 → (∀ q, c.probe = some q → q.page ≠ p) →
           ∃ t, exec (.probe g src) s = .next t ∧ (t.ctx s.cur).pc = c.pc ∧
             (t.ctx s.cur).probe = some { page := p, tries := 0, asked := some b.nextUid } ∧
             t.pri = b.pri ++ [{ uid := b.nextUid, pasid := c.pasid, page := p, write := !i.o1.word.getLsbD 31,
                                 code := none }])))) ∧
    (still → probeBad i = false → i.probeNext = none → exec (.probe g src) s =
      .next (s.afterCtx src false (fun c => { c with ack := b.invNext, probe := none }))) ∧
    (¬ still → c.xfer = none → waits (.halt g src) ∧ (joinOk → waits (.exit g src))) ∧ (¬ still → waits (.qpt g src))

/-- SPAWN, JOINI, TDONE, GBAR and TWAITB (R242, R308, R309, R310, R311, R320, R324, R325, R326, R334).
In every state in which the bundle is ready: where the post queue holds fewer than 8 entries and the address is 0
(SPAWN alone) or a 64-aligned shared address, SPAWN, JOINI and TDONE, with no operation outstanding that a WAIT has
shown complete, answer the next state in which their entry stands last in the post queue, at its place in the trigger
order, with what it captured. GBAR issues where the group of its slot is whole and its phase is no longer the one that
the context has recorded, and clears the record. TWAITB, whose block is a shared address that no acknowledged
invalidation still open names, enters its wait for the block and bit, and blocks, when it first reaches issue, and
issues once a read after that has returned the bit set (TWAITB_WAKE); a page that is not present raises
FATAL_UNPROBED. An address that breaks its column raises ADDRCLASS, whose argument for TDONE and TWAITB is the address
of the block (the model's choice, log entry 50); a GBAR of an empty slot or a broken group raises GROUP_BROKEN. -/
def Obligations.PostsAndBarriers : Prop :=
  ∀ (g : Guard) (src : Src) (s : State), Ready s g src →
    let c := s.issuer
    let i := s.reads 7 src
    let b := s.boundaryState
    let x := i.b.word
    let post (k : PostKind) : Host.Outcome State Fault Refusal :=
      .next (s.afterCtx src false (fun c => { c with post := c.post ++ [{ seq := c.seq, kind := k }], seq := c.seq + 1 }))
    let trap := s.trapsAt
    let bit := x.toNat % 2 ^ 32
    let blk := i.o1.word + BitVec.ofNat 64 (576 * (bit / 64))
    (∀ pri : Fin 4, (s.unfenced → (i.o2.word = 0 ∨ sharedAddr i.o2.word = true) → c.post.length < 8 →
        exec (.spawn g src pri) s =
          post (.spawn x i.o1.word i.o2.word ((i.o3 &&& ~~~3) ||| BitVec.ofNat 64 pri.val))) ∧
      (i.o2.word ≠ 0 → sharedAddr i.o2.word = false → exec (.spawn g src pri) s = trap 3 i.o2.word)) ∧
    (s.unfenced → sharedAddr x = true → c.post.length < 8 →
      exec (.joini g src) s = post (.joini x (i.o1.word.setWidth 32) (i.o2.word.getLsbD 0))) ∧
    (sharedAddr x = false → exec (.joini g src) s = trap 3 x) ∧
    (s.unfenced → sharedAddr blk = true → c.post.length < 8 →
      exec (.tdone g src) s = post (.tdone blk (bit % 64) (i.o2.word.getLsbD 63) (i.o2.word.setWidth 24))) ∧
    (sharedAddr blk = false → exec (.tdone g src) s = trap 3 blk ∧ exec (.twaitb g src) s = trap 3 blk) ∧
    (let page := accessKey b s.cur.core c.pasid blk false
     sharedAddr blk = true → b.turned s.cur blk 64 = false →
      (page = .absent ∨ page = .noPort → exec (.twaitb g src) s = trap 6 blk) ∧
      (s.unfenced → page ≠ .absent → page ≠ .noPort →
        (c.tw = some (blk, bit % 64, true) →
          exec (.twaitb g src) s = .next (s.afterCtx src false (fun c => { c with tw := none }))) ∧
        (c.tw ≠ some (blk, bit % 64, true) → ∃ u, exec (.twaitb g src) s = .next u ∧ (u.ctx s.cur).pc = c.pc ∧
          (u.ctx s.cur).blocked = true ∧ (u.ctx s.cur).tw = some (blk, bit % 64, false)))) ∧
    (∀ (j : Fin 4),
      (c.gmem.get j = none → exec (.gbar g src j) s = trap 9 (BitVec.ofNat 64 (0xFFFFFFFFFFFFFF00 + j.val))) ∧
      (∀ n : BitVec 8, c.gmem.get j = some n →
        let grp := groupsGet b.groups n.toNat
        (grp.broken = true → exec (.gbar g src j) s = trap 9 (n.setWidth 64)) ∧
        (∀ p, grp.broken = false → c.gbar.get j = some p → grp.phase ≠ p →
          exec (.gbar g src j) s =
            .next (s.afterCtx src false (fun c => { c with gbar := c.gbar.set j.val none j.isLt })))))

/-- TRAP takes its bundle's other effects first and then traps (R39, R79, R348).
In every state in which the bundle is ready, TRAP answers the state in which its move has been taken and the program
counter has passed the bundle, which is the resume address, the context halts with cause 11 and the source's value as
argument, and a pending transfer stays with the bundles it has left; no launch is ended. -/
def Obligations.SoftwareTrap : Prop :=
  ∀ (g : Guard) (src : Src) (s : State), Ready s g src →
    let arg := (s.reads 7 src).b.word
    let m := s.moved src false
    ∃ u : State,
      exec (.trap g src) s = .next u ∧
      u = commit s (((boundaryEff s).on (fun t =>
        ((t.setCtx s.cur m).modCtx s.cur (fun c => c.flag (s.issuer.popFlag src))).applyDue s.cur)).takeTrap s.cur 11 arg) ∧
      (u.ctx s.cur).st = .halting ∧ (u.ctx s.cur).trap = some ⟨11, arg, none⟩ ∧
      (u.ctx s.cur).pc = s.issuer.pc + BitVec.ofNat 64 s.ir ∧
      (u.ctx s.cur).xfer = s.issuer.xfer.map (fun x => { x with left := x.left - 1 }) ∧
      (u.ctx s.cur).s = m.s ∧ (u.ctx s.cur).v = m.v ∧ (u.ctx s.cur).pend = m.pend ∧
      u.launch = s.launch ∧ u.mem = s.boundaryState.mem ∧ u.host = s.host

/-- ERET starts the resume of one halted context of its own cluster (R350).
In every state in which the bundle of a CSC is ready and no transfer is pending, ERET answers the state in which the
context that b names, of the CSC's cluster, starts its resume sequence where it is halted, its launch runs and no
debugger holds it, and otherwise no context does; and the CSC's own transfer to .o1 takes effect after two further
bundles. In a stream core ERET raises PRIV before any effect. -/
def Obligations.ReturnFromTrap : Prop :=
  ∀ (g : Guard) (src : Src) (s : State), Ready s g src → s.issuer.xfer = none →
    let i := s.reads 7 src
    let b := i.b.word.toNat
    let core : Fin 4112 := Fin.ofNat 4112 (256 * (clusterOf s.cur.core).val + b % 256)
    let cid : Cid := ⟨core, Fin.ofNat 4 (b / 256 % 4)⟩
    (isCsc s.cur = false → exec (.eret g src) s = .next (s.trapped 2 s.issuer.pc)) ∧
    (isCsc s.cur = true →
      let starts : Bool := (s.boundaryState.ctx cid).st == .halted && s.boundaryState.launch.st == .running &&
        !s.boundaryState.launch.clearing && !(s.boundaryState.ctx cid).dbgHold
      ∃ u, exec (.eret g src) s = .next u ∧
        (u.ctx s.cur).xfer = some { kind := .transfer, target := i.o1.word, left := 2 } ∧
        (u.ctx cid).st = (if starts then .resuming else (s.boundaryState.ctx cid).st) ∧
        ∀ d, d ≠ cid → d ≠ s.cur → u.ctx d = s.boundaryState.ctx d)

/-- A class Y or class L trigger puts its command in the device and counts it (R33, R51, R53, R62, R64, R75, R97, R208, R216, R245, R253, R258).
In every state in which the bundle is ready and no operation is outstanding that a WAIT has shown complete, where the
core has fewer than 48 transfers (32 rink commands) in flight and the token register is not pending (and, for a copy
that decodes indices, CPY2D, CPY3D and RKMAPI, no counted operation has still to write what the command captures),
exec answers the next state in which, before the flags of a pop and what comes into force with the bundle, exactly one
command more stands unstarted, with the operands and the token register of the trigger; cp has risen by one, the token
register is pending, each granule that an operand address names has taken one grant, a class Y command has taken the
next transfer ID; registers and memory are as the move left them. That CPY2D and CPY3D capture every k-register and
predicate as their descriptor may name any is the model's choice (log entry 38). ATOMNR, whose checks pass, has no
token; where a check of it fails, ADDRCLASS carries its target address, whichever check fails (the model's choice, log
entry 76). AFENCE issues once fewer than 48 transfers are in flight and no ATOMNR of the context is left, and starts
nothing. -/
def Obligations.CopyAndRinkTriggers : Prop :=
  ∀ (g : Guard) (src : Src) (s : State), Ready s g src →
    let c := s.issuer
    let bs := s.boundaryState
    let n := s.cur.core
    let free (u : Fin 15) : Prop := s.unfenced ∧ inFlight bs n u.val < (if u.val = 10 then 48 else 32) ∧ c.pendS.getLsbD (sReg (c.latch u).o3).val = false
    let enters (j : Instr) (u : Fin 15) (t : Nat) (tok : Option (Fin 64)) (exts : List (Word × Nat)) (also : Cmd → Prop) : Prop :=
      ∃ (f : State → State) (m : Cmd), exec j s = .next (s.afterMove src false f) ∧
        let v := f (bs.setCtx s.cur (s.moved src false))
        v.cmds = bs.cmds ++ [m] ∧ also m ∧
        m.cid = s.cur ∧ m.bus.val = u.val ∧ m.t = t ∧ m.st = .queued ∧ m.seq = c.seq ∧ m.uid = bs.nextUid ∧
        m.b = (s.reads u src).b.word ∧ m.o1 = (c.latch u).o1.word ∧ m.o2 = (c.latch u).o2.word ∧ m.tok = tok ∧
        m.gran = dedup (exts.flatMap (fun e => named n e.1 e.2)) ∧
        v.own = m.gran.foldl grantOne bs.own ∧ v.mem = bs.mem ∧
        (let d := v.ctx s.cur
         d.cp = c.cp + 1 ∧ d.seq = c.seq + 1 ∧ d.pc = c.pc + BitVec.ofNat 64 s.ir ∧
         d.s = c.s ∧ d.v = c.v ∧ d.m = c.m ∧ d.c = c.c ∧ d.lat = c.lat ∧ d.stat = (s.moved src false).stat ∧ d.k = c.k ∧ d.x = c.x ∧
         (∀ r, tok = some r → r ≠ 0 → d.pendS.getLsbD r.val = true) ∧
         (∀ r : Fin 64, tok ≠ some r → d.pendS.getLsbD r.val = c.pendS.getLsbD r.val) ∧
         (u.val = 10 → m.id = c.nextId ∧ d.nextId = nextTransfer c.nextId ∧ d.issued = c.issued ++ [c.nextId]) ∧
         (u.val ≠ 10 → d.nextId = c.nextId ∧ d.issued = c.issued))
    let y := s.reads 10 src
    let l := s.reads 14 src
    let ty := some (sReg y.o3)
    let tl := some (sReg l.o3)
    let none' : Cmd → Prop := fun _ => True
    let calm : Prop := c.pendC = 0 ∧ ∀ q, q < 16 → bs.kbWrites s.cur false q = false
    let bytes := ((field l.o2.word 9 5 + 1) * field l.o1.word 40 24 + 7) / 8
    (free 10 →
      ((cwIndexed y.o2.word = true → bs.kbWrites s.cur false (cwKq y.o2.word).val = false ∧
          (cwVe y.o2.word = true → c.pendC.getLsbD (cwVp y.o2.word).val = false)) →
        enters (.cpy g src) 10 0 ty
          [(y.o1.word, cwLen y.o2.word),
           (y.b.word, cvBytes (cwCv (cwDecided y.o2.word c.c.toList)) (cwLen y.o2.word))]
          (fun m => m.val2 = cwDecided y.o2.word c.c.toList ∧ m.kregs = [c.kSeen (cwKq y.o2.word)])) ∧
      (calm → enters (.cpy2d g src) 10 1 ty [(y.b.word, 64)] (fun m => m.kregs = (List.finRange 16).map c.kSeen ∧ m.preds = c.c.toList) ∧
        enters (.cpy3d g src) 10 2 ty [(y.b.word, 64)] (fun m => m.kregs = (List.finRange 16).map c.kSeen ∧ m.preds = c.c.toList)) ∧
      enters (.fill g src) 10 3 ty [(y.b.word, cwLen y.o2.word)] none' ∧ enters (.cpst g src) 10 4 ty [(y.b.word, 8)] none' ∧
      enters (.atom g src) 10 5 ty [(y.o1.word, atLen y.o2.word)] none') ∧
    (s.unfenced → inFlight bs n 10 < 48 → atomBad n y.b.word y.o1.word y.o2.word = none →
      enters (.atomnr g src) 10 6 none [(y.o1.word, atLen y.o2.word)] none') ∧
    (∀ r, atomBad n y.b.word y.o1.word y.o2.word = some r → exec (.atomnr g src) s = s.trapsAt 3 y.b.word) ∧
    (inFlight bs n 10 < 48 → (∀ m ∈ bs.cmds, ¬ (m.cid = s.cur ∧ m.bus = 10 ∧ m.t = 6)) →
      exec (.afence g src) s = .next (s.afterMove src false (fun t => t))) ∧
    (free 14 →
      enters (.rkon g src) 14 0 tl [] none' ∧ enters (.rkoff g src) 14 1 tl [] none' ∧
      enters (.rkldt g src) 14 2 tl [(l.b.word, bytes)] none' ∧ enters (.rkstt g src) 14 3 tl [(l.b.word, bytes)] none' ∧
      enters (.rkkey g src) 14 4 tl [] none' ∧ enters (.rkcmp g src) 14 5 tl [] none' ∧
      enters (.rkwr g src) 14 6 tl [] none' ∧ enters (.rktt g src) 14 7 tl [] none' ∧
      enters (.rkcnt g src) 14 8 tl [] none' ∧ enters (.rkfind g src) 14 9 tl [] none' ∧
      (bs.kbWrites s.cur true (field l.b.word 0 2) = false →
        enters (.rkmapi g src) 14 10 tl [] (fun m => m.xreg = c.xSeen (xIx (field l.b.word 0 2)))))

/-- A class G trigger puts its command in the device and counts it (R33, R51, R52, R53, R63, R75, R97, R262, R263, R280, R287).
In every state in which the bundle is ready and no operation is outstanding that a WAIT has shown complete, where the
core has fewer than 32 class G commands in flight and the token register is not pending (nor the destination register
of TLD and TCOUNT), exec answers the next state in which, before the flags of a pop and what comes into force with the
bundle, exactly one command more stands unstarted, with the operands, the token register and the IXPOL of the trigger;
cp has risen by one, the token register (and the destination register) are pending, each granule that an operand
address names has taken one grant; registers and memory are as the move left them. TPOOL runs so in a CSC and raises
PRIV in a stream core. -/
def Obligations.IndexAndTreeTriggers : Prop :=
  ∀ (g : Guard) (src : Src) (s : State), Ready s g src →
    let c := s.issuer
    let bs := s.boundaryState
    let n := s.cur.core
    let i := s.reads 11 src
    let tok := sReg i.o3
    let dst := sReg i.o2.word
    let enters (j : Instr) (t : Nat) (d2 : Option (Fin 64)) (exts : List (Word × Nat)) : Prop :=
      ∃ (f : State → State) (m : Cmd), exec j s = .next (s.afterMove src false f) ∧
        let v := f (bs.setCtx s.cur (s.moved src false))
        v.cmds = bs.cmds ++ [m] ∧
        m.cid = s.cur ∧ m.bus.val = 11 ∧ m.t = t ∧ m.st = .queued ∧ m.seq = c.seq ∧ m.uid = bs.nextUid ∧
        m.b = i.b.word ∧ m.o1 = i.o1.word ∧ m.o2 = i.o2.word ∧ m.tok = some tok ∧ m.dst2 = d2 ∧ m.ixpol = c.ixpol ∧
        m.gran = dedup (exts.flatMap (fun e => named n e.1 e.2)) ∧
        v.own = m.gran.foldl grantOne bs.own ∧ v.mem = bs.mem ∧
        (let d := v.ctx s.cur
         d.cp = c.cp + 1 ∧ d.seq = c.seq + 1 ∧ d.pc = c.pc + BitVec.ofNat 64 s.ir ∧
         d.s = c.s ∧ d.v = c.v ∧ d.m = c.m ∧ d.c = c.c ∧ d.lat = c.lat ∧ d.stat = (s.moved src false).stat ∧ d.k = c.k ∧ d.x = c.x ∧
         d.nextId = c.nextId ∧
         (tok ≠ 0 → d.pendS.getLsbD tok.val = true) ∧ (∀ r, d2 = some r → r ≠ 0 → d.pendS.getLsbD r.val = true) ∧
         (∀ r : Fin 64, r ≠ tok → d2 ≠ some r → d.pendS.getLsbD r.val = c.pendS.getLsbD r.val))
    s.unfenced → inFlight bs n 11 < 32 → c.pendS.getLsbD tok.val = false →
      enters (.gathr g src) 0 none [(i.b.word, 64)] ∧ enters (.scatr g src) 1 none [(i.b.word, 64)] ∧
      enters (.binput g src) 2 none [(i.b.word, 64), (i.o1.word, 8 * field i.o2.word 0 24)] ∧
      enters (.binflush g src) 3 none [(i.b.word, 64)] ∧ enters (.binplay g src) 4 none [(i.b.word, 64)] ∧
      enters (.fqcnt g src) 5 none [] ∧ enters (.tdecl g src) 6 none [] ∧
      (c.pendS.getLsbD dst.val = false → enters (.tld g src) 7 (some dst) [] ∧ enters (.tcount g src) 14 (some dst) []) ∧
      enters (.tst g src) 8 none [] ∧ enters (.tadd g src) 9 none [] ∧
      enters (.tscan g src) 10 none [(i.b.word, 64)] ∧ enters (.tnext g src) 11 none [(i.b.word, 64)] ∧
      enters (.tclose g src) 12 none [(i.b.word, 64)] ∧ enters (.tdense g src) 13 none [(i.o1.word, 128)] ∧
      (isCsc s.cur = true → enters (.tpool g src) 15 none []) ∧
      (isCsc s.cur = false → exec (.tpool g src) s = .next (s.trapped 2 c.pc))

/-- A class T trigger puts its operation last in the core's queue (R33, R51, R61, R73, R189, R190).
In every state in which the bundle is ready, no operation is outstanding that a WAIT has shown complete, and the
core's queue of MX holds fewer than 8 operations (the one that runs holds none of the 8 places: the model's choice,
log entry 69): where every address that the operation names lies in its MX reach, exec answers the next state in
which, before the flags of a pop and what comes into force with the bundle, the operation stands last in that queue
with its operands, tl has risen by one, and tiles, registers and memory are unchanged. For MMA the bases of A and B
lie in chip scratchpad or are global; every other address may lie in the own scratchpad or own slice too (a CSC has
neither: log entry 19); MDRAIN's summary address may be 0, and an MSETQ that disables names none; MZERO and MCFG name
none. An address outside its reach raises ADDRCLASS before any effect; of an MMA whose two addresses are both outside,
the argument is b (the model's choice, log entry 36). -/
def Obligations.MatrixTriggers : Prop :=
  ∀ (g : Guard) (src : Src) (s : State), Ready s g src → s.unfenced → (s.boundaryState.core s.cur.core).mxq.length < 8 →
    let c := s.issuer
    let n := s.cur.core
    let k := s.boundaryState.core n
    let i := s.reads 9 src
    let enters (j : Instr) (t : Nat) : Prop :=
      ∃ f : State → State, exec j s = .next (s.afterMove src false f) ∧
        let v := f (s.boundaryState.setCtx s.cur (s.moved src false))
        (v.core n).mxq = k.mxq ++ [{ ctx := s.cur.ctx, seq := c.seq, t := t, b := i.b.word, o1 := i.o1.word, o2 := i.o2.word }] ∧
        (v.core n).tiles = k.tiles ∧ (v.core n).mxCfg = k.mxCfg ∧ (v.core n).mxRun = k.mxRun ∧
        (v.core n).kbq = k.kbq ∧ v.mem = s.boundaryState.mem ∧ v.cmds = s.boundaryState.cmds ∧
        v.ctx s.cur = { (s.moved src false).note 3 with tl := c.tl + 1, seq := c.seq + 1 }
    let trap (a : Word) := s.trapsAt 3 a
    let far (a : Word) : Prop := (∃ x, classify a = .chip x) ∨ (∃ x, classify a = .glob x)
    let near (a : Word) : Prop := far a ∨ (∃ x, locOf n a = .own x) ∨ (n.val < 4096 ∧ ∃ x, classify a = .slice (coreIx n) x)
    (∀ sp h : Bool,
      (far i.b.word → far i.o1.word → enters (.mma g src sp h) (2 * sp.toNat + h.toNat)) ∧
      (¬ far i.b.word → exec (.mma g src sp h) s = trap i.b.word) ∧
      (far i.b.word → ¬ far i.o1.word → exec (.mma g src sp h) s = trap i.o1.word)) ∧
    (∀ h : Bool, enters (.mzero g src h) (16 + h.toNat) ∧
      (i.b.word = 0 ∨ near i.b.word → enters (.mdrain g src h) (32 + h.toNat)) ∧
      (i.b.word ≠ 0 → ¬ near i.b.word → exec (.mdrain g src h) s = trap i.b.word) ∧
      (near i.b.word → enters (.mload g src h) (48 + h.toNat)) ∧
      (¬ near i.b.word → exec (.mload g src h) s = trap i.b.word)) ∧
    (i.o1.word.getLsbD 1 = true ∨ near i.b.word → enters (.msetq g src) 64) ∧
    (i.o1.word.getLsbD 1 = false → ¬ near i.b.word → exec (.msetq g src) s = trap i.b.word) ∧
    (near i.b.word → enters (.msetd g src) 80) ∧ (¬ near i.b.word → exec (.msetd g src) s = trap i.b.word) ∧
    enters (.mcfg g src) 96

/-- A counted trigger of KB puts its operation last in the core's queue (R33, R66, R73, R155, R157, R158, R159, R160).
In every state in which the bundle is ready, no operation is outstanding that a WAIT has shown complete, and fewer
than 16 counted KB operations of the context are outstanding, where the trigger passes the address checks of R160
(and, for KPAIR, no other context holds the pair buffer), exec answers a next state in which the operation stands last
in the core's queue with its operands and KPOL, tl has risen by one, a verdict predicate of KPAIR or RECLU is pending,
and no k or x register, no latch and no byte of memory has changed; a KPAIR leaves its context the holder of the pair
buffer. An address of KLD, KST, KXLD or KXST that is no multiple of 8, has no class (of a CSC, window 0x80 has none:
log entry 19) or whose extent leaves its window class raises ADDRCLASS, an aligned global one that no active window
covers FATAL_UNMAPPED (that ADDRCLASS goes before FATAL_UNMAPPED is the model's choice, log entry 66). -/
def Obligations.CodebookTriggers : Prop :=
  ∀ (g : Guard) (src : Src) (s : State), Ready s g src → s.unfenced → (s.boundaryState.kbOps s.cur).length < 16 →
    let c := s.issuer
    let n := s.cur.core
    let k := s.boundaryState.core n
    let i := s.reads 13 src
    let a := i.b.word
    let enters (j : Instr) (t : Nat) (win : Option (Fin 8)) : Prop :=
      ∃ (v : State) (o : KbOp), exec j s = .next v ∧ (v.core n).kbq = k.kbq ++ [o] ∧
        o = { ctx := s.cur.ctx, seq := c.seq, t := t, b := a, o1 := i.o1.word, o2 := i.o2.word, kpol := c.kpol, win := win } ∧
        (v.core n).kbRun = k.kbRun ∧ v.mem = s.boundaryState.mem ∧
        (let d := v.ctx s.cur
         d.tl = c.tl + 1 ∧ d.seq = c.seq + 1 ∧ d.k = c.k ∧ d.x = c.x ∧ d.lat = c.lat ∧ d.s = c.s ∧ d.c = c.c ∧
         d.pc = c.pc + BitVec.ofNat 64 s.ir ∧
         ∀ p : Fin 4, d.pendC.getLsbD p.val = (c.pendC.getLsbD p.val || o.verdict == some p))
    let trap (cause : Nat) := s.trapsAt cause a
    let mem (j : Instr) (t len : Nat) : Prop :=
      (a.toNat % 8 ≠ 0 ∨ locOf n a = .bad → exec j s = trap 3) ∧
      (∀ va, a.toNat % 8 = 0 → classify a = .glob va → k.coverOf a = none → exec j s = trap 5) ∧
      (∀ va slot w, a.toNat % 8 = 0 → classify a = .glob va → k.coverOf a = some slot → k.wins.get slot = some w →
        (a.toNat + len ≤ w.g0.toNat + 2 ^ w.glog → enters j t (some slot)) ∧
        (w.g0.toNat + 2 ^ w.glog < a.toNat + len → exec j s = trap 3)) ∧
      (a.toNat % 8 = 0 → locOf n a ≠ .bad → canonical a = false →
        (extentOk a len = true → enters j t (k.coverOf a)) ∧ (extentOk a len = false → exec j s = trap 3))
    mem (.kld g src) 0 520 ∧ mem (.kst g src) 16 520 ∧ mem (.kxld g src) 176 256 ∧ mem (.kxst g src) 192 256 ∧
    (∀ f : Fin 16, enters (.kmap g src f) (32 + f.val) none) ∧
    (∀ o : Fin 6, (k.pair.holder = none ∨ k.pair.holder = some s.cur.ctx) →
      enters (.kpair g src o) (48 + o.val) none ∧
      ∀ v, exec (.kpair g src o) s = .next v → (v.core n).pair.holder = some s.cur.ctx) ∧
    enters (.kcmp g src) 64 none ∧ enters (.ksort g src) 80 none ∧
    (∀ m : Fin 3, enters (.reclu g src m) (96 + m.val) none) ∧ enters (.kremap g src) 112 none

/-- KGET, KSET, KCNT and KFMT (R33, R34, R155, R159, R162, R163).
In every state in which the bundle is ready and no outstanding counted operation, stream binding or MMA stands in the
way: KCNT with b[13] = 0 leaves the count of k b[3:0] in KB.r and its tag and sorted flag in KB.q three bundles later,
and with b[13] = 1 the pair buffer's state where the context holds it, else zero; KGET leaves the pattern of an entry,
or zero at or above the count; KSET replaces an entry; KFMT with b[13] = 0 sets tag and count, and with b[13] = 1
releases the pair buffer where the context holds it. The own bundles see a KSET's or KFMT's register as it was for two
bundles more. -/
def Obligations.CodebookEdits : Prop :=
  ∀ (g : Guard) (src : Src) (s : State), Ready s g src →
    let c := s.issuer
    let bs := s.boundaryState
    let k := bs.core s.cur.core
    let i := s.reads 13 src
    let b := i.b.word
    let kn : Fin 16 := Fin.ofNat 16 (b.toNat % 16)
    let xn : Fin 4 := Fin.ofNat 4 (b.toNat % 4)
    let e := b.toNat / 16 % 256
    let isX := b.getLsbD 12
    let pr := b.getLsbD 13
    let num (q : KReg) : Nat := (match q.tag with | .f32 => 0 | .bf16 => 1 | .f16 => 2) + 4 * q.sorted.toNat
    let result (r : Word) (q : Option Val) : Host.Outcome State Fault Refusal :=
      .next (s.afterResult src false 13 3 (some (.sc r)) q 0)
    let quiet (x : Bool) (r : Nat) : Prop := bs.kbWrites s.cur x r = false ∧ bs.kbReads s.cur x r = false ∧
      writeHeld bs s.cur c.seq (if x then .x r else .k r) = false
    let noPair : Prop := ∀ o ∈ bs.kbOps s.cur, o.usesPair = false
    (bs.recluOut s.cur = false →
      (isX = true → bs.kbWrites s.cur true xn.val = false →
        exec (.kget g src) s = result (BitVec.ofNat 64 (laneOf 8 (c.xSeen xn).toNat e)) none) ∧
      (isX = false → bs.kbWrites s.cur false kn.val = false →
        exec (.kget g src) s = result (if e < (c.kSeen kn).n then BitVec.ofNat 64 ((c.kSeen kn).entry e) else 0) none) ∧
      (pr = false → bs.kbWrites s.cur false kn.val = false →
        exec (.kcnt g src) s = result (BitVec.ofNat 64 (c.kSeen kn).n) (some (.sc (BitVec.ofNat 64 (num (c.kSeen kn)))))) ∧
      (pr = true → noPair → k.pair.holder ≠ some s.cur.ctx → exec (.kcnt g src) s = result 0 (some (.sc 0))) ∧
      (pr = true → noPair → k.pair.holder = some s.cur.ctx → exec (.kcnt g src) s =
        result (BitVec.ofNat 64 (match k.pair.st with | .values | .remap => k.pair.na * k.pair.nb | _ => 0))
          (some (.sc (BitVec.ofNat 64 ((match k.pair.st with | .none => 0 | .values => 1 | .remap => 2 | .oversize => 3) +
            k.pair.na * 2 ^ 8 + k.pair.nb * 2 ^ 24)))))) ∧
    (isX = false → quiet false kn.val → exec (.kset g src) s = .next (s.afterCtx src false (fun d =>
      { d with k := d.k.set kn.val ((d.k.get kn).setEntry e i.o1.word) kn.isLt,
               kOld := d.kOld ++ [{ isX := false, idx := kn.val, k := d.k.get kn, x := 0, rem := 2 }], seq := d.seq + 1 }))) ∧
    (isX = true → quiet true xn.val → ∃ v, exec (.kset g src) s = .next v ∧
      ∀ j, j < 256 → laneOf 8 ((v.ctx s.cur).x.get xn).toNat j =
        if j = e then i.o1.word.toNat % 256 else laneOf 8 (c.x.get xn).toNat j) ∧
    (pr = false → quiet false kn.val → exec (.kfmt g src) s = .next (s.afterCtx src false (fun d =>
      { d with k := d.k.set kn.val ((d.k.get kn).format i.o1.word) kn.isLt,
               kOld := d.kOld ++ [{ isX := false, idx := kn.val, k := d.k.get kn, x := 0, rem := 2 }], seq := d.seq + 1 }))) ∧
    (pr = true → noPair → writeHeld bs s.cur c.seq .pair = false → ∃ v, exec (.kfmt g src) s = .next v ∧
      (v.core s.cur.core).pair =
        if k.pair.holder = some s.cur.ctx then { holder := none, st := .none, na := 0, nb := 0, p := [] } else k.pair)

/-- WSET, WREL, WSTAT and WSKIP (R33, R34, R94, R180, R183, R186, R187).
In every state in which the bundle is ready: WREL unbinds its stream register, which does nothing to an unbound one;
WSTAT leaves its status, as it stands at the trigger bundle, in ST.r after two bundles: R187's fields, or 0 where it
is unbound (a pop position beyond 24 bits, which only a WSKIP on a stream with a bad descriptor can give, shows a free
value: log entry 68); WSKIP moves the pop position of a stream whose descriptor has arrived, and of which no index
format is still to be decided at the capture, by the smaller of b and the vectors left (up to a free value where a
reserved format leaves their number open: log entry 68), holds the skip back on any other, and does nothing to an
unbound register. WSET, where its verdict predicate is not pending and no operation is outstanding that a WAIT has
shown complete, binds the register to the descriptor at b with bits 5 to 0 cleared, where that address is local or a
window covers it, ACTIVE, with no vector popped; an address of no class (of a CSC, window 0x80 has none: log entry 19)
raises ADDRCLASS, and an unmapped global one FATAL_UNMAPPED. No other stream register changes. -/
def Obligations.StreamTriggers : Prop :=
  ∀ (g : Guard) (src : Src) (s : State) (n : Fin 8), Ready s g src →
    let i := s.reads 12 src
    let c := s.issuer
    let m := s.moved src false
    let k := s.boundaryState.core s.cur.core
    let a : Word := i.b.word &&& ~~~63
    let free := s.boundaryState.freeWord
    let left (st : Strm) : Nat := (if 9 < st.ifmt ∨ (st.cvt = true ∧ 4 < st.ch 27 3) then free.toNat % 2 ^ 24 else st.total) - st.popped
    let only (v : State) : Prop := ∀ j : Fin 8, j ≠ n → (v.ctx s.cur).w.get j = m.w.get j
    (∃ v, exec (.wrel g src n) s = .next v ∧ (v.ctx s.cur).w.get n = none ∧ only v ∧ v.mem = s.boundaryState.mem) ∧
    exec (.wstat g src n) s = .next (s.afterResult src false 12 2 (some (.sc (match c.w.get n with
      | none => 0
      | some st =>
        let popped := if st.popped < 2 ^ 24 then st.popped else free.toNat % 2 ^ 24
        BitVec.ofNat 64 ((match st.st with | .active => 1 | .done => 2 | .error => 3) * 2 ^ 60 + st.reason * 2 ^ 56 +
          st.koor.toNat * 2 ^ 55 + st.dense.toNat * 2 ^ 54 + min st.ovr 63 * 2 ^ 48 + popped * 2 ^ 24 +
          (if st.st = .active then max st.made popped else st.made))))) none 0) ∧
    (∃ v, exec (.wskip g src n) s = .next v ∧ only v ∧
      (m.w.get n = none → (v.ctx s.cur).w.get n = none) ∧
      (∀ st, m.w.get n = some st →
        let known : Prop := st.words ≠ [] ∧
          (st.capt = true ∨ st.cvt = true ∨ st.indexed = false ∨ (st.dec = false ∧ st.ixop ≠ 2))
        (known → (v.ctx s.cur).w.get n = some { st with
          popped := st.popped + min i.b.word.toNat (left st), vecs := st.vecs.drop (min i.b.word.toNat (left st)),
          marks := st.marks.drop (min i.b.word.toNat (left st)) }) ∧
        (¬ known → (v.ctx s.cur).w.get n = some { st with skip := st.skip + i.b.word.toNat }))) ∧
    (c.pendC.getLsbD (i.b.word.toNat % 4) = false →
      (locOf s.cur.core a = .bad → exec (.wset g src n) s = s.trapsAt 3 a) ∧
      (∀ va, classify a = .glob va → k.coverOf a = none → exec (.wset g src n) s = s.trapsAt 5 a) ∧
      (s.unfenced → locOf s.cur.core a ≠ .bad → (canonical a = true → k.coverOf a ≠ none) →
        ∃ v st, exec (.wset g src n) s = .next v ∧ only v ∧ (v.ctx s.cur).w.get n = some st ∧
          st.desc = a ∧ st.win = k.coverOf a ∧ st.vj.val = i.b.word.toNat % 4 ∧ st.cj = c.c.get st.vj ∧ st.kpol = c.kpol ∧
          st.capt = false ∧ st.st = .active ∧ st.popped = 0 ∧ st.made = 0 ∧ st.skip = 0 ∧ st.seq = c.seq ∧
          (v.ctx s.cur).seq = c.seq + 1))

/-- What becomes due at a bundle boundary takes effect (R33, R34, R39, R72, R73, R89, R97, R98, R99).
RESULT_VISIBLE leaves only results that are not yet due; of the due results of a unit the one triggered last is in its
latch, each of r and q for itself, the other latches are untouched, and the flags of every due result are in STAT; an
earlier result of the same unit that is not yet due loses the latches that the due one wrote. TRANSFER_EFFECT sends a
context whose transfer has no bundle left to the target, and leaves every context alone otherwise. LOOP_STATE_COMMIT
gives LC, EC and the stage window the values that a due LOOP or LOOPI decided. MAP_APPLY puts a due window into its
slot alone, with no line. OWNSET_APPLY gives each granule of a due OWNSET its new count, in order: a grant adds to the
count, but a granule whose count would pass 255 keeps its count and makes ADDRCLASS due with its address (that this
check falls here as well as at the trigger is the model's choice, log entry 64); a reclaim sets it to 0.
FIXED_STORE_PERFORM writes the bytes of every due store in trigger order, of all stores where the context no longer
runs, and keeps the rest. Each answers a next state from every state; none but the last changes memory, and none
changes an s register. -/
def Obligations.BoundarySteps : Prop :=
  ∀ (s : State),
    let cid := s.act.cid
    let c := s.ctx cid
    let ran (i : Instr) (p : State → Prop) : Prop := ∃ u, exec i s = .next u ∧ (u.ctx cid).s = c.s ∧ (u.ctx cid).v = c.v ∧
      (∀ d, d ≠ cid → u.ctx d = s.ctx d) ∧ u.cmds = s.cmds ∧ p u
    ran .resultVisible (fun u =>
      u.mem = s.mem ∧ (∀ p ∈ (u.ctx cid).pend, p.rem ≠ 0) ∧
      (u.ctx cid).stat = c.stat ||| ((c.pend.filter (fun p => p.rem == 0)).map (fun p => p.fl)).foldl (fun a b => a ||| b) 0 ∧
      (∀ w : Fin 15, (u.ctx cid).latch w = (c.pend.filter (fun p => p.rem == 0 && p.u == w)).foldl
        (fun l p => { l with r := p.r.getD l.r, q := p.q.getD l.q }) (c.latch w)) ∧
      (∀ a b : Pend, c.pend = [a, b] → a.rem ≠ 0 → b.rem = 0 → (u.ctx cid).pend = [if a.u = b.u then
        { a with r := if b.r.isSome then none else a.r, q := if b.q.isSome then none else a.q } else a])) ∧
    ran .transferEffect (fun u =>
      u.mem = s.mem ∧
      (∀ t, c.xfer = some { kind := .transfer, target := t, left := 0 } → (u.ctx cid).pc = t ∧ (u.ctx cid).xfer = none) ∧
      ((∀ t, c.xfer ≠ some { kind := .transfer, target := t, left := 0 }) → u.ctx cid = c)) ∧
    ran .loopStateCommit (fun u =>
      u.mem = s.mem ∧ (∀ l ∈ (u.ctx cid).loop, l.rem ≠ 0) ∧
      (∀ l, c.loop = [l] → l.rem = 0 → (u.ctx cid).lc = l.lc.getD c.lc ∧ (u.ctx cid).ecCnt = l.cnt.getD c.ecCnt ∧
        ((u.ctx cid).psP, (u.ctx cid).psB) = l.win.getD (c.psP, c.psB) ∧ (u.ctx cid).loop = [])) ∧
    ran .mapApply (fun u =>
      u.mem = s.mem ∧
      (∀ slot g0 glog slog boff sh, c.applies = [{ kind := .map slot g0 glog slog boff sh, rem := 0 }] →
        (u.core cid.core).wins.get slot = some { g0 := g0, glog := glog, slog := slog, boff := boff, shared := sh,
                                                 dying := false, lines := [], parts := [] } ∧
        (∀ j : Fin 8, j ≠ slot → (u.core cid.core).wins.get j = (s.core cid.core).wins.get j) ∧ (u.ctx cid).applies = [])) ∧
    ran .ownsetApply (fun u =>
      u.mem = s.mem ∧
      (∀ gs n, c.applies = [{ kind := .own gs true n, rem := 0 }] → (u.ctx cid).applies = [] ∧
        u.own = gs.foldl (fun o g => if ownGet o g + n ≤ 255 then ownSet o g (ownGet o g + n) else o) s.own ∧
        (gs.Nodup → (s.own.map (·.1)).Pairwise (· < ·) → ∀ g ∈ gs, 255 < ownGet s.own g + n →
          (3, granuleName cid.core g) ∈ (u.ctx cid).due)) ∧
      (∀ gs n, c.applies = [{ kind := .own gs false n, rem := 0 }] →
        (u.ctx cid).applies = [] ∧ u.own = gs.foldl (fun o g => ownSet o g 0) s.own ∧ (u.ctx cid).due = c.due)) ∧
    ran .fixedStorePerform (fun u =>
      let due (p : PStore) : Bool := p.rem == 0 || c.st != .live
      u.mem = s.mem.applyAll ((c.stores.filter due).flatMap (fun p => wrPairs p.wr)) ∧
      (u.ctx cid).stores = c.stores.filter (fun p => !due p))

/-- Grants and releases count on a granule alone (R97).
From any owner states that list each granule once in rising order: a grant of one puts a granule in state C into E
with count 1 and raises a count below 255 by one; a release lowers a count by one, down to C; setting a count gives
that granule the count and no other granule a new one. -/
def Obligations.OwnerCounts : Prop :=
  ∀ (o : List (Nat × Nat)) (g : Nat), (o.map (·.1)).Pairwise (· < ·) →
    (∀ k h, ownGet (ownSet o g k) h = if h = g then k else ownGet o h) ∧
    (∀ k, ((ownSet o g k).map (·.1)).Pairwise (· < ·)) ∧
    (∀ h, ownGet (grantOne o g) h = if h = g then min 255 (ownGet o g + 1) else ownGet o h) ∧
    (∀ h, ownGet (releaseOne o g) h = if h = g then ownGet o g - 1 else ownGet o h)

/-- Fills, DRAIN and UNMAP of windows (R97, R99, R100, R101, R102, R231, R240, R242, R374).
In memory of canonical form, with no write-back of the core in flight, WINDOW_FILL for an access of a line in whose
place no CORE line stands, and whose home no atomic holds, on a page that is present and that no acknowledged
invalidation still open names: the sectors that the step copies (all that are not yet copied, or the one that it
picks) stand in the line's place of the backing, every other byte is unchanged, and the line is valid, with scope SYS
and nothing written, once all four sectors are copied, and not before. Where a CORE line stands in the place, the
bytes that stores wrote in it stand at its home after the fill. Where the page is not present, memory is unchanged,
FATAL_UNPROBED falls due, and an LDX, VLDX, STX or VSTX is over. DRAIN of CORE completes once the earlier stores,
accesses and AMOs have performed, changes no memory, and lowers st. At the other scopes (CLU, DEV, SYS) it then writes
the CORE lines of the core's windows back and leaves none; at SYS every line left is recorded SYS, below SYS the lines
left in a SHARED window are recorded DEV, and no sector that a fill has copied into a SHARED window is left. UNMAP of
a quiet window whose CORE lines may be written back writes them back, frees its slot, and lowers st. A line with no
home makes FATAL_UNPROBED due instead. That a write-back is acknowledged as it performs, so that DRAIN completes in
the step that performs it, is the model's choice (log entry 31), as is the splitting of fills and write-backs into
sectors (log entry 9). -/
def Obligations.WindowSteps : Prop :=
  (∀ (s : State) (slot : Fin 8) (x : Word) (w : Win),
    let cid := s.act.cid
    let pasid := (s.ctx cid).pasid
    let no := w.lineNo x
    let la := w.g0.toNat + 128 * no
    let place := coreKey cid.core.val (w.boff + 128 * w.place no)
    let js := match s.act.pick with
      | some j => [j % 4]
      | none => [0, 1, 2, 3].filter (fun j => !(w.copied no).contains j)
    s.Inv → s.act.hi = 0 → s.act.flag = false → s.flightsOf (.win cid.core) = [] →
    accessMiss s cid s.act.num = some (slot, x) → (s.core cid.core).wins.get slot = some w →
    lineFree s cid.core pasid la false = true → s.turned cid (BitVec.ofNat 64 la) 128 = false →
    ((∀ l ∈ w.lines, l.slot = w.place no → l.scope ≠ .core) →
      (∀ k, translate s (clusterOf cid.core) pasid la false = .ok k → ∃ u w', exec .windowFill s = .next u ∧
        (∀ j, j < 128 → j / 32 ∈ js → u.mem.get (place + j) = s.mem.get (k + j)) ∧
        (∀ a, (∀ j, j < 128 → j / 32 ∈ js → a ≠ place + j) → u.mem.get a = s.mem.get a) ∧
        (u.core cid.core).wins.get slot = some w' ∧
        ((∀ j, j < 4 → j ∈ w.copied no ∨ j ∈ js) → w'.lineAt (w.place no) =
          some { slot := w.place no, tag := no, scope := .sys, dirty := 0 }) ∧
        ((∃ j, j < 4 ∧ j ∉ w.copied no ∧ j ∉ js) → w'.lineAt (w.place no) = none) ∧
        (∀ d, u.ctx d = s.ctx d)) ∧
      ((∀ k, translate s (clusterOf cid.core) pasid la false ≠ .ok k) → ∃ u, exec .windowFill s = .next u ∧
        u.mem = s.mem ∧ (6, x) ∈ (u.ctx cid).due ∧
        (∀ o, (s.ctx cid).sbAt s.act.num = some o → (u.ctx cid).sbAt o.seq = none))) ∧
    (∀ (l : Line) (h k : Nat), w.lines.filter (fun m => m.slot == w.place no) = [l] → l.scope = .core →
      translate s (clusterOf cid.core) pasid (w.lineAddr l) true = .ok h → atomicHeld s h 128 = false → s.turned cid (BitVec.ofNat 64 (w.lineAddr l)) 128 = false →
      translate s (clusterOf cid.core) pasid la false = .ok k → (h + 128 ≤ place ∨ place + 128 ≤ h) →
      s.act.later = false → ∃ u, exec .windowFill s = .next u ∧
        (∀ j, j < 128 → u.mem.get (h + j) = if l.dirty.getLsbD j then s.mem.get (place + j) else s.mem.get (h + j)))) ∧
  (∀ (s : State) (o : SbOp) (sc : Fin 4),
    let cid := s.act.cid
    let n := cid.core
    let pasid := (s.ctx cid).pasid
    let every : Fin 8 → Win → Line → Bool := fun _ _ _ => true
    (s.ctx cid).sbAt s.act.num = some o → o.kind = .drain sc → accessesDone s cid o.seq = true →
    (sc = 0 → ∃ u, exec .drainComplete s = .next u ∧ u.mem = s.mem ∧ (u.ctx cid).stc = (s.ctx cid).stc - 1 ∧
      (u.ctx cid).sbAt o.seq = none ∧ u.cores = (s.modCtx cid (fun c => c.dropSb o.seq false)).cores) ∧
    (sc ≠ 0 → drainFree s cid every = true → s.act.pick = none →
      (homeless s n pasid every = none → s.act.later = false → s.flightsOf (.win n) = [] →
        ∃ u, exec .drainComplete s = .next u ∧ (u.ctx cid).stc = (s.ctx cid).stc - 1 ∧ (u.ctx cid).sbAt o.seq = none ∧
          u.mem = s.mem.applyAll ((coreLines s n every).flatMap (fun p => lineWrites s n pasid p.1 p.2)) ∧
          ∀ p ∈ (u.core n).slots, (p.2.shared = true → p.2.parts = []) ∧
            ∀ l ∈ p.2.lines, l.scope ≠ .core ∧ (sc = 3 → l.scope = .sys) ∧ (sc ≠ 3 → p.2.shared = true → l.scope = .dev)) ∧
      (∀ x, homeless s n pasid every = some x → ∃ u, exec .drainComplete s = .next u ∧ (6, x) ∈ (u.ctx cid).due ∧
        (u.ctx cid).stc = (s.ctx cid).stc - 1 ∧ (u.ctx cid).sbAt o.seq = none))) ∧
  (∀ (s : State) (o : SbOp) (slot : Fin 8),
    let cid := s.act.cid
    let n := cid.core
    let pasid := (s.ctx cid).pasid
    let mine : Fin 8 → Win → Line → Bool := fun i _ _ => i == slot
    (s.ctx cid).sbAt s.act.num = some o → o.kind = .unmap slot → windowQuiet s n slot = true →
    drainFree s cid mine = true → s.act.pick = none →
    (homeless s n pasid mine = none → s.act.later = false → s.flightsOf (.win n) = [] →
      ∃ u, exec .unmapComplete s = .next u ∧ (u.core n).wins.get slot = none ∧
        u.mem = s.mem.applyAll ((coreLines s n mine).flatMap (fun p => lineWrites s n pasid p.1 p.2)) ∧
        (u.ctx cid).stc = (s.ctx cid).stc - 1 ∧ (u.ctx cid).sbAt o.seq = none) ∧
    (∀ x, homeless s n pasid mine = some x → ∃ u, exec .unmapComplete s = .next u ∧ (6, x) ∈ (u.ctx cid).due ∧
      (u.ctx cid).stc = (s.ctx cid).stc - 1 ∧ (u.ctx cid).sbAt o.seq = none))

/-- Fetching, switching and random words (R27, R58, R124, R240, R242, R300).
INSTRUCTION_FETCH of a sector that is missing at a canonical address, whose page may be read and executed, which no
acknowledged invalidation names and no accepted atomic holds, leaves its 32 bytes in the core's instruction cache, and
changes nothing else of any context and no memory. No other sector comes into the cache, and none leaves it while the
cache holds fewer than 256 lines or the sector's own; else those of one line may leave it (which one is the model's
free choice, log entry 21). CONTEXT_SWITCH, where the running context has blocked, ended or halted, makes the first
context that can issue, counted upward modulo 4 from the one after the running context, the running context, which is
then not blocked; where none can, it notes that the core has stalled, and the context that it names then, which can
issue by now, becomes the running one; a context whose blocked bundle has something to do while it waits counts as one
that can issue, and the order in which contexts become able is that of the schedule (the model's choices, log entry
29). RANDOM_WORD_GENERATE gives the context with the shortest queue, the lowest index where they tie, one word more,
as long as that queue holds fewer than 8; word n of a context is word RBN plus n of its generator's sequence. -/
def Obligations.CoreSteps : Prop :=
  (∀ (s : State) (a : Word) (k : Nat),
    let cid := s.act.cid
    let c := s.ctx cid
    let va := a.toNat / 32 * 32
    let old := (s.core cid.core).icache
    bundleAt old c.nextPc = .inr a → canonical a = true → fetchHeld s c va = false →
    translateX s (clusterOf cid.core) c.pasid va = .ok k → atomicHeld s k 32 = false →
    ∃ u, exec .instructionFetch s = .next u ∧ icacheFind va (u.core cid.core).icache = some (s.mem.bytes k 32) ∧
      (∀ d, u.ctx d = s.ctx d) ∧ u.mem = s.mem ∧
      (∀ b, b ≠ va → icacheFind b (u.core cid.core).icache = icacheFind b old ∨
        icacheFind b (u.core cid.core).icache = none) ∧
      (((icacheLines old).length < 256 ∨ va / 128 ∈ icacheLines old) →
        ∀ b, b ≠ va → icacheFind b (u.core cid.core).icache = icacheFind b old)) ∧
  (∀ (s : State) (i : Fin 4),
    let n := s.act.cid.core
    let r := (s.core n).running
    let can (j : Fin 4) : Bool := canIssue s ⟨n, j⟩ || stirs s ⟨n, j⟩
    let runs (u : State) : Prop := exec .contextSwitch s = .next u ∧ (u.core n).running = i ∧ (u.core n).stalled = false ∧
      u.ctx ⟨n, i⟩ = { s.ctx ⟨n, i⟩ with blocked := false } ∧ (∀ d, d ≠ ⟨n, i⟩ → u.ctx d = s.ctx d) ∧ u.mem = s.mem
    (s.core n).gated = false → leavesOff s n = true →
    ((s.core n).stalled = false → i ≠ r → can i = true → (∀ j : Fin 4, j ≠ r → (j - r).val < (i - r).val → can j = false) →
      ∃ u, runs u) ∧
    ((s.core n).stalled = false → (∀ j, can j = false) → ∃ u, exec .contextSwitch s = .next u ∧ (u.core n).running = r ∧
      (u.core n).stalled = true ∧ (∀ d, u.ctx d = s.ctx d) ∧ u.mem = s.mem) ∧
    ((s.core n).stalled = true → i = s.act.cid.ctx → can i = true → ∃ u, runs u)) ∧
  (∀ (s : State) (i : Fin 4),
    let n := s.act.cid.core
    let len (j : Fin 4) := (s.ctx ⟨n, j⟩).rbq.length
    (∀ j, len i ≤ len j) → (∀ j, j < i → len i < len j) → len i < 8 →
    ∃ u, exec .randomWordGenerate s = .next u ∧
      u.ctx ⟨n, i⟩ = { s.ctx ⟨n, i⟩ with rbq := (s.ctx ⟨n, i⟩).rbq ++
        [rbWord (s.ctx ⟨n, i⟩).rbseed ((s.ctx ⟨n, i⟩).rbn + BitVec.ofNat 48 (len i))] } ∧
      (∀ d, d ≠ ⟨n, i⟩ → u.ctx d = s.ctx d) ∧ u.mem = s.mem)

/-- Counted codebook operations and streams run (R155, R158, R164, R165, R166, R167, R169, R170, R172, R174, R180, R182).
KB_OPERATION_START takes the head of the queue once the unit is free and no earlier reader holds its writes back: one
that touches no memory starts at once with its outputs computed, and no register has changed yet. A KLD or KXLD whose
turn has come and whose bytes are at hand starts with what they hold (R161): KLD with the entries that its header
counts, or an empty codebook where the header names no tag or too many, KXLD with the 256 bytes; a KST or KXST writes
its header and entries, or its 256 bytes, and no byte more, where every line may be written. KMAP gives each entry, up
to the capacity of the new tag, its function's value, rounded to nearest even. KCMP gives the distinct canonical
patterns in the order of their first occurrence and the map to them; KSORT the canonical patterns in rising order,
NaNs last, equal ones in their old order, and the map (that the sorted flag of an empty result is 0 is the model's
choice, log entry 70). KPAIR gives each pair its rounded value, or OVERSIZE beyond 4096 pairs with the verdict 1.
RECLU gives the clusters of the greedy scan under the bound of its mode, their centres, the error rounded up, the
index of every value and the verdict. KREMAP composes two maps, or slices the remapped pair buffer.
KB_OPERATION_COMPLETE, once the context has tried a bundle after the trigger, frees the unit and writes the outputs
into the registers, the latch, the predicate and, while the context holds it, the pair buffer that they name alone,
and lowers tl. STREAM_CAPTURE of a context that is not halted first takes the descriptor's eight words, once the
stores before the WSET have performed and the descriptor is at hand; with them, once the context's earlier codebook
operations are over, it captures the registers that the descriptor names; a held skip is applied once the descriptor
tells the total; a legal descriptor leaves the stream ACTIVE, and an illegal one ends it in ERROR with STAT.SERR. That
only streams that have captured count for the rule of one stream with IXOP = 2, and that CVT with IXOP = 2 and no DEC
is illegal, are the model's choices (log entries 68, 75). STREAM_VECTOR_PRODUCE hands over one vector more where the
sources hold what it needs, and ends the stream as DONE with its last; where a byte cannot be had, it ends the stream
in ERROR with the reason of R184, PRODUCED frozen at the vectors that are complete. The operators of R178 give each
element of an index or value format its lane; parsing takes single elements, runs of 48 or superblocks of 256; a
vector of dense elements without ZR and PAIR holds the elements that the next bytes of the source pack (R179); with ZR
a control byte stands for the literal bytes after it or for zeros. -/
def Obligations.CodebookAndStreamSteps : Prop :=
  (∀ (s : State) (o : KbOp) (r : List KbOp),
    let n := s.act.cid.core
    (s.core n).kbRun = none → (s.core n).kbq = o :: r → kbHeld s ⟨n, o.ctx⟩ o = false → o.extent = 0 →
    ∃ u, exec .kbOperationStart s = .next u ∧ (u.core n).kbq = r ∧
      (u.core n).kbRun = some (o, kbCompute o (s.ctx ⟨n, o.ctx⟩) (s.core n).pair) ∧ (∀ d, u.ctx d = s.ctx d) ∧ u.mem = s.mem) ∧
  (∀ (o : KbOp) (c : Ctx) (p : Pair),
    let out := kbCompute o c p
    let k (lo : Nat) : KReg := c.k.get (kIx (field o.b lo 4))
    let ks := k 0
    let kd := kIx (field o.b 4 4)
    let xd := xIx (field o.b 8 2)
    let fmt := ks.tag.fmt
    let cn (i : Nat) : Nat := fmt.canon (ks.entry i)
    ks.n ≤ ks.tag.cap → (k 4).n ≤ (k 4).tag.cap →
    (o.n = 2 → ∃ q, out = { KbOut.nothing with k := some (kd, q) } ∧
      let f := o.t % 16
      let tag := tagOf (field o.b 8 2) ks.tag
      let a := Fmt.f32.value (o.o1.toNat % 2 ^ 32)
      let b := Fmt.f32.value (o.o2.toNat % 2 ^ 32)
      let real (x : Rl) : Rl :=
        if x.isNaN then .nan
        else if f = 0 then x.minus
        else if f = 1 then x.withSign false
        else if f = 2 then (if (rlZero false).lt x then x else rlZero false)
        else if f = 3 then (x.pick true a).pick false b
        else if f = 4 then (a.mul x).add false b
        else if f = 5 then x.mul x
        else if f = 15 then x.toIntegral (modeOf o.o1)
        else x
      q.holds tag ((ks.entries.take tag.cap).map (fun e => match kmapFn f with
        | some g => (g.round fmt tag.fmt e .rne).pat
        | none => (roundTo tag.fmt (real (fmt.value e)) .rne).pat))) ∧
    (o.n = 3 → ∃ q : Pair, q.holder = some o.ctx ∧ q.na = ks.n ∧ q.nb = (k 4).n ∧
      (4096 < ks.n * (k 4).n → q.st = .oversize ∧ out = { KbOut.nothing with pair := some q, c := some (xd, true) }) ∧
      (ks.n * (k 4).n ≤ 4096 → q.st = .values ∧ q.p.length = ks.n * (k 4).n ∧
        out = { KbOut.nothing with pair := some q, c := some (xd, field o.kpol 60 2 == 2) } ∧
        ∀ i j, i < ks.n → j < (k 4).n → ∃ y, q.p[i * (k 4).n + j]? = some (BitVec.ofNat 32 (roundTo .f32 y .rne).pat) ∧
          let x := fmt.value (ks.entry i)
          let z := (k 4).tag.fmt.value ((k 4).entry j)
          (o.t % 16 = 0 → y = x.add false z) ∧ (o.t % 16 = 1 → y = x.add false z.minus) ∧ (o.t % 16 = 2 → y = x.mul z) ∧
            (o.t % 16 = 3 → y = x.pick false z) ∧ (o.t % 16 = 4 → y = x.pick true z) ∧ (o.t % 16 = 5 → y = x.div z))) ∧
    (o.n = 4 → ∃ l q x, q.holds ks.tag l ∧ out = { KbOut.nothing with k := some (kd, q), x := some (xd, x) } ∧ l.Nodup ∧
      (∀ i, i < ks.n → l[xAt x i]? = some (cn i)) ∧ (∀ i, ks.n ≤ i → i < 256 → xAt x i = 255) ∧
      (∀ t, t < l.length → ∃ i, i < ks.n ∧ xAt x i = t ∧ ∀ j, j < i → xAt x j < t)) ∧
    (o.n = 5 → ∃ l q x, q.holds ks.tag l ∧ out = { KbOut.nothing with k := some (kd, q), x := some (xd, x) } ∧
      l.length = ks.n ∧ (∀ i, i < ks.n → l[xAt x i]? = some (cn i)) ∧ (∀ i, ks.n ≤ i → i < 256 → xAt x i = 255) ∧
      (∀ i j, i < ks.n → j < ks.n → i ≠ j → (xAt x i < xAt x j ↔
        let a := fmt.value (cn i)
        let b := fmt.value (cn j)
        a.lt b = true ∨ (a.isNaN = false ∧ b.isNaN = true) ∨
          (b.lt a = false ∧ a.isNaN = b.isNaN ∧ i < j)))) ∧
    (o.n = 6 → o.b.getLsbD 8 = false → ¬(p.holder = some o.ctx ∧ p.st = .values) →
      out = { KbOut.nothing with r := some 0x7F800000, c := some (xIx (field o.b 9 2), true) }) ∧
    (o.n = 6 → (o.b.getLsbD 8 = true ∨ (p.holder = some o.ctx ∧ p.st = .values)) →
      let src := o.b.getLsbD 8
      let v := if src then ks.values else p.p.map (fun x => Fmt.f32.value x.toNat)
      let q := reclu (o.t % 16) o.o1 o.o2 o.kpol (tagOf (field o.b 11 2) (if src then ks.tag else .f32)) v
      out.r = some q.r ∧ out.c = some (xIx (field o.b 9 2), q.c) ∧ out.k = q.out.map (fun y => (kd, y.1)) ∧
      out.x = (if src then q.out.map (fun y => (xIx (field o.b 13 2), xMap y.2)) else none) ∧
      out.pair = (if src then none else q.out.map (fun y => { p with st := .remap, p := y.2.map (BitVec.ofNat 32) }))) ∧
    (o.n = 7 → ∃ x, out = { KbOut.nothing with x := some (xIx (field o.b 0 2), x) } ∧ ∀ i, i < 256 → xAt x i =
      if o.b.getLsbD 8 = false then xAt (c.x.get (xIx (field o.b 4 2))) (xAt (c.x.get (xIx (field o.b 2 2))) i)
      else if p.holder = some o.ctx ∧ p.st = .remap ∧ field o.b 16 8 < p.nb ∧ i < p.na then
        (p.p.getD (i * p.nb + field o.b 16 8) 0).toNat % 256
      else 255)) ∧
  (∀ (v : List Rl) (mode : Nat) (o1 o2 kpol : Word) (tag : KTag),
    let q := reclu mode o1 o2 kpol tag v
    let i := recluIn v
    let fin := (v.filter (fun x => !x.isNaN && !x.isInf)).map Rl.fine
    let or256 (x : Nat) : Nat := if x = 0 then 256 else x
    let lim := min (or256 (field o2 0 9)) (min (min (or256 (field kpol 48 9)) 256) tag.cap)
    let neg := Rl.inf true ∈ v
    let pos := Rl.inf false ∈ v
    let nan := ∃ x ∈ v, x.isNaN = true
    let b := boundOf (Fmt.f32.value (o1.toNat % 2 ^ 32))
    (i.neg = true ↔ neg) ∧ (i.pos = true ↔ pos) ∧ (i.nan = true ↔ nan) ∧ i.sp = i.neg.toNat + i.pos.toNat + i.nan.toNat ∧
    (∀ x ∈ fin, (x.natAbs : Int) ≤ i.m) ∧ (fin = [] → i.m = 0) ∧ (fin ≠ [] → ∃ x ∈ fin, i.m = (x.natAbs : Int)) ∧
    (∀ e : Option Int, (∀ x, e = some x → 0 ≤ x) →
      ∃ l, Clusters fin e l ∧ i.count e = l.length + i.sp) ∧
    ∃ (e : Option Int) (l : List (Int × Int)) (err : Nat), Clusters fin e l ∧
      (mode = 0 → e = b) ∧
      (mode = 1 → e = match b with
        | none => if i.m = 0 then some 0 else none
        | some x => some (x * i.m / 2 ^ 298)) ∧
      (2 ≤ mode → (i.count (some 0) ≤ lim → e = some 0) ∧
        (lim < i.count (some 0) → lim < 1 + i.sp → e = none) ∧
        (lim < i.count (some 0) → 1 + i.sp ≤ lim → ∃ h, 0 < h ∧ h ≤ 0x7F800000 ∧ e = boundOf (Fmt.f32.value h) ∧
          i.count e ≤ lim ∧ lim < i.count (boundOf (Fmt.f32.value (h - 1))))) ∧
      let f := tag.fmt
      let order := (if i.neg then [f.signed true f.infMag] else []) ++ l.map (cent f) ++
        (if i.pos then [f.infMag] else []) ++ (if i.nan then [f.qnan] else [])
      err = (roundTo .f32 (clusterErr f l) .rup).pat ∧ q.r = BitVec.ofNat 64 err ∧
      q.c = verdictDense kpol order.length (Fmt.f32.value err) (ofFine i.m) true lim tag ∧
      (tag.cap < order.length → q.out = none) ∧
      (order.length ≤ tag.cap → ∃ kr ix, q.out = some (kr, ix) ∧ kr.holds tag order ∧ ix.length = v.length ∧
        ∀ (j : Nat) (x : Rl), v[j]? = some x → ∃ y, ix[j]? = some y ∧
          (x = .inf true → y = 0) ∧ (x = .inf false → y = i.neg.toNat + l.length) ∧
          (x.isNaN = true → y = i.neg.toNat + l.length + i.pos.toNat) ∧
          (x.isNaN = false → x.isInf = false → ∃ c, i.neg.toNat ≤ y ∧ l[y - i.neg.toNat]? = some c ∧
            c.1 ≤ x.fine ∧ x.fine ≤ c.2))) ∧
  (∀ (kpol : Word) (n : Nat) (err m : Rl) (ok : Bool) (lim : Nat) (tag : KTag),
    let ovr := field kpol 60 2
    let mode := field kpol 58 2
    let exceeded (thr scale : Rl) : Prop :=
      thr.isNaN = false ∧ (thr.lt (rlZero false) = true ∨ (thr.mul scale).lt err = true)
    (verdictDense kpol n err m ok lim tag = true ↔ ovr = 2 ∨ ok = false ∨ tag.cap < n ∨ (ovr ≠ 1 ∧ (lim < n ∨
      ((mode = 1 ∨ mode = 3) ∧ exceeded (Fmt.f32.value (field kpol 0 32)) (rlInt 1)) ∨
      ((mode = 2 ∨ mode = 3) ∧ exceeded (Fmt.bf16.value (field kpol 32 16)) m))))) ∧
  (∀ (s : State) (o : KbOp) (out : KbOut),
    let n := s.act.cid.core
    let cid : Cid := ⟨n, o.ctx⟩
    (s.core n).kbRun = some (o, out) → (s.ctx cid).young o.seq = false →
    ∃ u, exec .kbOperationComplete s = .next u ∧ (u.core n).kbRun = none ∧ (u.core n).kbq = (s.core n).kbq ∧ u.mem = s.mem ∧
      (u.core n).pair = (if (s.core n).pair.holder = some o.ctx then out.pair.getD (s.core n).pair else (s.core n).pair) ∧
      (u.ctx cid).tl = (s.ctx cid).tl - 1 ∧
      (∀ i : Fin 16, (u.ctx cid).k.get i = match out.k with
        | some (j, q) => if i = j then q else (s.ctx cid).k.get i
        | none => (s.ctx cid).k.get i) ∧
      (∀ i : Fin 4, (u.ctx cid).x.get i = match out.x with
        | some (j, q) => if i = j then q else (s.ctx cid).x.get i
        | none => (s.ctx cid).x.get i) ∧
      (∀ i : Fin 4, (u.ctx cid).c.get i = match out.c with
        | some (j, q) => if i = j then q else (s.ctx cid).c.get i
        | none => (s.ctx cid).c.get i) ∧
      ((u.ctx cid).latch 13).r = (match out.r with | some q => .sc q | none => ((s.ctx cid).latch 13).r) ∧
      (∀ w : Fin 15, w ≠ 13 → (u.ctx cid).latch w = (s.ctx cid).latch w) ∧
      (u.ctx cid).s = (s.ctx cid).s ∧ (∀ d, d ≠ cid → u.ctx d = s.ctx d)) ∧
  (∀ (s : State) (o : KbOp) (r : List KbOp) (at' : Nat → Nat),
    let n := s.act.cid.core
    let cid : Cid := ⟨n, o.ctx⟩
    let len := kbLength s cid o
    let num (m : Mem) (j k : Nat) : Nat := leNat ((List.range k).map (fun i => m.get (at' (j + i))))
    let starts (u : State) (out : KbOut) : Prop := exec .kbOperationStart s = .next u ∧ (u.core n).kbq = r ∧
      (u.core n).kbRun = some (o, out) ∧ ∀ d, u.ctx d = s.ctx d
    s.Inv → (s.core n).kbRun = none → (s.core n).kbq = o :: r → kbHeld s cid o = false → kbTurn s cid o = true →
    (∀ j, j < len → kbTarget s cid o j = .at (at' j)) →
    (o.n = 0 → ∃ u q, starts u { KbOut.nothing with k := some (kIx (field o.o1 0 4), q) } ∧ u.mem = s.mem ∧
      let count := num s.mem 0 8 % 2 ^ 9
      let tag := num s.mem 0 8 / 2 ^ 16 % 4
      (tag = 3 ∨ (∀ t : KTag, t.num = tag → t.cap < count) → q.n = 0 ∧ q.tag = .f32 ∧ q.st = 0) ∧
      (∀ t : KTag, t.num = tag → count ≤ t.cap → q.holds t ((List.range count).map (fun i =>
        num s.mem (8 + i * (t.fmt.width / 8)) (t.fmt.width / 8))))) ∧
    (o.n = 11 → ∃ u x, starts u { KbOut.nothing with x := some (xIx (field o.o1 0 2), x) } ∧ u.mem = s.mem ∧
      ∀ i, i < 256 → xAt x i = (s.mem.get (at' i)).toNat) ∧
    ((o.n = 1 ∨ o.n = 12) → (∀ i j, i < len → j < len → at' i = at' j → i = j) →
      (∀ j, j < len → ∃ h, windowFate s cid o.win (o.byteAt j) = .ok h) →
      ∃ u, starts u KbOut.nothing ∧ (∀ a, (∀ j, j < len → a ≠ at' j) → u.mem.get a = s.mem.get a) ∧
        (o.n = 12 → ∀ i, i < 256 → (u.mem.get (at' i)).toNat = xAt ((s.ctx cid).x.get (xIx (field o.o1 0 2))) i) ∧
        (o.n = 1 →
          let k := (s.ctx cid).k.get (kIx (field o.o1 0 4))
          len = 8 + k.n * (k.tag.fmt.width / 8) ∧ num u.mem 0 8 = k.n + k.tag.num * 2 ^ 16 + k.sorted.toNat * 2 ^ 18 ∧
          (k.n ≤ k.tag.cap → ∀ i, i < k.n →
            num u.mem (8 + i * (k.tag.fmt.width / 8)) (k.tag.fmt.width / 8) = k.entry i)))) ∧
  (∀ (q : Strm) (free : Nat),
    let known : Prop := q.words ≠ [] ∧
      (q.capt = true ∨ q.cvt = true ∨ q.indexed = false ∨ (q.dec = false ∧ q.ixop ≠ 2))
    let k := min q.skip ((if 9 < q.ifmt ∨ (q.cvt = true ∧ 4 < q.ch 27 3) then free else q.total) - q.popped)
    (known → q.skipHeld free =
      { q with skip := 0, popped := q.popped + k, vecs := q.vecs.drop k, marks := q.marks.drop k }) ∧
    (¬ known → q.skipHeld free = q)) ∧
  (∀ (s : State) (st : Strm),
    let cid := s.act.cid
    let c := s.ctx cid
    let free := s.freeWord.toNat % 2 ^ 24
    c.streamsRun = true → c.w.get s.act.strm = some st → st.capt = false →
    (∀ k, st.words = [] → storesDone c st.seq = true → targetOf s cid st.win st.desc 64 = .at k →
      ∃ u, exec .streamCapture s = .next u ∧ u.mem = s.mem ∧
        u.ctx cid = c.setW s.act.strm (some ({ st with words := descWords s.mem k 8 }.skipHeld free))) ∧
    (st.words ≠ [] → (∀ o ∈ s.kbOps cid, st.seq ≤ o.seq) →
      let st' := (st.capture c (s.core cid.core).pair cid.ctx).skipHeld free
      let other := otherPremap c s.act.strm
      (other = true ↔ ∃ i t, i ≠ s.act.strm ∧ c.w.get i = some t ∧ t.capt = true ∧ t.ixop = 2) ∧
      (st'.bad other = false → ∃ u, exec .streamCapture s = .next u ∧ u.mem = s.mem ∧
        (u.ctx cid).w.get s.act.strm = some st' ∧ (u.ctx cid).stat = c.stat) ∧
      (st'.bad other = true → ∃ u q, exec .streamCapture s = .next u ∧ (u.ctx cid).w.get s.act.strm = some q ∧
        q.st = .error ∧ q.reason = 1 ∧ q.capt = true ∧ (u.ctx cid).stat.getLsbD 7 = true))) ∧
  (∀ (s : State) (st st' : Strm),
    let cid := s.act.cid
    s.act.flag = false → s.act.pick = none → (s.ctx cid).streamsRun = true → (s.ctx cid).w.get s.act.strm = some st →
    st.mayProduce = true → storesDone (s.ctx cid) st.seq = true → (s.ctx cid).young st.seq = false →
    (∀ x, parseVector s cid 130 st = (st', .got x) →
      ∃ u q, exec .streamVectorProduce s = .next u ∧ (u.ctx cid).w.get s.act.strm = some q ∧ q.parsed = st'.parsed + 1 ∧
        q.elq = st'.elq.drop st'.needs ∧
        q.vecs = (if st'.parsed < st'.popped then st'.vecs
          else st'.vecs ++ [vecOf st'.lane ((st'.elq.take st'.needs).map BitVec.toNat)]) ∧
        (q.st = .done ↔ (st'.st = .done ∨ (st'.st = .active ∧ st'.parsed + 1 = st'.total)))) ∧
    (∀ r, parseVector s cid 130 st = (st', .fail r) → st.st = .active →
      ∃ u q, exec .streamVectorProduce s = .next u ∧ (u.ctx cid).w.get s.act.strm = some q ∧ q.st = .error ∧ q.reason = r ∧
        q.made = st'.parsed ∧ q.vecs = st'.vecs ∧ (u.ctx cid).stat.getLsbD 7 = true)) ∧
  (∀ (st : Strm) (x y : Nat),
    let dst := fmtOf (st.ch 27 3)
    let cvt (f : Fmt) (p : Nat) : Nat := if st.cvt = false ∨ f = dst then p
      else (roundTo dst (f.value p) (if st.ch 30 2 = 0 then .rne else if st.ch 30 2 = 1 then .rtz else .sat)).pat
    let kd := st.kd.tag.fmt
    let dec (j : Nat) : Nat × Bool :=
      if st.dec = false then (j, false) else if j < st.kd.n then (cvt kd (st.kd.entry j), false) else (cvt kd 0, j != 0x8000)
    let p := if x < st.ka.n ∧ y < st.kb.n then x * st.kb.n + y else 0xFFFF
    let decode (k : KReg) (j : Nat) : Rl := if j < k.n then k.tag.fmt.value (k.entry j) else rlZero false
    let a := decode st.ka x
    let b := decode st.kb y
    (st.ifmt < 5 ∨ st.ifmt = 9 → st.element x y = (cvt (if st.ifmt = 9 then .f32 else fmtOf st.ifmt) x, false)) ∧
    (5 ≤ st.ifmt → st.ifmt ≤ 8 → st.pairs = false → st.ixop = 0 → st.element x y = dec x) ∧
    (5 ≤ st.ifmt → st.ifmt ≤ 8 → st.pairs = false → st.ixop = 1 →
      st.element x y = dec (if x < 256 then xAt st.xr x else x)) ∧
    (5 ≤ st.ifmt → st.ifmt ≤ 8 → st.pairs = true → st.ixop = 0 → st.element x y = dec p) ∧
    (5 ≤ st.ifmt → st.ifmt ≤ 8 → st.pairs = true → st.ixop = 2 → st.dense = false →
      st.element x y = dec (if p < st.ka.n * st.kb.n then (st.tmap.getD p 0).toNat else 255)) ∧
    (5 ≤ st.ifmt → st.ifmt ≤ 8 → st.ixop = 2 → st.dense = true → ∀ v : Rl,
      ((st.ch 10 3 = 0 ∧ v = a.add false b) ∨ (st.ch 10 3 = 1 ∧ v = a.add false b.minus) ∨ (st.ch 10 3 = 2 ∧ v = a.mul b) ∨
        (st.ch 10 3 = 3 ∧ v = a.pick false b) ∨ (st.ch 10 3 = 4 ∧ v = a.pick true b) ∨ (st.ch 10 3 = 5 ∧ v = a.div b)) →
      st.element x y = ((roundTo (if st.cvt then dst else if st.dec then kd else .f32) v .rne).pat, false))) ∧
  (∀ (st : Strm) (x : Nat),
    let q := st.sp
    let w := st.width
    (st.ifmt ≤ 8 → w = (match st.ifmt with | 0 => 32 | 1 => 16 | 2 => 16 | 3 => 8 | 4 => 8 | 5 => 2 | 6 => 4 | 7 => 6 | _ => 8)) ∧
    (st.ifmt ≤ 8 → q = 0 → st.parse x = [x] ∧ st.groupBits = w) ∧
    (st.ifmt ≤ 8 → q ≠ 0 → st.groupBits = 12 * q * w + 24 * q ∧ (st.parse x).length = 48 ∧ ∀ e, e < 48 →
      let i (t : Nat) : Nat := e / 4 * q + t
      let names (t : Nat) : Prop := x / 2 ^ (12 * q * w + 2 * i t) % 4 = e % 4
      ((∀ t, t < q → ¬ names t) → (st.parse x)[e]? = some (if st.indexed then 0x8000 else 0)) ∧
      (∀ t, t < q → names t → (∀ j, j < q → t < j → ¬ names j) → (st.parse x)[e]? = some (laneOf w x (i t)))) ∧
    (st.ifmt = 9 → st.groupBits = 1088 ∧ (st.parse x).length = 256 ∧ ∀ e, e < 256 → (st.parse x)[e]? =
      some (sn4Decode (laneOf 4 x e) (laneOf 8 (x / 2 ^ 1024) (e / 64)) (x / 2 ^ 1056 % 2 ^ 32)))) ∧
  (∀ (s : State) (cid : Cid) (st : Strm) (byte : Nat → Byte) (pos : Nat),
    let w := st.width
    let k := st.needs
    let len := (k * w + 7) / 8
    let code (e : Nat) : Nat := laneOf w (leNat ((List.range len).map byte)) e
    st.zr = false → st.sp = 0 → st.ifmt ≤ 8 → st.pairs = false → st.elq = [] →
    st.rdA = { pos := pos, lit := 0, zero := 0, acc := 0, accN := 0 } →
    (∀ i, i < len → ∃ a, st.addrA (pos + i) = some a ∧ sourceByte s cid st a = .got (byte i).toNat) →
    ∃ t, parseVector s cid 130 st = (t, .got 0) ∧ t.parsed = st.parsed ∧ t.rdA.pos = pos + len ∧
      t.elq = (List.range k).map (fun e => BitVec.ofNat 32 (st.element (code e) 0).1) ∧
      (t.koor = true ↔ st.koor = true ∨ ∃ e, e < k ∧ (st.element (code e) 0).2 = true)) ∧
  (∀ (s : State) (cid : Cid) (st : Strm) (r : Reader),
    (st.addrA r.pos = none → r.zero = 0 → pullA s cid st r = (r, .fail (if st.zr = true ∧ r.lit ≠ 0 then 3 else 4))) ∧
    (∀ a, st.addrA r.pos = some a → (st.zr = true → r.zero = 0) → st.sector a = none →
      targetOf s cid ((s.core cid.core).coverOf a) a 1 = .gone → pullA s cid st r = (r, .fail 2)) ∧
    (st.zr = true → r.zero ≠ 0 → pullA s cid st r = ({ r with zero := r.zero - 1 }, .got 0)) ∧
    (∀ a x, st.zr = true → r.zero = 0 → st.addrA r.pos = some a → sourceByte s cid st a = .got x →
      (r.lit ≠ 0 → pullA s cid st r = ({ r with pos := r.pos + 1, lit := r.lit - 1 }, .got x)) ∧
      (r.lit = 0 → 128 ≤ x → pullA s cid st r = ({ r with pos := r.pos + 1, zero := x % 128 }, .got 0)) ∧
      (r.lit = 0 → x < 128 → ∀ b y, st.addrA (r.pos + 1) = some b → sourceByte s cid st b = .got y →
        pullA s cid st r = ({ r with pos := r.pos + 2, lit := x }, .got y))))

/-- Matrix operations run in queue order (R188, R189, R192, R193, R195, R196, R197, R200, R201, R202, R203, R204).
MX_OPERATION_START takes the head of the queue once no operation runs and, unless it is an MZERO or MCFG, the
context's earlier stores have performed: an operation that is no MMA, and an MMA on a poisoned tile, may then complete
at once; an MMA under an invalid configuration or pairing sets CFG in its tile's STATUS, and one that is misplaced
sets ADDR. An MMA that passes starts at chunk 0 with k0 captured. TILE_LINE_ARRIVAL of a line that the chunk needs
leaves the line at hand, pinned and then read in place where the limits let it, or, where its page is not present,
sets FAULT, ends the MMA and makes FATAL_UNPROBED due, with the start of the line as its argument (the model's choice,
log entry 77). MMA_CHUNK adds the chunk whose lines are at hand to the tile, and to no other: each element gains the
exact sum of the products of the elements that R193 lays out for its row and column, rounded once in an F32 tile and
modulo 2^32 in an I32 one, and each row sum that of its row's elements; an IX4 index at or above k0's count sets KOOR
(R126). MX_OPERATION_COMPLETE lowers tl and frees the unit. MZERO leaves a zero tile of the type that it names, MCFG
its context's configuration. MLOAD copies the words of the image, or sets ADDR alone where b is misaligned or the
image leaves its window class, and FAULT with FATAL_UNPROBED where a page is not present. MSETQ takes the scale and
zero table, or turns QEN off; a bad b also makes the drain configuration invalid. MSETD takes a valid descriptor, and
leaves the configuration invalid where it is not. MDRAIN leaves every tile as it was and writes each element, through
the steps of R203, and the summary word, and no other byte; under an invalid configuration only the summary word with
DCFG. That MX works off a drain and its arrivals sector by sector is left to the step (log entry 9). -/
def Obligations.MatrixSteps : Prop :=
  (∀ (s : State) (o : MxOp) (r : List MxOp),
    let n := s.act.cid.core
    let k := s.core n
    let cid : Cid := ⟨n, o.ctx⟩
    let t := k.tiles.get o.tile
    let cfg := k.mxCfg.get o.ctx
    let m := mmaOf cfg o
    let starts (chk : State → MxRun → Prop) : Prop := ∃ u q, exec .mxOperationStart s = .next u ∧ (u.core n).mxq = r ∧
      (u.core n).mxRun = some q ∧ q.op = o ∧ q.chunk = 0 ∧ q.lines = [] ∧ q.sum = none ∧ u.mem = s.mem ∧
      (∀ d, u.ctx d = s.ctx d) ∧ chk u q
    let same (u : State) : Prop := (u.core n).tiles = k.tiles
    k.mxRun = none → k.mxq = o :: r → (storesDone (s.ctx cid) o.seq = true ∨ o.n = 1 ∨ o.n = 6) →
    (o.n ≠ 0 → starts (fun u q => q.fin = true ∧ same u)) ∧
    (o.n = 0 → t.poisoned = true → starts (fun u q => q.fin = true ∧ same u)) ∧
    (o.n = 0 → t.poisoned = false →
      ((cfg.valid = false ∨ mmaPairs m (o.t / 2 % 2 == 1) t.int = false) →
        starts (fun u q => q.fin = true ∧ (u.core n).tiles.get o.tile = { t with status := t.status ||| 2 })) ∧
      (cfg.valid = true → mmaPairs m (o.t / 2 % 2 == 1) t.int = true →
        (m.placed = false → starts (fun u q => q.fin = true ∧ (u.core n).tiles.get o.tile = { t with status := t.status ||| 4 })) ∧
        (m.placed = true → (m.bfmt = 7 → kbDone s cid o.seq = true) →
          starts (fun u q => q.kreg = (s.ctx cid).k.get 0 ∧ (q.fin = true ↔ m.k = 0) ∧ same u))))) ∧
  (∀ (s : State) (r : MxRun) (m : Mma),
    let n := s.act.cid.core
    let cid : Cid := ⟨n, r.op.ctx⟩
    let a := s.act.word
    mmaRuns s n = some (r, m) → a ∈ m.lines r.chunk → (∀ l ∈ r.lines, l.addr ≠ a) → localHeld s n a 128 = false →
    extentQuiet s cid (s.ctx cid).pasid a 128 = true →
    (∀ k, accessKey s n (s.ctx cid).pasid a false = .ok k → ∃ u q l, exec .tileLineArrival s = .next u ∧ u.mem = s.mem ∧
      (u.core n).mxRun = some q ∧ q.op = r.op ∧ q.chunk = r.chunk ∧ q.lines = r.lines ++ [l] ∧ l.addr = a ∧ l.key = k ∧
      (l.pin = true ↔ s.mayPin k = true) ∧
      l.bytes = (if l.pin then none else some (s.mem.bytes k 128))) ∧
    ((∀ k, accessKey s n (s.ctx cid).pasid a false ≠ .ok k) → ∃ u q, exec .tileLineArrival s = .next u ∧ u.mem = s.mem ∧
      (u.core n).mxRun = some q ∧ q.fin = true ∧ q.lines = [] ∧ (6, a) ∈ (u.ctx cid).due ∧
      ((u.core n).tiles.get r.op.tile).status = ((s.core n).tiles.get r.op.tile).status ||| 8)) ∧
  (∀ (s : State) (r : MxRun) (m : Mma),
    let n := s.act.cid.core
    mmaRuns s n = some (r, m) → (∀ a ∈ m.lines r.chunk, ∃ l ∈ r.lines, l.addr = a) →
    ∃ u q, exec .mmaChunk s = .next u ∧ u.mem = s.mem ∧ (∀ d, u.ctx d = s.ctx d) ∧
      (u.core n).tiles.get r.op.tile = m.chunkTile r.kreg s.mem r.lines r.chunk ((s.core n).tiles.get r.op.tile) ∧
      (∀ j : Fin 8, j ≠ r.op.tile → (u.core n).tiles.get j = (s.core n).tiles.get j) ∧
      (u.core n).mxRun = some q ∧ q.chunk = r.chunk + 1 ∧ (q.fin = true ↔ r.chunk + 1 = m.chunks)) ∧
  (∀ (m : Mma) (k0 : KReg) (mem : Mem) (ls : List TileLine) (c : Nat) (t : Tile) (code : Nat → Nat → Option Nat),
    let len := min 48 (m.k - 48 * c)
    let num (a : Word) (n : Nat) : Nat := lineNat mem ls a n
    let asz := if m.afmt = 2 ∨ m.afmt = 3 then 2 else 1
    let bits := match m.bfmt with | 2 | 3 => 16 | 5 | 6 | 7 => 4 | _ => 8
    let run := 12 * m.sp * bits / 8 + 3 * m.sp
    let col (j x : Nat) : Word := m.b + BitVec.ofNat 64 (j * m.ldb + x)
    let aCode (i e : Nat) : Nat := num (m.a + BitVec.ofNat 64 (i * m.lda + (48 * c + e) * asz)) asz
    let value (f x : Nat) : Rl := match f with
      | 0 => Fmt.e4m3.value x | 1 => Fmt.e5m2.value x | 2 => Fmt.bf16.value x | 3 => Fmt.f16.value x
      | 4 => rlInt (signedOf 8 x) | 5 => rlInt x | 6 => Fmt.f32.value x
      | _ => if x < k0.n then k0.tag.fmt.value (k0.entry x) else rlZero false
    let a (i e : Nat) : Rl := value m.afmt (aCode i e)
    let b (j e : Nat) : Rl := ((code j e).map (value m.bfmt)).getD (rlZero false)
    let total (f : Nat → Rl) : Rl :=
      let x := ((List.range len).map f).foldl (Rl.add false) (rlZero false)
      if x.isZero then rlZero false else x
    let sum (f : Nat → Int) : Int := ((List.range len).map f).sum
    let plus (w : BitVec 32) (x : Rl) : BitVec 32 :=
      BitVec.ofNat 32 (roundTo .f32 ((Fmt.f32.value w.toNat).add false x) .rne).pat
    m.afmt < 5 → m.bfmt < 8 →
    (∀ j e, j < 32 → e < len →
      let g := 48 * c + e
      (m.bfmt = 6 →
        let y := num (col j (136 * (g / 256))) 136
        code j e = some (sn4Decode (laneOf 4 y (g % 256)) (laneOf 8 (y / 2 ^ 1024) (g % 256 / 64)) (y / 2 ^ 1056 % 2 ^ 32))) ∧
      (m.bfmt ≠ 6 → m.sp = 0 →
        code j e = some (num (col j (g * bits / 8)) (max 1 (bits / 8)) / 2 ^ (g * bits % 8) % 2 ^ bits)) ∧
      (m.bfmt ≠ 6 → m.sp ≠ 0 →
        let x := num (col j (run * c)) run
        let k (q : Nat) : Nat := e / 4 * m.sp + q
        let names (q : Nat) : Prop := x / 2 ^ (12 * m.sp * bits + 2 * k q) % 4 = e % 4
        ((∀ q, q < m.sp → ¬ names q) → code j e = none) ∧
        (∀ q, q < m.sp → names q → (∀ p, q < p → p < m.sp → ¬ names p) → code j e = some (laneOf bits x (k q))))) →
    let u := m.chunkTile k0 mem ls c t
    (∀ i j, i < 32 → j < 32 →
      (t.int = false → u.acc[32 * i + j]? = (t.acc[32 * i + j]?).map (fun w => plus w (total (fun e => (a i e).mul (b j e))))) ∧
      (t.int = true → m.afmt = 4 → (m.bfmt = 4 ∨ m.bfmt = 5) → u.acc[32 * i + j]? = (t.acc[32 * i + j]?).map (fun w =>
        w + BitVec.ofInt 32 (sum (fun e => signedOf 8 (aCode i e) * ((code j e).map (fun x : Nat =>
          if m.bfmt = 4 then signedOf 8 x else (x : Int))).getD 0))))) ∧
    (∀ i, i < 32 →
      (t.int = false → u.rs[i]? = (t.rs[i]?).map (fun w => plus w (total (a i)))) ∧
      (t.int = true → m.afmt = 4 → u.rs[i]? = (t.rs[i]?).map (fun w =>
        w + BitVec.ofInt 32 (sum (fun e => signedOf 8 (aCode i e)))))) ∧
    (let beyond : Prop := ∃ j e x, j < 32 ∧ e < len ∧ code j e = some x ∧ m.bfmt = 7 ∧ k0.n ≤ x
     (beyond → u.status = t.status ||| 1) ∧ (¬ beyond → u.status = t.status)) ∧
    u.int = t.int ∧ u.qen = t.qen ∧ u.sc = t.sc ∧ u.zp = t.zp ∧ u.drain = t.drain) ∧
  (∀ (s : State) (r : MxRun),
    let n := s.act.cid.core
    let cid : Cid := ⟨n, r.op.ctx⟩
    let pasid := (s.ctx cid).pasid
    let o := r.op
    let t := (s.core n).tiles.get o.tile
    let ends (chk : State → Prop) : Prop := ∃ u, exec .mxOperationComplete s = .next u ∧ (u.core n).mxRun = none ∧
      (u.ctx cid).tl = (s.ctx cid).tl - 1 ∧ chk u
    let tile (x : Tile) : State → Prop := fun u => u.mem = s.mem ∧ (u.core n).tiles.get o.tile = x ∧
      ∀ j : Fin 8, j ≠ o.tile → (u.core n).tiles.get j = (s.core n).tiles.get j
    let free (a : Word) (len : Nat) : Prop := localHeld s n a len = false ∧ extentQuiet s cid pasid a len = true
    let word (i : Nat) : BitVec 32 := BitVec.ofNat 32 (leNat (readBytes s n pasid (o.b + BitVec.ofNat 64 (4 * i)) 4))
    let reads (al len : Nat) (bad fault ok : Tile) : Prop :=
      (o.b.toNat % al ≠ 0 ∨ extentOk o.b len = false → ends (tile bad)) ∧
      (o.b.toNat % al = 0 → extentOk o.b len = true → free o.b len →
        (firstBad s n pasid o.b len false = none → ends (tile ok)) ∧
        (∀ a x, firstBad s n pasid o.b len false = some (a, x) → ends (fun u => tile fault u ∧ (6, a) ∈ (u.ctx cid).due)))
    s.Inv → (s.core n).mxRun = some r → r.fin = true → r.sum = none → r.lines = [] → s.act.pick = none → s.act.later = false →
    s.flightsOf (.mx n) = [] →
    (o.n = 0 → ends (tile t)) ∧
    (o.n = 1 → ends (tile
      { t with acc := List.replicate 1024 0, rs := List.replicate 32 0, int := o.b.getLsbD 0, status := 0 })) ∧
    (o.n = 6 → ends (fun u => tile t u ∧ (u.core n).mxCfg.get o.ctx =
      { fmt := o.b, lda := o.o1.toNat % 2 ^ 32, ldb := o.o2.toNat % 2 ^ 32 })) ∧
    (o.n = 3 → reads 128 (if o.o1.getLsbD 0 then 4224 else 4096) { t with status := 4 } { t with status := 8 }
      { t with acc := (List.range 1024).map word, int := o.o1.getLsbD 1, status := 0,
               rs := if o.o1.getLsbD 0 then (List.range 32).map (fun i => word (1024 + i)) else List.replicate 32 0 }) ∧
    (o.n = 4 → o.o1.getLsbD 1 = true → ends (tile { t with qen := false })) ∧
    (o.n = 4 → o.o1.getLsbD 1 = false → reads 8 256 { t with qen := false, drain := none } { t with qen := false, drain := none }
      { t with qen := true, sc := (List.range 32).map word, zp := (List.range 32).map (fun i => word (32 + i)) }) ∧
    (o.n = 5 →
      let d (i : Nat) : Word := BitVec.ofNat 64 (leNat (readBytes s n pasid (o.b + BitVec.ofNat 64 (8 * i)) 8))
      let fmt := field (d 1) 32 3
      let size : Nat := if fmt = 0 ∨ fmt = 6 then 4 else if fmt = 1 ∨ fmt = 2 then 2 else 1
      let rsize : Nat := if field (d 1) 40 1 = 0 then 4 else 2
      let fits (base : Word) (stride len : Nat) : Prop := mxReach n base = true ∧ base.toNat % len = 0 ∧ stride % len = 0 ∧
        extentOk base (31 * stride + 32 * len) = true
      let valid : Prop := fmt ≠ 7 ∧ fits (d 0) (field (d 1) 0 32) size ∧
        (d 2 = 0 ∨ fits (d 2) (field (d 3) 0 32) rsize)
      (valid → reads 64 64 { t with drain := none } { t with drain := none } { t with drain := some ((List.range 8).map d) }) ∧
      (¬valid → reads 64 64 { t with drain := none } { t with drain := none } { t with drain := none })) ∧
    (o.n = 2 → t.drain = none →
      (summaryAt o.b = false → ends (tile t)) ∧
      (∀ k, summaryAt o.b = true → free o.b 8 → accessKey s n pasid o.b true = .ok k →
        ends (fun u => u.mem = s.mem.applyAll (wrNat k 8 (2 ^ 52)) ∧ (u.core n).tiles = (s.core n).tiles))) ∧
    (∀ (d : List Word) (at' from' : Nat → Nat) (sk : Nat), o.n = 2 → t.drain = some d →
      let size := dSize d
      let rsize := dResSize d
      let res := hasResidual t d
      let apart (a n b m : Nat) : Prop := a + n ≤ b ∨ b + m ≤ a
      let val (e : Nat) : Drained := t.drained d (e / 32) (e % 32)
        (if res then some ((if rsize = 4 then Fmt.f32 else Fmt.bf16).value (s.mem.nat (from' e) rsize)) else none)
      let count (f : Drained → Bool) : Nat := ((List.range 1024).map (fun e => (f (val e)).toNat)).sum
      (∀ e, e < 1024 → free (drainOut d e) size ∧ accessKey s n pasid (drainOut d e) true = .ok (at' e) ∧
        (res = true → free (drainRes d e) rsize ∧ accessKey s n pasid (drainRes d e) false = .ok (from' e))) →
      (∀ e f, e < 1024 → f < 1024 → (e ≠ f → apart (at' e) size (at' f) size) ∧
        (res = true → apart (from' e) rsize (at' f) size)) →
      (summaryAt o.b = true → free o.b 8 ∧ accessKey s n pasid o.b true = .ok sk ∧
        ∀ e, e < 1024 → apart sk 8 (at' e) size) →
      ends (fun u => (u.core n).tiles = (s.core n).tiles ∧ (∀ e, e < 1024 → u.mem.nat (at' e) size = (val e).pat) ∧
        (summaryAt o.b = true → u.mem.nat sk 8 = t.status.toNat * 2 ^ 48 + count (·.drop) * 2 ^ 32 + count (·.ovf) * 2 ^ 16 +
          count (·.nan)) ∧
        (∀ a, (∀ e, e < 1024 → apart a 1 (at' e) size) → (summaryAt o.b = true → apart a 1 sk 8) →
          u.mem.get a = s.mem.get a)))) ∧
  (∀ (t : Tile) (d : List Word) (i j : Nat) (res : Option Rl),
    let y := t.drained d i j res
    let w := t.acc.getD (32 * i + j) 0
    let f32 (x : Rl) : Rl := Fmt.f32.value (roundTo .f32 x .rne).pat
    let p (x : BitVec 32) : Rl := Fmt.f32.value x.toNat
    let real (x : BitVec 32) : Rl := if t.int then f32 (rlInt x.toInt) else p x
    let v1 := if t.qen then
        f32 ((p (t.sc.getD j 0)).mul (f32 ((real w).add false (f32 ((p (t.zp.getD j 0)).mul (real (t.rs.getD i 0)))).minus)))
      else real w
    let v2 := match res with | some r => f32 (v1.add false r) | none => v1
    let h := mix64 (d.getD 4 0 ^^^ (BitVec.ofNat 64 ((field (d.getD 7 0) 0 24 + i) % 2 ^ 24) <<< 40) ^^^
      (BitVec.ofNat 64 ((field (d.getD 7 0) 32 20 + j) % 2 ^ 20) <<< 20) ^^^ d.getD 5 0)
    let drops := field (d.getD 1 0) 41 1 = 1
    let gone := h.toNat / 2 ^ 32 < field (d.getD 6 0) 0 32
    let v3 := if drops then (if gone then rlZero false else f32 (v2.mul (Fmt.f32.value (field (d.getD 6 0) 32 32)))) else v2
    let ornd := field (d.getD 1 0) 36 2
    let ofmt := field (d.getD 1 0) 32 3
    (ofmt = 6 → y.pat = (if t.poisoned then (if t.int then 0 else 0x7FC00000) else w.toNat) ∧ y.drop = false ∧ y.ovf = false) ∧
    (ofmt ≠ 6 → t.poisoned = true → y.pat = (if ofmt = 5 then 0 else (drainFmt ofmt).qnan) ∧ y.drop = false ∧ y.ovf = false) ∧
    (ofmt ≠ 6 → t.poisoned = false → (y.drop = true ↔ drops ∧ gone) ∧
      (ofmt = 5 →
        let x := convertInt (-128) 127 v3 (if ornd = 1 then .rtz else .rne)
        y.pat = patOf 8 x.1 ∧ y.nan = v3.isNaN ∧ (y.ovf = true ↔ v3.isNaN = false ∧ x.2 &&& (flSAT ||| flNV) ≠ 0)) ∧
      (ofmt ≠ 5 →
        let x := roundTo (drainFmt ofmt) v3
          (if ornd = 0 then .rne else if ornd = 1 then .rtz else if ornd = 2 then .sr (h.toNat % 65536) else .sat)
        y.pat = x.pat ∧ y.nan = (drainFmt ofmt).isNaN x.pat ∧
          (y.ovf = true ↔ v3.isNaN = false ∧ x.fl &&& (flOF ||| flSAT ||| flNV) ≠ 0))))

/-- Copies are dispatched, served, stolen and completed (R75, R76, R97, R244, R246, R247, R248, R249, R250, R251, R254, R256).
COPY_DISPATCH of a CPY, FILL, CPY2D or CPY3D at the head of its queue, once the context's earlier stores have
performed: a 2D or 3D copy reads its descriptor once, or ends with ERROR ADDR where that is misplaced, and its rows
are those of the nested loops over the strides; control fields, lengths or alignments outside their limits end a copy
with ERROR OPND, an extent that leaves its window class with ERROR ADDR, no bytes with DONE, an unreached peer with
ERROR LINK; otherwise it starts, with one item left to serve for each piece of a source page of each row, each at its
engine with its place in the order of queueing. That OPND goes before ADDR and ADDR before LINK is the model's choice
(log entry 36). Of an ATOM or ATOMNR it checks the ATOM's operands (OPND, then ADDR) and reads the operand block; that
the block is read at the dispatch is the model's choice (log entry 47). COPY_ITEM of an item whose turn has come, in
one step: of a copy whose pages are present and whose granules are the engines' it lays each source element at its
place in the destination: unchanged, rounded from BF16 to E4M3 or E5M2 in the mode of RND, widened exactly to BF16, or
decoded from an index of 4 or 8 bits, and counts the elements that overflow, saturate, become NaN or lie at or above
the k-register's count; of a FILL, the bytes of the pattern that each address names. GONDOLA_STEAL gives an idle
engine the older half of the items that have not begun of the nearest engine that has any. CPST_PERFORM writes its
value, or adds it, as one word. ENGINE_COMMAND_COMPLETE, once the context has tried a bundle after the trigger,
performs what is in flight of the command, lands the status word in the token register, which is then no longer
pending, lowers cp, gives back the command's granules and removes the command. That every granule that the command
named or touched is released then is the model's choice (log entry 39). -/
def Obligations.CopySteps : Prop :=
  (∀ (s : State) (m : Cmd),
    let cid := s.act.cid
    let n := m.cid.core
    let p := s.pasidOf m
    let ends (code reason : Nat) : Prop := ∃ u q, exec .copyDispatch s = .next u ∧ u.cmd m.uid = some q ∧ q.st = .fin ∧
      q.status = statusWord code reason 0 m.id.toNat ∧ u.mem = s.mem ∧ u.engines = s.engines ∧ (∀ d, u.ctx d = s.ctx d)
    let runs (m : Cmd) : Prop :=
      (m.badOpnd = true → ends 3 1) ∧
      (m.badOpnd = false → m.badAddr = true → ends 3 2) ∧
      (m.badOpnd = false → m.badAddr = false → m.rowLen = 0 → ends 0 0) ∧
      (m.badOpnd = false → m.badAddr = false → m.rowLen ≠ 0 → m.known s = true →
        (m.badLink s = true → ends 3 9) ∧
        (m.badLink s = false →
          ∃ u q, exec .copyDispatch s = .next u ∧ u.cmd m.uid = some q ∧ q.st = .started ∧ q.left = m.items.length ∧
            q.desc = m.desc ∧ q.val2 = m.val2 ∧ q.kregs = m.kregs ∧ u.mem = s.mem ∧ (∀ d, u.ctx d = s.ctx d) ∧
            u.engines = m.items.zipIdx.foldl (fun es y =>
              let g := 8 * (clusterOf m.cid.core).val + (coreIx m.cid.core + y.1.k) % 8
              engSet es g (engGet es g ++ [{ y.1 with ord := s.nextUid + y.2 }])) s.engines))
    s.dispatchHead cid = some m → s.cmd m.uid = some m → storesDone (s.ctx cid) m.seq = true →
    (m.t = 0 ∨ m.t = 3 → runs m) ∧
    (m.t = 1 ∨ m.t = 2 →
      let w := readWords s n p m.b 8
      let ctl := w.getD 2 0
      let cv := field ctl 32 3
      let coded : Bool := (cv == 5 || cv == 6) && ctl.getLsbD 46 && !(m.preds.getD (field ctl 44 2) false)
      ((m.b.toNat % 64 ≠ 0 ∨ nearAddr n m.b 64 = false) → ends 3 2) ∧
      (m.b.toNat % 64 = 0 → nearAddr n m.b 64 = true → engineFree s m.cid p m.b 64 = true →
        runs { m with desc := w, val2 := if coded then ctl &&& ~~~((7 : Word) <<< 32) else ctl, kregs := [m.kregs.getD (field ctl 40 4) KReg.empty] })) ∧
    (m.t = 5 ∨ m.t = 6 →
      let op := field m.o2 0 4
      let len := if op = 7 then 64 else 32
      let bad : Prop := 7 < op ∨ (3 < op ∧ field m.o2 4 2 = 3) ∨ m.b.toNat % 32 ≠ 0 ∨ m.o1.toNat % 32 ≠ 0
      let far : Prop := ¬(canonical m.b = true ∧ extentOk m.b 32 = true ∧ extentOk m.o1 len = true ∧
        ((∃ o, locOf n m.o1 = .own o) ∨ (n.val < 4096 ∧ ∃ o, locOf n m.o1 = .slice (coreIx n) o)))
      (m.t = 5 → bad → ends 3 1) ∧ (m.t = 5 → ¬bad → far → ends 3 2) ∧
      ((m.t = 5 → ¬bad ∧ ¬far) → engineFree s m.cid p m.o1 len = true →
        ∃ u q, exec .copyDispatch s = .next u ∧ u.cmd m.uid = some q ∧ q.st = .started ∧ q.opnd = readBytes s n p m.o1 len ∧
          u.mem = s.mem ∧ (∀ d, u.ctx d = s.ctx d) ∧
          (m.t = 6 → u.own = (dedup (m.gran ++ m.touch)).foldl releaseOne s.own) ∧ (m.t = 5 → u.own = s.own)))) ∧
  (∀ (m : Cmd),
    let w := m.val2
    let cv := if m.t = 3 then 0 else field w 32 3
    let from' := if cv = 1 ∨ cv = 2 then 2 else 1
    let to' := if 3 ≤ cv then 2 else 1
    let out (k : Nat) : Nat := if cv = 1 ∨ cv = 2 then k / 2 else if cv = 3 ∨ cv = 4 ∨ cv = 6 then 2 * k else if cv = 5 then 4 * k else k
    let d (i : Nat) : Word := m.desc.getD i 0
    let n1 := field (d 3) 0 32
    let n2 := if m.t = 2 then field (d 3) 32 32 else 1
    m.t < 4 →
    (m.t = 0 → m.rows = [(m.o1, m.b)]) ∧ (m.t = 3 → m.rows = [(m.b, m.b)]) ∧
    (m.t = 1 ∨ m.t = 2 → m.rows.length = n1 * n2 ∧ ∀ i1 i2, i1 < n1 → i2 < n2 → m.rows[i2 * n1 + i1]? = some
      (d 0 + BitVec.ofNat 64 i1 * d 4 + BitVec.ofNat 64 i2 * d 6, d 1 + BitVec.ofNat 64 i1 * d 5 + BitVec.ofNat 64 i2 * d 7)) ∧
    m.rowLen = field w 0 32 ∧ m.rowOut = out (field w 0 32) ∧
    (m.badOpnd = true ↔ (m.t ≠ 3 ∧ (cv = 7 ∨ field w 35 2 = 2)) ∨ field w 0 32 % from' ≠ 0 ∨ ((m.t = 1 ∨ m.t = 2) ∧ n1 = 0) ∨
      (m.t = 2 ∧ n2 = 0) ∨ (cv ≠ 0 ∧ ∃ r ∈ m.rows, r.1.toNat % from' ≠ 0 ∨ r.2.toNat % to' ≠ 0)) ∧
    m.items.map (fun x => (x.row, x.src, x.dst, x.n)) = m.rows.zipIdx.flatMap (fun r =>
      (pagePieces r.1.1 m.rowLen).map (fun q => (r.2, q.1, r.1.2 + BitVec.ofNat 64 (out (q.1 - r.1.1).toNat), q.2))) ∧
    (∀ x ∈ m.items, x.uid = m.uid ∧ x.got = 0 ∧ x.buf = [] ∧ m.items[x.k]? = some x)) ∧
  (∀ (a : Word) (n : Nat), a.toNat + n ≤ 2 ^ 64 →
    let l := pagePieces a n
    (l.map (·.2)).sum = n ∧ ∀ i x, l[i]? = some x → x.1 = a + BitVec.ofNat 64 ((l.take i).map (·.2)).sum ∧ 0 < x.2 ∧
      x.1.toNat % 4096 + x.2 ≤ 4096 ∧ (i + 1 < l.length → x.1.toNat % 4096 + x.2 = 4096)) ∧
  (∀ (s : State) (x : Item) (r : List Item) (m : Cmd),
    let g := s.act.eng.val
    let n := m.cid.core
    let p := s.pasidOf m
    let serves (ws : List Wr) (odd : Nat) : Prop := ∃ u q, exec .copyItem s = .next u ∧ u.engines = engSet s.engines g r ∧
      u.mem = s.mem.applyAll ws ∧ (∀ d, u.ctx d = s.ctx d) ∧ u.cmd x.uid = some q ∧
      q.left = m.left - 1 ∧ q.cnt = m.cnt + odd ∧ (1 < m.left → q.st = m.st) ∧
      (m.left = 1 → m.reason = 0 → (∀ y ∈ m.res, y.page = false) → m.prog = 0 →
        q.st = .fin ∧ q.status = statusWord 0 0 (m.cnt + odd) m.id.toNat)
    let free (len : Nat) : Prop := firstBad s n p x.dst len true = none ∧ engineFree s m.cid p x.dst len = true
    engGet s.engines g = x :: r → s.cmd x.uid = some m → m.uid = x.uid → 0 < m.left → x.got = 0 → x.buf = [] →
    s.mayStart x = true → s.launch.clearing = false → s.act.pick = none → s.act.num = 0 → s.act.later = false →
    s.flightsOf (.cmd m.uid) = [] →
    (m.t = 3 → free x.n → serves (writeBytes s n p x.dst
      ((List.range x.n).map (fun j => m.o1.extractLsb' (8 * ((x.dst.toNat + j) % 8)) 8))) 0) ∧
    (m.t < 3 → firstBad s n p x.src x.n false = none → engineFree s m.cid p x.src x.n = true →
      let cv := field m.val2 32 3
      let bs := readBytes s n p x.src x.n
      let rnd : RMode := if field m.val2 35 2 = 0 then .rne else if field m.val2 35 2 = 1 then .rtz else .sat
      let k := m.kregs.headD KReg.empty
      let el (f : Fmt) (len : Nat) (mode : RMode) (y : Rl) : List Byte := leBytes len (roundTo f y mode).pat
      let odd (f : Fmt) (mode : RMode) (y : Rl) : Bool :=
        let z := roundTo f y mode
        z.fl &&& flOF != 0 || z.fl &&& flSAT != 0 || (!y.isNaN && (f.value z.pat).isNaN)
      let ix (j : Nat) : Rl := if j < k.n then k.tag.fmt.value (k.entry j) else rlZero false
      let ixs (js : List Nat) : Prop := free (2 * js.length) → serves
        (writeBytes s n p x.dst (js.flatMap (fun j => el .bf16 2 .rne (ix j))))
        (js.filter (fun j => k.n ≤ j || odd .bf16 .rne (ix j))).length
      (cv = 0 → free x.n → serves (writeBytes s n p x.dst bs) 0) ∧
      (∀ f : Fmt, (cv = 1 ∧ f = .e4m3) ∨ (cv = 2 ∧ f = .e5m2) → x.n % 2 = 0 → free (x.n / 2) →
        let ys := (List.range (x.n / 2)).map (fun i => Fmt.bf16.value (leNat ((bs.drop (2 * i)).take 2)))
        serves (writeBytes s n p x.dst (ys.flatMap (el f 1 rnd))) (ys.filter (odd f rnd)).length) ∧
      (∀ f : Fmt, (cv = 3 ∧ f = .e4m3) ∨ (cv = 4 ∧ f = .e5m2) → free (2 * x.n) →
        serves (writeBytes s n p x.dst (bs.flatMap (fun b => el .bf16 2 .rne (f.value b.toNat)))) 0) ∧
      (cv = 5 → ixs (bs.flatMap (fun b => [b.toNat % 16, b.toNat / 16]))) ∧
      (cv = 6 → ixs (bs.map (·.toNat))))) ∧
  (∀ (s : State) (i : Nat),
    let g := s.act.eng.val
    let fresh (v : Nat) : List Item := (engGet s.engines v).filter (fun x => x.got == 0)
    let v := (g + i + 1) % 128
    let q := fresh v
    engGet s.engines g = [] → i < 127 → q ≠ [] → (∀ j, j < i → fresh ((g + j + 1) % 128) = []) →
    ∃ u, exec .gondolaSteal s = .next u ∧ u.mem = s.mem ∧ u.cmds = s.cmds ∧
      engGet u.engines g = q.take ((q.length + 1) / 2) ∧
      u.engines = engSet (engSet s.engines v ((engGet s.engines v).filter (fun x => x.got != 0) ++ q.drop ((q.length + 1) / 2))) g
        (q.take ((q.length + 1) / 2))) ∧
  (∀ (s : State) (m : Cmd) (k : Nat),
    s.Inv → s.cmd s.act.num = some m → m.bus = 10 → m.t = 4 → m.st = .started → s.lowerDone m = true →
    engineFree s m.cid (s.pasidOf m) m.b 8 = true → accessKey s m.cid.core (s.pasidOf m) m.b true = .ok k →
    ∃ u q, exec .cpstPerform s = .next u ∧ (∀ a, a < k ∨ k + 8 ≤ a → u.mem.get a = s.mem.get a) ∧
      u.mem.word k = (if m.o2.getLsbD 0 then s.mem.word k + m.o1 else m.o1) ∧
      u.cmd m.uid = some q ∧ q.st = .fin ∧ q.status = statusWord 0 0 0 m.id.toNat) ∧
  (∀ (s : State) (m : Cmd) (r : Fin 64),
    let c := s.ctx m.cid
    s.cmd s.act.num = some m → m.st = .fin → s.behindRink m = false → m.tok = some r → m.dst2 = none → m.trapAt = none →
    m.bus ≠ 14 → (m.bus = 10 → m.t ≠ 5) → c.st ≠ .halted → c.st ≠ .resuming → c.young m.seq = false →
    ∃ u, exec .engineCommandComplete s = .next u ∧ u.cmd m.uid = none ∧
      u.mem = s.mem.applyAll ((s.flightsOf (.cmd m.uid)).flatMap (fun f => f.writes s.mem)) ∧
      (r ≠ 0 → (u.ctx m.cid).readS r = m.status ∧ (u.ctx m.cid).pendS.getLsbD r.val = false) ∧
      (∀ i : Fin 64, i ≠ r → (u.ctx m.cid).readS i = c.readS i ∧
        (u.ctx m.cid).pendS.getLsbD i.val = c.pendS.getLsbD i.val) ∧
      (u.ctx m.cid).cp = c.cp - 1 ∧ u.own = (dedup (m.gran ++ m.touch)).foldl releaseOne s.own ∧
      (∀ l, m.bus = 10 → c.landed = [] → c.issued = m.id :: l → (u.ctx m.cid).cwm = m.id ∧ (u.ctx m.cid).issued = l) ∧
      (∀ d, d ≠ m.cid → u.ctx d = s.ctx d))

/-- Sector atomics and moving pages (R242, R253, R256, R257, R258, R259, R261, R371).
ATOMIC_ACCEPT, for a dispatched atomic whose earlier atomics on its sector are accepted and whose page may be written,
leaves it accepted at its key; an ATOMNR then counts no more in cp, and one whose page is not present is gone, with
FATAL_UNPROBED due. ATOMIC_PERFORM (NEAR_ATOMIC_PERFORM for the NEAR form) writes the elements of the sector that the
control word names, each from its old value and its operand, which is the one read at the dispatch (the model's
choice, log entry 47), by its operation (sums rounded to nearest even, minimum and maximum by sign, with -0 below +0,
or as VMIN and VMAX, a swap, a compare and swap), in one step, and no byte outside the sector; an ATOM keeps the old
sector for its token and counts the elements that it swapped, or those that it names. LINE_MOVE of a line that nothing
is using copies it to the new home and marks it; ACCESS_FORWARD of a write to a moved line writes at the new home
alone. END_MARKER marks its line, and ends the migration with the last one (that the last marker ends it is the
model's choice, log entry 28). -/
def Obligations.AtomicAndMigrationSteps : Prop :=
  (∀ (s : State) (m : Cmd),
    let p := s.pasidOf m
    s.cmd s.act.num = some m → m.bus = 10 → (m.t = 5 ∨ m.t = 6) → m.st = .started → s.behindAtomic m = false →
    s.turned m.cid m.b 32 = false →
    (∀ k, accessKey s m.cid.core p m.b true = .ok k → ∃ u q, exec .atomicAccept s = .next u ∧ u.mem = s.mem ∧
      u.cmd m.uid = some q ∧ q.st = .accepted ∧ q.key = k ∧ q.b = m.b ∧ q.opnd = m.opnd ∧
      (m.t = 6 → (u.ctx m.cid).cp = (s.ctx m.cid).cp - 1) ∧ (m.t = 5 → u.ctx m.cid = s.ctx m.cid)) ∧
    (accessKey s m.cid.core p m.b true = .absent →
      (m.t = 6 → ∃ u, exec .atomicAccept s = .next u ∧ u.cmd m.uid = none ∧ u.mem = s.mem ∧
        (6, m.b) ∈ (u.ctx m.cid).due ∧ (u.ctx m.cid).cp = (s.ctx m.cid).cp - 1) ∧
      (m.t = 5 → ∃ u q, exec .atomicAccept s = .next u ∧ u.mem = s.mem ∧ u.cmd m.uid = some q ∧ q.st = .fin ∧
        q.status = statusWord 1 3 0 m.id.toNat))) ∧
  (∀ (s : State) (m : Cmd),
    let i : Instr := if atNear m.o2 then .nearAtomicPerform else .atomicPerform
    let old := s.mem.bytes m.key 32
    let op := field m.o2 0 4
    let ty := field m.o2 4 2
    let w : Nat := if op = 1 then 2 else if op = 3 then 8 else if op = 0 ∨ op = 2 then 4 else if ty = 1 then 8 else 4
    let new (a v c : Nat) : Nat :=
      let less (x y : Nat) : Bool :=
        if ty = 0 then signedOf 32 x < signedOf 32 y else if ty = 1 then signedOf 64 x < signedOf 64 y
        else (Fmt.f32.value x).under (Fmt.f32.value y)
      if op = 0 then (roundTo .f32 ((Fmt.f32.value a).add false (Fmt.f32.value v)) .rne).pat
      else if op = 1 then (roundTo .bf16 ((Fmt.bf16.value a).add false (Fmt.bf16.value v)) .rne).pat
      else if op = 2 ∨ op = 3 then (a + v) % 256 ^ w
      else if op = 4 ∨ op = 5 then
        (if 2 ≤ ty ∧ (Fmt.f32.isNaN a ∨ Fmt.f32.isNaN v) then 0x7FC00000
         else if (if op = 4 then less v a else less a v) then v else a)
      else if op = 6 then v
      else if a = c then v else a
    let el (l : List Byte) (e : Nat) : Nat := leNat ((l.drop (w * e)).take w)
    s.Inv → s.cmd s.act.num = some m → mayPerform s m = true →
    ∃ u, exec i s = .next u ∧ (∀ a, a < m.key ∨ m.key + 32 ≤ a → u.mem.get a = s.mem.get a) ∧
      (∀ e, e < 32 / w → u.mem.nat (m.key + w * e) w =
        if m.o2.getLsbD (16 + e) then new (el old e) (el m.opnd e) (el (m.opnd.drop 32) e)
        else el old e) ∧
      (∀ d, u.ctx d = s.ctx d) ∧ (m.t = 6 → u.cmd m.uid = none) ∧
      (m.t ≠ 6 → ∃ q, u.cmd m.uid = some q ∧ q.st = .fin ∧ q.opnd = old ∧ q.status = statusWord 0 0
        ((List.range (32 / w)).filter (fun e => m.o2.getLsbD (16 + e) &&
          (op != 7 || el old e == el (m.opnd.drop 32) e))).length m.id.toNat)) ∧
  (∀ (s : State) (g : Migr),
    let o := 128 * s.act.line.val
    s.Inv → s.migr s.act.num = some g → s.act.line ∉ g.moved →
    lineBusy s (g.old + o) = false → lineBusy s (g.new + o) = false →
    ∃ u q, exec .lineMove s = .next u ∧ u.migr s.act.num = some q ∧ q.moved = s.act.line :: g.moved ∧
      (∀ j, j < 128 → u.mem.get (g.new + o + j) = s.mem.get (g.old + o + j)) ∧
      (∀ a, a < g.new + o ∨ g.new + o + 128 ≤ a → u.mem.get a = s.mem.get a) ∧
      (g.moved.length = 31 → u.host.busy = false ∧ u.host.result = 0 ∧ q.told = some s.invNext)) ∧
  (∀ (s : State) (p : Nat) (d : List Byte),
    s.act.acc = some (.wr p d) → forwarded s p ≠ p → p % 128 + d.length ≤ 128 → homeFree s p d.length = true →
    ∃ u, exec .accessForward s = .next u ∧ (∀ c, u.ctx c = s.ctx c) ∧
      u.mem = s.mem.applyAll (d.zipIdx.map (fun x => Wr.byte (forwarded s (p + x.2)) x.1))) ∧
  (∀ (s : State) (g : Migr),
    s.migr s.act.num = some g → g.sent = true → s.act.line ∉ g.ended →
    (g.ended.length ≠ 31 → ∃ u q, exec .endMarker s = .next u ∧ u.mem = s.mem ∧ u.migr s.act.num = some q ∧
      q.ended = s.act.line :: g.ended) ∧
    (g.ended.length = 31 → ∃ u, exec .endMarker s = .next u ∧ u.mem = s.mem ∧ u.migr s.act.num = none))

/-- Gathers, bins and tree commands run, and parked work is replayed (R264, R265, R266, R270, R271, R272, R273, R282, R283, R284, R291, R294).
INDEX_BATCH of a command with elements left, whose batch needs no waiting, takes up the next elements, at most 8, in
order: an element whose index is at or above BOUND, whose table row is misaligned or leaves its window class, or whose
table row or local row meets a page that is not present or forbids the access, parks in the cluster's fault queue with
that reason, and writes nothing; every other one has its table row copied to its swizzled local row, or back, byte for
byte where no byte written is read or written besides; and the progress counter rises by one. The granules of its
local rows and of the rows that a SCATR writes are the engines' then; a GATHR reads its table rows in chip scratchpad
in whatever state their granules are (the model's choice, log entry 71). With none left and none parked it writes the
miss bitmap and ends DONE (that the bitmap is written in the last step is the model's choice, log entry 44); FQCNT
ends with the two counts of its queue. BIN_RECORD_PLACE starts a BINPUT or BINFLUSH whose descriptor passes its
checks; of a BINPUT it then places one record: the bin's count rises by one and the record stands at its slot in the
staging line of its block, which is written and let go once all 16 slots are staged, and a new line has the oldest
written first where the engine holds 256; where the bin is full, the command ends EXHAUSTED with the records placed,
and at the end of the list DONE. Of a BINFLUSH it writes a line of the bin set, and with none left, here or in flight,
it ends DONE; which lines are the set's is told by their addresses (the model's choice, log entry 46). A bin count at
a page that is not present ends a BINPUT with a status that the spec leaves open (log entry 26). BIN_PLAY starts a
BINPLAY, reads a bin's count, plays or skips its next record, clears the count where RST asks for it, and past the
last bin ends DONE with the records played and skipped (that bins beyond the last name nothing, and how far TCNT lets
the target reach, are the model's choice, log entry 46). TREE_UNIT_OPERATION, for a command whose turn has come: TDECL
writes the root leaves and makes the region live, or fails with LIVE or REGION; TLD leaves the key's element or 0 for
its register; TST and TADD set, change, remove or insert the key's entry, with the splits of R284, or end EXHAUSTED;
TCOUNT leaves the keys; TPOOL raises the capacity; TSCAN and TNEXT write the entries of one leaf and the record's new
position; TCLOSE closes the record; TDENSE reads its positions and writes their elements sector by sector. Where
several checks fail together the reason reported is the model's choice (log entry 36): OPND before ADDR in a bin
descriptor, OPND before ADDR before REGION in a cursor's record, F64 before COORD, LIVE before REGION, and REGION
before OPND before COORD in a box. FAULT_QUEUE_REPLAY of a parked element of a gather under a zeroing policy, whose
turn has come, writes zeros to its local row alone and takes the entry from the queue; which entries count as taken,
and the order of the queue, are the model's choice (log entry 45). -/
def Obligations.IndexAndTreeSteps : Prop :=
  (∀ (s : State) (m : Cmd),
    let c := clusterOf m.cid.core
    let p := s.pasidOf m
    s.cmd s.act.num = some m → m.bus = 11 → m.t < 2 → m.st = .started → s.act.pick = none →
    (∀ e, m.prog < m.gNidx → (s.act.flag = false ∨ m.taken ≤ m.cnt) → (Eff.start s).nextBatch m = some e →
      ∃ u q, exec .indexBatch s = .next u ∧ u.cmd m.uid = some q ∧ q.prog = m.prog + min 8 (m.gNidx - m.prog) ∧
        q.st = .started ∧ u.mem = s.mem.applyAll e.wr ∧ (∀ d, u.ctx d = s.ctx d)) ∧
    (let n := m.cid.core
     let iw := if (m.dw 1).getLsbD 56 then 2 else 4
     let rowb := field (m.dw 1) 32 21
     let scat : Bool := m.t == 1
     let ix (el : Nat) : Nat := leNat (readBytes s n p (m.dw 2 + BitVec.ofNat 64 (el * iw)) iw)
     let row (el : Nat) : Word := m.dw 0 + BitVec.ofNat 64 (ix el * field (m.dw 1) 0 32)
     let loc (el : Nat) : Word := m.dw 4 + BitVec.ofNat 64 (el * field (m.dw 5) 0 32)
     let fits (a : Word) : Bool := extentOk a rowb && (match classify (m.dw 0), classify a with
       | .chip _, .chip _ => true
       | .glob _, .glob _ => true
       | _, _ => false)
     let why (el : Nat) : Nat :=
       if field m.ixpol 0 32 ≠ 0 ∧ field m.ixpol 0 32 ≤ ix el then 1
       else if (row el).toNat % 4 ≠ 0 then 2
       else if fits (row el) = false then 1
       else if (firstBad s n p (row el) rowb scat).isSome || (firstBad s n p (loc el) rowb (!scat)).isSome then 4
       else 0
     let len := min 8 (field (m.dw 3) 0 24 - m.prog)
     let els := (List.range len).map (fun j => m.prog + j)
     let parks := els.filter (fun el => why el != 0)
     let moves : List (Nat × Nat) := (els.filter (fun el => why el == 0)).flatMap (fun el => (List.range rowb).filterMap (fun k =>
       let t := row el + BitVec.ofNat 64 k
       let l := loc el + BitVec.ofNat 64 (32 * ((k / 32) ^^^ (el % 2 ^ field (m.dw 1) 53 3)) + k % 32)
       match accessKey s n p (if scat then l else t) false, accessKey s n p (if scat then t else l) true with
       | .ok a, .ok b => some (a, b)
       | _, _ => none))
     let ck := accessKey s n p (m.dw 7) true
     let counts (a : Nat) : Prop := m.dw 7 ≠ 0 ∧ ∃ k, ck = .ok k ∧ k ≤ a ∧ a < k + 8
     s.Inv → 0 < len → m.prog % 8 = 0 → m.cnt = (m.prog + 7) / 8 → s.act.later = false → s.flightsOf (.cmd m.uid) = [] →
     engineFree s m.cid p (m.dw 2 + BitVec.ofNat 64 (m.prog * iw)) (len * iw) = true →
     engineFree s m.cid p (m.dw 7) (if m.dw 7 = 0 then 0 else 8) = true →
     s.fqLen c < 4096 → s.fqLen c + parks.length ≤ 4096 →
     (∀ el ∈ els, s.turned m.cid (row el) rowb = false ∧ s.turned m.cid (loc el) rowb = false ∧
       (∀ a x, firstBad s n p (row el) rowb scat = some (a, x) → x = .absent) ∧
       (∀ a x, firstBad s n p (loc el) rowb (!scat) = some (a, x) → x = .absent) ∧
       (why el = 0 → engineFree s m.cid p (loc el) rowb = true ∧ (if scat then engineFree s m.cid p (row el) rowb
         else !backedAt s n (row el) rowb && extentQuiet s m.cid p (row el) rowb) = true)) →
     ∃ u q, exec .indexBatch s = .next u ∧ u.cmd m.uid = some q ∧ q.prog = m.prog + len ∧ q.st = .started ∧
       (∀ d, u.ctx d = s.ctx d) ∧ q.parked = m.parked + parks.length ∧ q.left = m.left + parks.length ∧
       q.reason = parks.foldl (fun r el => r ||| why el) m.reason ∧
       (u.clu c).fq = (s.clu c).fq ++ parks.map (fun el =>
         { uid := m.uid, elem := el, ix := ix el, reason := why el, asked := none, taken := false }) ∧
       ((moves.map (·.2)).Nodup → (∀ x ∈ moves, ∀ y ∈ moves, x.2 ≠ y.1) → (∀ x ∈ moves, ¬counts x.2) →
         (∀ x ∈ moves, u.mem.get x.2 = s.mem.get x.1) ∧
         (∀ k, m.dw 7 ≠ 0 → ck = .ok k → u.mem.word k = s.mem.word k + 1) ∧
         ∀ a, (∀ x ∈ moves, x.2 ≠ a) → ¬counts a → u.mem.get a = s.mem.get a)) ∧
    (∀ j i, j < m.gMissLen → i < 8 → ((m.missBytes.getD j 0).getLsbD i = true ↔ 8 * j + i ∈ m.miss)) ∧
    (m.gNidx ≤ m.prog → m.taken ≤ m.cnt → m.left = 0 → m.parked = 0 → m.bits = 0 → s.act.later = false →
      s.flightsOf (.cmd m.uid) = [] → engineFree s m.cid p (m.dw 6) m.gMissLen = true →
      ∃ u q, exec .indexBatch s = .next u ∧ u.cmd m.uid = some q ∧ q.st = .fin ∧ q.status = statusWord 0 0 0 m.gNidx ∧
        u.mem = s.mem.applyAll (writeBytes s m.cid.core p (m.dw 6) m.missBytes) ∧ (s.clu c).fq = (u.clu c).fq)) ∧
  (∀ (s : State) (m : Cmd),
    let q := (s.clu (clusterOf m.cid.core)).fq.filter (fun f => !f.taken)
    s.cmd s.act.num = some m → m.bus = 11 → m.t = 5 → m.st = .queued → ∃ u x, exec .indexBatch s = .next u ∧ u.mem = s.mem ∧
      u.cmd m.uid = some x ∧ x.st = .fin ∧ x.status = statusWord 0 0
        (q.filter (fun f => s.cmds.any (fun c => c.uid == f.uid && c.cid == m.cid))).length q.length) ∧
  -- bins
  (∀ (s : State) (m : Cmd),
    let n := m.cid.core
    let p := s.pasidOf m
    let c := clusterOf n
    let w := readWords s n p m.b 8
    let i : Instr := if m.t = 4 then .binPlay else .binRecordPlace
    let m' := { m with desc := w }
    let reach (a : Word) (al len : Nat) : Prop := tableReach a = true ∧ a.toNat % al = 0 ∧ extentOk a len = true
    let g (k lo len : Nat) : Nat := field (w.getD k 0) lo len
    s.cmd s.act.num = some m → m.bus = 11 → (m.t = 2 ∨ m.t = 3 ∨ m.t = 4) → m.st = .queued → s.act.pick = none →
    storesDone (s.ctx m.cid) m.seq = true → m.b.toNat % 64 = 0 → nearAddr n m.b 64 = true → engineFree s m.cid p m.b 64 = true →
    (m'.bBadOpnd = true ↔ 31 < g 1 40 6 ∨ 8 < g 1 32 4 ∨ g 1 0 32 = 0 ∨ g 1 0 32 % 16 ≠ 0 ∨ g 4 0 2 = 3 ∨
      (m.t = 2 ∧ m.o1.toNat % 8 ≠ 0)) ∧
    (m'.bBadAddr = false ↔ reach (w.getD 0 0) 128 (8 * g 1 0 32 * 2 ^ g 1 32 4) ∧ reach (w.getD 2 0) 8 (8 * 2 ^ g 1 32 4) ∧
      tableReach (w.getD 3 0) = true ∧ (w.getD 3 0).toNat % 4 = 0 ∧ (g 4 32 32 = 0 ∨ extentOk (w.getD 3 0) (4 * g 4 32 32) = true) ∧
      (m.t = 2 → field m.o2 0 24 ≠ 0 → nearAddr n m.o1 (8 * field m.o2 0 24) = true)) ∧
    ∃ u q, exec i s = .next u ∧ u.mem = s.mem ∧ u.cmd m.uid = some q ∧ (∀ d, u.ctx d = s.ctx d) ∧ (u.clu c).stg = (s.clu c).stg ∧
      (m'.bBadOpnd = true → q.st = .fin ∧ q.status = statusWord 3 1 0 0) ∧
      (m'.bBadOpnd = false → m'.bBadAddr = true → q.st = .fin ∧ q.status = statusWord 3 2 0 0) ∧
      (m'.bBadOpnd = false → m'.bBadAddr = false → q.st = .started ∧ q.desc = w ∧ q.prog = m.prog)) ∧
  (∀ (s : State) (m : Cmd) (ck : Nat),
    let n := m.cid.core
    let p := s.pasidOf m
    let c := clusterOf n
    let ends (code reason cnt id : Nat) : Prop := ∃ u q, exec .binRecordPlace s = .next u ∧ u.cmd m.uid = some q ∧
      q.st = .fin ∧ q.status = statusWord code reason cnt id ∧ u.mem = s.mem
    let ra := m.o1 + BitVec.ofNat 64 (8 * m.prog)
    let r := (readWords s n p ra 1).headD 0
    let j := r.toNat % 2 ^ 32 / 2 ^ field (m.dw 1) 40 6 % 2 ^ field (m.dw 1) 32 4
    let ca := m.dw 2 + BitVec.ofNat 64 (8 * j)
    let h := (s.mem.word ck).toNat
    let a := m.dw 0 + BitVec.ofNat 64 ((j * field (m.dw 1) 0 32 + h) * 8)
    let block := a &&& ~~~127
    let slot := a.toNat % 128 / 8
    let stg := (s.clu c).stg
    let ready (l : StgLine) : Prop := l.free s = true ∧ ∃ k, l.home s = .ok k
    let up := wrNat ck 8 (h + 1)
    let places (ws : List Wr) (stg' : List StgLine) : Prop := ∃ u q, exec .binRecordPlace s = .next u ∧
      u.mem = s.mem.applyAll ws ∧ u.cmd m.uid = some q ∧ q.prog = m.prog + 1 ∧ q.st = .started ∧ (u.clu c).stg = stg' ∧
      (∀ d, u.ctx d = s.ctx d)
    s.cmd s.act.num = some m → m.bus = 11 → m.st = .started → m.t = 2 → s.act.pick = none → s.act.later = false →
    s.flightsOf (.cmd m.uid) = [] →
    (field m.o2 0 24 ≤ m.prog → ends 0 0 0 m.prog) ∧
    (m.prog < field m.o2 0 24 → engineFree s m.cid p ra 8 = true → engineFree s m.cid p ca 8 = true →
      accessKey s n p ca true = .absent → ∃ code reason cnt, cnt < 2 ^ 24 ∧ ends code reason cnt m.prog ∧
        ((code = 0 ∧ reason = 0) ∨ (code = 2 ∧ 1 ≤ reason ∧ reason ≤ 7) ∨ (code = 3 ∧ (reason = 1 ∨ reason = 2)) ∨ (code = 4 ∧ reason = 1))) ∧
    (m.prog < field m.o2 0 24 → engineFree s m.cid p ra 8 = true → engineFree s m.cid p ca 8 = true →
      accessKey s n p ca true = .ok ck →
      (field (m.dw 1) 0 32 ≤ h → ends 4 1 m.prog m.prog) ∧
      (h < field (m.dw 1) 0 32 → (∃ k, accessKey s n p a true = .ok k) →
        (∀ l, stg.find? (fun y => y.block == block) = some l →
          let l' := { l with recs := l.recs.filter (fun y => y.1 != slot) ++ [(slot, r)] }
          (l'.recs.length ≠ 16 → places up (stg.map (fun y => if y.block = block then l' else y))) ∧
          (l'.recs.length = 16 → ready l' → places (l'.writes s ++ up) (stg.filter (fun y => y.block != block)))) ∧
        (stg.find? (fun y => y.block == block) = none →
          let fresh : StgLine := { block := block, cid := m.cid, recs := [(slot, r)] }
          (stg.length < 256 → places up (stg ++ [fresh])) ∧
          (∀ old rest, stg = old :: rest → 256 ≤ stg.length → ready old →
            places (old.writes s ++ up) (stg.filter (fun y => y.block != old.block) ++ [fresh])))))) ∧
  (∀ (s : State) (m : Cmd),
    let c := clusterOf m.cid.core
    let mine (l : StgLine) : Bool := (m.dw 0).toNat ≤ l.block.toNat &&
      l.block.toNat < (m.dw 0).toNat + 8 * field (m.dw 1) 0 32 * 2 ^ field (m.dw 1) 32 4
    s.cmd s.act.num = some m → m.bus = 11 → m.st = .started → m.t = 3 → s.act.pick = none → s.act.later = false →
    s.flightsOf (.cmd m.uid) = [] →
    ((s.clu c).stg.filter mine = [] →
      (∀ d ∈ s.cmds, d.uid ≠ m.uid → d.bus = 11 → (d.t = 2 ∨ d.t = 3) → clusterOf d.cid.core = c → s.flightsOf (.cmd d.uid) = []) →
      ∃ u q, exec .binRecordPlace s = .next u ∧ u.mem = s.mem ∧ u.cmd m.uid = some q ∧
      q.st = .fin ∧ q.status = statusWord 0 0 0 m.prog) ∧
    (∀ l r k, (s.clu c).stg.filter mine = l :: r → l.free s = true → l.home s = .ok k → ∃ u q, exec .binRecordPlace s = .next u ∧
      u.mem = s.mem.applyAll (l.writes s) ∧ u.cmd m.uid = some q ∧ q.st = .started ∧ q.prog = m.prog + 1 ∧
      (u.clu c).stg = (s.clu c).stg.filter (fun y => y.block != l.block))) ∧
  (∀ (s : State) (l : StgLine) (k : Nat),
    s.Inv → (∀ x ∈ l.recs, accessKey s l.cid.core (s.ctx l.cid).pasid (l.block + BitVec.ofNat 64 (8 * x.1)) true = .ok (k + 8 * x.1) ∧
        ∀ i, i < 8 → accessKey s l.cid.core (s.ctx l.cid).pasid (l.block + BitVec.ofNat 64 (8 * x.1) + BitVec.ofNat 64 i) true =
          .ok (k + 8 * x.1 + i)) →
    (l.recs.map (·.1)).Nodup →
    (∀ x ∈ l.recs, (s.mem.applyAll (l.writes s)).word (k + 8 * x.1) = x.2) ∧
    (∀ a, (∀ x ∈ l.recs, a < k + 8 * x.1 ∨ k + 8 * x.1 + 8 ≤ a) → (s.mem.applyAll (l.writes s)).get a = s.mem.get a)) ∧
  (∀ (s : State) (m : Cmd),
    let n := m.cid.core
    let p := s.pasidOf m
    let first := field m.o1 0 16
    let bins := 2 ^ field (m.dw 1) 32 4
    let nb := field m.o1 16 16
    let last := if nb = 0 then bins else min (first + nb) bins
    let j := first + m.prog
    let ca := m.dw 2 + BitVec.ofNat 64 (8 * j)
    let ra := m.dw 0 + BitVec.ofNat 64 ((j * field (m.dw 1) 0 32 + m.key) * 8)
    let plays (ws : List Wr) (chk : Cmd → Prop) : Prop := ∃ u q, exec .binPlay s = .next u ∧ u.mem = s.mem.applyAll ws ∧
      u.cmd m.uid = some q ∧ (∀ d, u.ctx d = s.ctx d) ∧ chk q
    s.cmd s.act.num = some m → m.bus = 11 → m.st = .started → m.t = 4 →
    (last ≤ j → plays [] (fun q => q.st = .fin ∧ q.status = statusWord 0 0 m.cnt m.left)) ∧
    (∀ ck, j < last → (m.bits = 1 → m.val2.toNat ≤ m.key) → engineFree s m.cid p ca 8 = true →
      accessKey s n p ca (m.o1.getLsbD 32) = .ok ck →
      (m.bits = 0 → plays [] (fun q => q.st = .started ∧ q.bits = 1 ∧ q.key = 0 ∧ q.val2 = s.mem.word ck ∧ q.prog = m.prog)) ∧
      (m.bits = 1 → plays (if m.o1.getLsbD 32 then wrNat ck 8 0 else []) (fun q =>
        q.st = .started ∧ q.bits = 0 ∧ q.prog = m.prog + 1 ∧ q.cnt = m.cnt ∧ q.left = m.left))) ∧
    (∀ rk, j < last → m.bits = 1 → m.key < m.val2.toNat → engineFree s m.cid p ra 8 = true → accessKey s n p ra false = .ok rk →
      let key := (s.mem.word rk).toNat % 2 ^ 32
      let v := (s.mem.word rk).toNat / 2 ^ 32
      let ta := m.dw 3 + BitVec.ofNat 64 (4 * key)
      let pop := field (m.dw 4) 0 2
      (field (m.dw 4) 32 32 ≤ key → plays [] (fun q =>
        q.st = .started ∧ q.cnt = m.cnt + 1 ∧ q.left = m.left + 1 ∧ q.key = m.key + 1 ∧ q.prog = m.prog)) ∧
      (∀ tk, key < field (m.dw 4) 32 32 → engineFree s m.cid p ta 4 = true → accessKey s n p ta true = .ok tk →
        let old := s.mem.nat tk 4
        let x := if pop = 0 then (roundTo .f32 ((Fmt.f32.value old).add false (Fmt.f32.value v)) .rne).pat
          else if pop = 1 then (old + v) % 2 ^ 32 else v
        plays (wrNat tk 4 x) (fun q =>
          q.st = .started ∧ q.cnt = m.cnt ∧ q.left = m.left + 1 ∧ q.key = m.key + 1 ∧ q.prog = m.prog)))) ∧
  -- trees
  (∀ (s : State) (m : Cmd),
    let fails (code reason : Nat) : Prop := ∃ u q, exec .treeUnitOperation s = .next u ∧ u.cmd m.uid = some q ∧ q.st = .fin ∧
      q.status = statusWord code reason 0 0 ∧ u.mem = s.mem ∧ (∀ d, u.ctx d = s.ctx d)
    let does (ws : List Wr) (cnt id : Nat) (val : Word) : Prop := ∃ u q, exec .treeUnitOperation s = .next u ∧
      u.cmd m.uid = some q ∧ q.st = .fin ∧ q.status = statusWord 0 0 cnt id ∧ q.val2 = val ∧ u.mem = s.mem.applyAll ws ∧
      (∀ d, u.ctx d = s.ctx d)
    let node (r : Region) (key : Nat → Nat) (x : Nat × TNode) : List Wr :=
      wrBytes (key x.1) ((x.2.words r.d).flatMap (leBytes 8))
    let mayWrite (r : Region) (key : Nat → Nat) (l : List (Nat × TNode)) : Prop :=
      ∀ x ∈ l, treeKey s m (r.nodeAt x.1) 256 true = .ok (key x.1)
    s.cmd s.act.num = some m → m.bus = 11 → m.st = .queued → s.isParked m = false → storesDone (s.ctx m.cid) m.seq = true →
    s.behindTree m = false → s.act.pick = none → s.act.later = false → s.flightsOf (.cmd m.uid) = [] →
    -- TDECL
    (∀ (r : Region) (kd : Nat) (key : Nat → Nat), m.t = 6 → readRegion s m m.b = .ok r →
      (r.live = true → fails 3 8) ∧
      (r.live = false → r.broken = true → fails 3 3) ∧
      (r.live = false → r.broken = false → treeKey s m r.d 64 true = .ok kd →
        let roots : List (Nat × TNode) := (List.range (2 ^ r.h)).map (fun i =>
          (i, { leaf := true, keys := [], vals := [], sib := 2 ^ 64 - 1, high := 0, ver := 0 }))
        mayWrite r key roots → does (roots.flatMap (node r key) ++ (wrNat (kd + 16) 8 (2 ^ 63 + 2 ^ r.h) ++ wrNat (kd + 24) 8 0))
          0 (2 ^ r.h) 0)) ∧
    -- TCOUNT and TPOOL
    (∀ (r : Region), (m.t = 14 ∨ m.t = 15) → readRegion s m m.b = .ok r →
      (r.live = false → fails 3 3) ∧
      (r.live = true → m.t = 14 → does [] r.keys.toNat r.next r.keys) ∧
      (r.live = true → m.t = 15 → (field m.o1 0 32 < r.cap ∨ r.poolFits (field m.o1 0 32) = false) → fails 3 1) ∧
      (∀ kd, r.live = true → m.t = 15 → r.cap ≤ field m.o1 0 32 → r.poolFits (field m.o1 0 32) = true →
        treeKey s m r.d 64 true = .ok kd → does (wrNat (kd + 8) 8 (field m.o1 0 32)) 0 (field m.o1 0 32) 0)) ∧
    -- TLD, TST and TADD
    (∀ (r : Region), (m.t = 7 ∨ m.t = 8 ∨ m.t = 9) → readRegion s m m.o1 = .ok r →
      (r.live = false → fails 3 3) ∧
      (r.live = true → m.t = 9 → r.fmt = 4 → fails 3 1) ∧
      (r.live = true → ¬(m.t = 9 ∧ r.fmt = 4) → 2 ^ r.bits ≤ m.b.toNat → fails 3 4) ∧
      (∀ (n : Nat) (leaf : TNode) (up : List (Nat × TNode)) (kd : Nat) (key : Nat → Nat),
        r.live = true → ¬(m.t = 9 ∧ r.fmt = 4) → m.b.toNat < 2 ^ r.bits → pathOf s m r m.b.toNat = .ok ((n, leaf) :: up) →
        treeKey s m r.d 64 true = .ok kd →
        let kk := m.b.toNat
        let old := leaf.find kk
        let v := m.o2.toNat % 2 ^ r.size
        let o := old.getD 0 % 2 ^ r.size
        let new : Nat :=
          if m.t = 8 then v
          else if r.fmt = 0 then (roundTo .f32 ((Fmt.f32.value o).add false (Fmt.f32.value v)) .rne).pat
          else if r.fmt = 1 then (roundTo .bf16 ((Fmt.bf16.value o).add false (Fmt.bf16.value v)) .rne).pat
          else (o + v) % 2 ^ r.size
        let zero : Bool := if r.fmt = 0 ∨ r.fmt = 1 ∨ r.fmt = 4 then new % 2 ^ (r.size - 1) == 0 else new == 0
        let st := if r.fmt = 2 then (BitVec.ofInt 64 (signedOf 32 new)).toNat else new
        let pair := leaf.keys.zip leaf.vals
        let cnt (present : Bool) : Nat := if m.t = 8 then old.isSome.toNat else present.toNat
        let ver := (leaf.ver + 1) % 2 ^ 32
        (m.t = 7 → does [] old.isSome.toNat 0 (BitVec.ofNat 64 (old.getD 0))) ∧
        (m.t ≠ 7 → zero = true → old = none → does [] (cnt false) 0 0) ∧
        (m.t ≠ 7 → zero = true → old ≠ none →
          let rest := pair.filter (fun x => x.1 != kk)
          let x : Nat × TNode := (n, { leaf with keys := rest.map (·.1), vals := rest.map (·.2), ver := ver })
          mayWrite r key [x] → does (node r key x ++ wrNat (kd + 24) 8 (r.keys - 1).toNat) (cnt false) 0 0) ∧
        (m.t ≠ 7 → zero = false → old ≠ none →
          let x : Nat × TNode := (n, { leaf with vals := pair.map (fun x => if x.1 = kk then st else x.2), ver := ver })
          mayWrite r key [x] → does (node r key x) (cnt true) 0 0) ∧
        (m.t ≠ 7 → zero = false → old = none →
          let need := needOf ((n, leaf) :: up)
          let i := (leaf.keys.filter (· < kk)).length
          let grown : TNode := { leaf with keys := leaf.keys.take i ++ kk :: leaf.keys.drop i,
                                           vals := leaf.vals.take i ++ st :: leaf.vals.drop i }
          let l := splitUp r.next n grown up
          (r.cap < r.next + need → need ≠ 0 → r.grow = false → fails 4 1) ∧
          ((r.next + need ≤ r.cap ∨ need = 0) → mayWrite r key l → does (l.flatMap (node r key) ++
            (wrNat (kd + 16) 8 (BitVec.ofNat 64 (2 ^ 63 + (r.next + need))).toNat ++ wrNat (kd + 24) 8 (r.keys + 1).toNat))
            (cnt true) 0 0)))) ∧
    -- TSCAN, TNEXT and TCLOSE
    (let n := m.cid.core
     let p := s.treePasid m
     let w := readWords s n p m.b 8
     let g (k : Nat) : Word := w.getD k 0
     let state := field (g 5) 62 2
     let lim := field (g 5) 56 4
     let put (w : List Word) : List Wr := [0, 3, 5, 6].flatMap (fun i =>
       writeBytes s n p (m.b + BitVec.ofNat 64 (8 * i)) (leBytes 8 (w.getD i 0).toNat))
     let mark (st ver : Nat) : Word := BitVec.ofNat 64 (st * 2 ^ 62 + lim * 2 ^ 56 + ver)
     let hver := field (g 5) 0 32
     (m.t = 10 ∨ m.t = 11 ∨ m.t = 12) → m.b.toNat % 64 = 0 → nearAddr n m.b 64 = true → engineFree s m.cid p m.b 64 = true →
     (m.t = 12 → (state = 1 ∨ state = 2) → does (put (w.set 5 (mark 3 hver))) 0 0 0) ∧
     (m.t = 11 → state = 2 → does [] 0 1 0) ∧
     ((m.t = 12 ∨ m.t = 11) → state ≠ 1 → state ≠ 2 → fails 3 7) ∧
     (m.t = 10 ∨ (m.t = 11 ∧ state = 1) →
       let w := if m.t = 10 then ((w.set 0 m.o1).set 3 (g 1)).set 5 (mark 1 hver) else w
       let out := g 4
       let nk := (if m.t = 10 then g 1 else g 3).toNat
       let hi := (g 2).toNat
       (lim = 0 ∨ lim = 15 → fails 3 1) ∧
       (lim ≠ 0 → lim ≠ 15 → (out.toNat % 16 ≠ 0 ∨ extentIn n out (16 * lim) = false) → fails 3 2) ∧
       (∀ r, lim ≠ 0 → lim ≠ 15 → out.toNat % 16 = 0 → extentIn n out (16 * lim) = true →
         readRegion s m (if m.t = 10 then m.o1 else g 0) = .ok r →
         (r.live = false → fails 3 3) ∧
         (r.live = true → (hi < nk ∨ 2 ^ r.bits ≤ nk) → does (put (w.set 5 (mark 2 hver))) 0 1 0) ∧
         (∀ i leaf up, r.live = true → nk ≤ hi → nk < 2 ^ r.bits → pathOf s m r nk = .ok ((i, leaf) :: up) →
           let es := ((leaf.keys.zip leaf.vals).filter (fun e => nk ≤ e.1 && e.1 ≤ hi)).take lim
           let nk' := if es.length = lim then (es.getLastD (0, 0)).1 + 1
             else if leaf.sib ≠ 2 ^ 64 - 1 then leaf.high
             else (r.shard nk + 1) * 2 ^ (r.bits - r.h)
           let over' : Bool := hi < nk' || 2 ^ r.bits ≤ nk'
           (firstBad s n p out (16 * es.length) true = none → (es ≠ [] → engineFree s m.cid p out (16 * es.length) = true) →
             does (writeBytes s n p out (es.flatMap (fun e => leBytes 8 e.1 ++ leBytes 8 e.2)) ++
               put (((w.set 3 (BitVec.ofNat 64 nk')).set 5 (mark (if over' then 2 else 1) leaf.ver)).set 6 (BitVec.ofNat 64 i)))
               es.length over'.toNat 0) ∧
           (∀ a, firstBad s n p out (16 * es.length) true = some (a, .absent) → ∃ u q, exec .treeUnitOperation s = .next u ∧
             u.cmd m.uid = some q ∧ q.st = .fin ∧ q.status = statusWord 1 3 0 0 ∧
             u.mem = s.mem.applyAll (if m.t = 10 then put (w.set 5 (mark 1 hver)) else [])))))) ∧
    -- TDENSE starts
    (∀ r, m.t = 13 → m.desc = [] → m.o1.toNat % 128 = 0 → nearAddr m.cid.core m.o1 128 = true →
      engineFree s m.cid (s.pasidOf m) m.o1 128 = true → readRegion s m m.b = .ok r →
      let w := readWords s m.cid.core (s.pasidOf m) m.o1 16
      let m' := { m with desc := w }
      let z := r.size / 8
      let lo (i : Nat) := (w.getD i 0).toNat
      let ext (i : Nat) := field (w.getD (5 + i / 2) 0) (32 * (i % 2)) 32
      (r.live = false → fails 3 3) ∧
      (r.live = true → ((w.getD 4 0).toNat % z ≠ 0 ∨ ∃ i, i < r.rank ∧ (w.getD (8 + i) 0).toInt % (z : Int) ≠ 0) → fails 3 1) ∧
      (r.live = true → (w.getD 4 0).toNat % z = 0 → (∀ i, i < r.rank → (w.getD (8 + i) 0).toInt % (z : Int) = 0) →
        ((∃ i, i < r.rank ∧ 2 ^ r.width i < lo i + ext i) → fails 3 4) ∧
        ((∀ i, i < r.rank → lo i + ext i ≤ 2 ^ r.width i) → (m'.xCount r = 0 ∨ m'.xFits r = true) → m'.xKnown s r = true →
          m'.xUnlinked s r = false → ∃ u q, exec .treeUnitOperation s = .next u ∧ u.cmd m.uid = some q ∧ q.st = .started ∧
            q.desc = w ∧ u.mem = s.mem ∧ (∀ d, u.ctx d = s.ctx d))))) ∧
  -- a started TDENSE
  (∀ (s : State) (m : Cmd) (r : Region),
    let steps (ws : List Wr) (chk : Cmd → Prop) : Prop := ∃ u q, exec .treeUnitOperation s = .next u ∧ u.cmd m.uid = some q ∧
      u.mem = s.mem.applyAll ws ∧ (∀ d, u.ctx d = s.ctx d) ∧ chk q
    let left := (List.range (m.xCount r)).filter (fun e => !m.res.any (fun x => x.k == e))
    s.cmd s.act.num = some m → m.bus = 11 → m.t = 13 → m.st = .started → m.desc ≠ [] → s.isParked m = false →
    storesDone (s.ctx m.cid) m.seq = true → s.behindTree m = false → s.act.pick = none → s.act.later = false →
    s.flightsOf (.cmd m.uid) = [] → readRegion s m m.b = .ok r → r.live = true →
    (∀ i n leaf up, m.xNext r s.act.hi = some i → pathOf s m r (m.xKey r i) = .ok ((n, leaf) :: up) →
      i ∈ left ∧ (∀ j ∈ left, r.shard (m.xKey r j) = r.shard (m.xKey r i) → i ≤ j) ∧
      steps [] (fun q => q.st = .started ∧ ∃ x : ItemRes, q.res = m.res ++ [x] ∧ x.k = i ∧
        x.dst = BitVec.ofNat 64 ((leaf.find (m.xKey r i)).getD 0) ∧ x.page = (leaf.find (m.xKey r i)).isSome)) ∧
    (∀ x, left = [] → m.res.find? (fun y => y.done == 0) = some x →
      let a := m.xAddr r x.k
      let z := r.size / 8
      let p := s.treePasid m
      let here (y : ItemRes) : Bool := y.done == 0 && (m.xAddr r y.k).toNat / 32 == a.toNat / 32
      (firstBad s m.cid.core p a z true = none → engineFree s m.cid p a z = true →
        steps ((m.res.filter here).flatMap (fun y => writeBytes s m.cid.core p (m.xAddr r y.k) (leBytes z y.dst.toNat)))
          (fun q => q.st = .started ∧ q.prog = m.prog ∧
            q.res = m.res.map (fun y => if (m.res.filter here).any (fun z => z.k == y.k) then { y with done := 1 } else y))) ∧
      (∀ y, firstBad s m.cid.core p a z true = some (y, .absent) →
        steps [] (fun q => q.st = .fin ∧ q.status = statusWord 1 3 0 0))) ∧
    (left = [] → (∀ y ∈ m.res, y.done ≠ 0) →
      steps [] (fun q => q.st = .fin ∧ q.status = statusWord 0 0 (m.res.filter (·.page)).length 0))) ∧
  -- the keys and addresses of a box's positions, splits, and the words of a node
  (∀ (m : Cmd) (r : Region) (f : Nat → Nat),
    let ext (i : Nat) := field (m.dw (5 + i / 2)) (32 * (i % 2)) 32
    let below (i : Nat) : Nat := (((List.range r.rank).drop (i + 1)).map ext).prod
    let e := ((List.range r.rank).map (fun i => f i * below i)).sum
    (∀ i, i < r.rank → f i < ext i) →
    m.xCount r = ((List.range r.rank).map ext).prod ∧ e < m.xCount r ∧
    m.xKey r e = ((List.range r.rank).map (fun i =>
      ((m.dw i).toNat + f i) * 2 ^ (((List.range r.rank).drop (i + 1)).map r.width).sum)).sum ∧
    m.xAddr r e = m.dw 4 + BitVec.ofInt 64 ((List.range r.rank).map (fun i => (f i : Int) * (m.dw (8 + i)).toInt)).sum) ∧
  (∀ (nxt n : Nat) (nd : TNode) (up : List (Nat × TNode)),
    let ver := (nd.ver + 1) % 2 ^ 32
    let sep := nd.keys.getD 7 0
    (nd.keys.length < 15 → splitUp nxt n nd up = [(n, { nd with ver := ver })]) ∧
    (nd.keys.length = 15 → up = [] → ∃ lo hi : TNode,
      splitUp nxt n nd up = [(n, { leaf := false, keys := [sep], vals := [nxt, nxt + 1], sib := 2 ^ 64 - 1, high := 0, ver := ver }),
        (nxt, lo), (nxt + 1, hi)] ∧
      lo.leaf = nd.leaf ∧ hi.leaf = nd.leaf ∧ lo.ver = 0 ∧ hi.ver = 0 ∧ lo.keys = nd.keys.take 7 ∧
      (nd.leaf = true → lo.vals = nd.vals.take 7 ∧ lo.sib = nxt + 1 ∧ lo.high = sep ∧
        hi.keys = nd.keys.drop 7 ∧ hi.vals = nd.vals.drop 7 ∧ hi.sib = 2 ^ 64 - 1) ∧
      (nd.leaf = false → lo.vals = nd.vals.take 8 ∧ hi.keys = nd.keys.drop 8 ∧ hi.vals = nd.vals.drop 8)) ∧
    (∀ q pd rest, nd.keys.length = 15 → up = (q, pd) :: rest → ∃ lo hi : TNode,
      let i := (pd.keys.filter (· ≤ sep)).length
      splitUp nxt n nd up = (n, lo) :: (nxt, hi) :: splitUp (nxt + 1) q
        { pd with keys := pd.keys.take i ++ sep :: pd.keys.drop i, vals := pd.vals.take (i + 1) ++ nxt :: pd.vals.drop (i + 1) } rest ∧
      lo.leaf = nd.leaf ∧ hi.leaf = nd.leaf ∧ lo.ver = ver ∧ hi.ver = 0 ∧ lo.keys = nd.keys.take 7 ∧
      (nd.leaf = true → lo.vals = nd.vals.take 7 ∧ lo.sib = nxt ∧ lo.high = sep ∧
        hi.keys = nd.keys.drop 7 ∧ hi.vals = nd.vals.drop 7 ∧ hi.sib = nd.sib ∧ hi.high = nd.high) ∧
      (nd.leaf = false → lo.vals = nd.vals.take 8 ∧ hi.keys = nd.keys.drop 8 ∧ hi.vals = nd.vals.drop 8))) ∧
  (∀ (nd : TNode) (d : Word), nd.keys.length ≤ 14 → nd.vals.length = nd.keys.length + (if nd.leaf then 0 else 1) →
    let w := nd.words d
    let n := nd.keys.length
    w.length = 32 ∧ w.getD 0 0 = (if nd.leaf then 1 else 2) * 2 ^ 62 + n * 2 ^ 56 + nd.ver % 2 ^ 32 ∧ w.getD 1 0 = d.toNat ∧
    (nd.leaf = true → w.getD 30 0 = nd.sib ∧ w.getD 31 0 = nd.high ∧
      ∀ i, i < 14 → w.getD (2 + 2 * i) 0 = nd.keys.getD i 0 ∧ w.getD (3 + 2 * i) 0 = nd.vals.getD i 0) ∧
    (nd.leaf = false → w.getD 31 0 = 0 ∧ (∀ i, i < 14 → w.getD (2 + i) 0 = nd.keys.getD i 0) ∧
      ∀ i, i < 15 → w.getD (16 + i) 0 = nd.vals.getD i 0)) ∧
  (∀ (s : State) (f : FqEnt) (r : List FqEnt) (m : Cmd),
    let c := s.act.clu
    let p := s.pasidOf m
    (s.clu c).fq = f :: r → s.cmd f.uid = some m → m.bus = 11 → m.t = 0 → m.st = .started → m.gNidx ≤ m.prog → f.asked = none →
    s.launch.clearing = false → s.act.later = false → s.flightsOf (.cmd m.uid) = [] →
    ((f.reason = 1 ∧ m.bpol = 0) ∨ (f.reason = 2 ∧ m.apol = 0) ∨ (f.reason = 4 ∧ m.ppol = 1)) →
    engineFree s m.cid p (m.gLocal f.elem) m.gRowb = true →
    ∃ u q, exec .faultQueueReplay s = .next u ∧ (u.clu c).fq = r ∧ u.cmd f.uid = some q ∧ q.left = m.left - 1 ∧
      q.miss = m.miss ++ [f.elem] ∧ q.trapAt = m.trapAt ∧
      u.mem = s.mem.applyAll (writeBytes s m.cid.core p (m.gLocal f.elem) (List.replicate m.gRowb 0)))

/-- Rink sets are admitted, switched, loaded, searched and rewritten (R206, R209, R210, R211, R212, R213, R214, R215, R216, R217, R218, R224).
RKON_ADMIT of a request whose ways no set holds gives it the lowest free handle and a set of zero rows, not yet live;
one that meets a live set ends with ERROR BUSY, and one with no way or slice with ERROR OPND. RKON_SLICE_SWITCH of the
last slice, whose ways are not in use, ends it DONE with the handle. RINK_SET_ADMIT of a command that names no set
ends it with ERROR HANDLE, and one whose range starts at or beyond the set's last lane or leaves the set with ERROR
OPND, whatever other check it fails; that OPND goes before ADDR, LINK and BUSY is the model's choice (log entry 36),
as is the reading of the range's start (log entry 72). RKKEY then holds key, mask and base; RKCMP tags the lanes of
its range as its operation combines old tags and matches; RKWR writes its pattern, and RKTT the table's values, in the
rows and lanes that they name; RKMAPI maps the field of each lane of its range, and counts the entries it clamped;
RKLDT lays the elements of a bit string in memory into lanes, and RKSTT packs them into memory, each ending PARTIAL
with the sectors done at a page that is not present; RKCNT counts and RKFIND finds the tagged lanes; RKOFF turns the
set away from further commands. Rows, tags and memory outside what a command names are unchanged. The statement is
about a command that acts in one step on a set that no other command is at work on; sectors that an RKLDT reads ahead
are left to the step (log entry 9). -/
def Obligations.RinkSteps : Prop :=
  (∀ (s : State) (m : Cmd),
    let wm : BitVec 8 := m.b.setWidth 8
    let sl := m.sliceSet
    let fails (reason : Nat) : Prop := ∃ u q, exec .rkonAdmit s = .next u ∧ u.cmd m.uid = some q ∧ q.st = .fin ∧
      q.status = statusWord 3 reason 0 0 ∧ u.sets = s.sets
    s.cmd s.act.num = some m → m.bus = 14 → m.t = 0 → m.st = .queued →
    (∀ c ∈ s.cmds, c.cid = m.cid → c.bus = 14 → c.t = 0 → c.st = .queued → m.seq ≤ c.seq) →
    ((wm = 0 ∨ sl = []) → fails 1) ∧
    (wm ≠ 0 → sl ≠ [] → (∃ r ∈ s.sets, r.wm &&& wm ≠ 0 ∧ ∃ i ∈ r.slices, i ∈ sl) → fails 3) ∧
    (wm ≠ 0 → sl ≠ [] → (∀ h, 1 ≤ h → h ≤ 256 → ∃ r ∈ s.sets, r.handle = h) → fails 3) ∧
    (∀ h, wm ≠ 0 → sl ≠ [] → (∀ r ∈ s.sets, r.wm &&& wm = 0 ∨ ∀ i ∈ r.slices, i ∉ sl) → 1 ≤ h → h ≤ 256 →
      (∀ r ∈ s.sets, r.handle ≠ h) → (∀ h', 1 ≤ h' → h' < h → ∃ r ∈ s.sets, r.handle = h') →
      ∃ u q, exec .rkonAdmit s = .next u ∧ u.cmd m.uid = some q ∧ q.st = .started ∧ q.slices = sl ∧
        u.sets = s.sets ++ [{ handle := h, live := false, off := false, wm := wm, slices := sl,
                              rows := List.replicate 512 0, tags := 0, key := 0, mask := 0, kbase := 0 }] ∧ u.mem = s.mem)) ∧
  (∀ (s : State) (m : Cmd),
    s.cmd s.act.num = some m → m.bus = 14 → m.t = 0 → m.st = .started → m.slices = [s.act.eng] →
    sliceBusy s (m.b.setWidth 8) s.act.eng = false →
    ∃ u q, exec .rkonSliceSwitch s = .next u ∧ u.cmd m.uid = some q ∧ q.st = .fin ∧ q.status = statusWord 0 0 0 m.prog ∧
      u.sets = s.sets ∧ u.mem = s.mem) ∧
  (∀ (s : State) (m : Cmd),
    let n := m.cid.core
    let p := s.pasidOf m
    let ends (chk : State → Cmd → Prop) : Prop := ∃ u q, exec .rinkSetAdmit s = .next u ∧ u.cmd m.uid = some q ∧ q.st = .fin ∧
      (∀ d, u.ctx d = s.ctx d) ∧ chk u q
    s.cmd s.act.num = some m → m.bus = 14 → m.t ≠ 0 → m.t ≤ 10 → m.st = .queued → storesDone (s.ctx m.cid) m.seq = true →
    (∀ c ∈ s.cmds, c.cid = m.cid → c.bus = 14 → c.t ≠ 0 → c.st = .queued → c.handle = m.handle → m.seq ≤ c.seq) →
    (∀ c ∈ s.cmds, c.uid ≠ m.uid → c.bus = 14 → c.t ≠ 0 → c.handle = m.handle →
      c.st ≠ .started ∧ (c.st = .fin → s.flightsOf (.cmd c.uid) = [])) → s.act.pick = none → m.seen = [] →
    (s.liveSet m.handle = none →
      ends (fun u q => u.mem = s.mem ∧ u.sets = s.sets ∧ q.status = statusWord 3 2 0 m.handle)) ∧
    (∀ r, s.liveSet m.handle = some r → m.t ≠ 1 → m.t ≠ 4 → (r.lanes ≤ m.first + 1 ∨ r.lanes < m.first + m.count r) →
      ends (fun u q => u.mem = s.mem ∧ u.sets = s.sets ∧ q.status = statusWord 3 1 0 m.handle)) ∧
    (∀ r, s.liveSet m.handle = some r → s.act.flag = false → m.badRows = false → (m.t ≠ 1 → m.t ≠ 4 → m.badRange r = false) →
      r.rows.length = 512 →
      let b := m.b
      let within (l : Nat) : Prop := m.first ≤ l ∧ l < m.first + m.count r
      let tag (l : Nat) : Bool := r.tags.testBit l
      let bit (x : RinkSet) (i l : Nat) : Bool := (x.row i).testBit l
      let does (cnt : Nat) (chk : RinkSet → Prop) : Prop := ends (fun u q => u.mem = s.mem ∧
        q.status = statusWord 0 0 cnt m.handle ∧ ∃ x, u.liveSet m.handle = some x ∧ chk x)
      (m.t = 1 → ends (fun u q => u.mem = s.mem ∧ q.status = statusWord 0 0 0 m.handle ∧ u.liveSet m.handle = none)) ∧
      (m.t = 4 → does 0 (fun x => x.key = b.extractLsb' 0 16 ∧ x.mask = b.extractLsb' 16 16 ∧
        x.kbase = b.toNat / 2 ^ 32 % 512 ∧ x.rows = r.rows ∧ x.tags = r.tags)) ∧
      (m.t = 5 → does 0 (fun x => x.rows = r.rows ∧ ∀ l,
        let hit : Prop := ∀ i, i < 16 → r.mask.getLsbD i = true → bit r (r.kbase + i) l = r.key.getLsbD i
        (¬within l → x.tags.testBit l = tag l) ∧
        (within l → (x.tags.testBit l = true ↔
          (b.toNat % 4 = 0 ∧ hit) ∨ (b.toNat % 4 = 1 ∧ tag l = true ∧ hit) ∨ (b.toNat % 4 = 2 ∧ (tag l = true ∨ hit)) ∨
          (b.toNat % 4 = 3 ∧ tag l = true ∧ ¬hit))))) ∧
      (m.t = 6 → does 0 (fun x => x.tags = r.tags ∧ ∀ i l, i < 512 →
        let j := i - field b 32 9
        (within l → (b.getLsbD 41 = true ∨ tag l = true) → field b 32 9 ≤ i → j < 16 → b.getLsbD (16 + j) = true →
          bit x i l = b.getLsbD j) ∧
        ((¬within l ∨ (b.getLsbD 41 = false ∧ tag l = false) ∨ i < field b 32 9 ∨ 16 ≤ j ∨ b.getLsbD (16 + j) = false) →
          bit x i l = bit r i l))) ∧
      (m.t = 7 → does 0 (fun x => x.tags = r.tags ∧ ∀ i l, i < 512 →
        let ix := ((List.range (field b 54 3)).map (fun j => (bit r (field b (9 * j) 9) l).toNat * 2 ^ j)).sum
        let writes : Prop := within l ∧ (b.getLsbD 58 = true → tag l = true)
        (writes → i = field b 36 9 → bit x i l = m.o2.getLsbD ix) ∧
        (writes → b.getLsbD 57 = true → i = field b 45 9 → bit x i l = m.o2.getLsbD (16 + ix)) ∧
        ((¬writes ∨ (i ≠ field b 36 9 ∧ (b.getLsbD 57 = true → i ≠ field b 45 9))) → bit x i l = bit r i l))) ∧
      (m.t = 8 → ends (fun u q => u.mem = s.mem ∧ u.sets = s.sets ∧ q.status = statusWord 0 0
        ((List.range r.lanes).filter (fun l => m.first ≤ l && l < m.first + m.count r && tag l)).length m.handle)) ∧
      (m.t = 9 → ends (fun u q => u.mem = s.mem ∧ u.sets = s.sets ∧
        q.status = match (List.range r.lanes).find? (fun l => m.first ≤ l && l < m.first + m.count r && tag l) with
          | some l => statusWord 0 0 1 l
          | none => statusWord 0 0 0 0xFFFFFFFF)) ∧
      (m.t = 10 →
        let w := 2 * field b 11 2 + 2
        let base := field b 2 9
        let of (x : RinkSet) (l : Nat) : Nat := ((List.range w).map (fun i => (bit x (base + i) l).toNat * 2 ^ i)).sum
        does ((List.range (2 ^ w)).filter (fun j => 2 ^ w ≤ xAt m.xreg j)).length (fun x => x.tags = r.tags ∧ ∀ l,
          (within l → of x l = min (xAt m.xreg (of r l)) (2 ^ w - 1)) ∧ (¬within l → of x l = of r l) ∧
          ∀ i, i < 512 → (i < base ∨ base + w ≤ i) → bit x i l = bit r i l)) ∧
      (m.t = 2 ∨ m.t = 3 →
        let w := field m.o2 9 5 + 1
        let base := field m.o2 0 9
        let cnt := m.count r
        let len := (w * cnt + 7) / 8
        let v := if field m.o1 40 24 = 0 then ((Eff.start s).grants m [(b, len)]).st else s
        let wr := m.t == 3
        s.act.later = false → s.flightsOf (.cmd m.uid) = [] →
        ((mxReach n b = false ∨ extentOk b len = false) →
          ends (fun u q => u.mem = s.mem ∧ u.sets = s.sets ∧ q.status = statusWord 3 4 0 m.handle)) ∧
        (mxReach n b = true → extentOk b len = true → pagesKnown s n p b len = true →
          (unlinked s n p b len wr = true →
            ends (fun u q => u.mem = s.mem ∧ u.sets = s.sets ∧ q.status = statusWord 3 9 0 m.handle)) ∧
          (unlinked s n p b len wr = false →
            (∀ a x, firstBad s n p b len wr = some (a, x) → engineFree v m.cid p b (a - b).toNat = true →
              ends (fun _ q => q.status =
                statusWord 1 5 ((b.toNat + (a - b).toNat) / 32 - b.toNat / 32) m.handle)) ∧
            (firstBad s n p b len wr = none → engineFree v m.cid p b len = true →
              (m.t = 2 → does 0 (fun x => x.tags = r.tags ∧ ∀ i l, i < 512 →
                (within l → base ≤ i → i < base + w →
                  bit x i l = (leNat (readBytes s n p b len)).testBit (w * (l - m.first) + (i - base))) ∧
                ((¬within l ∨ i < base ∨ base + w ≤ i) → bit x i l = bit r i l))) ∧
              (m.t = 3 → ∃ y, y < 2 ^ (w * cnt) ∧
                (∀ i j, i < cnt → j < w → y.testBit (w * i + j) = bit r (base + j) (m.first + i)) ∧
                ends (fun u q => u.mem = s.mem.applyAll (writeBytes s n p b (leBytes len y)) ∧ u.sets = s.sets ∧
                  q.status = statusWord 0 0 0 m.handle))))))))

/-- Records are pushed, popped and joined (R77, R78, R155, R302, R303, R304, R305, R306, R309, R310, R313, R325).
A ring's number is 4 x cluster + PRI, 64 for the device queue (HMODE 2). POST_QUEUE_PERFORM of a SPAWN entry whose
record's ring has room, or else the device queue, pushes the record last there and takes the entry off; with CODE 0 it
only takes it off; of a JOINI, it sets the count or adds to it; of a TDONE whose earlier counted work has completed,
it writes the detail and sets the bit with SETCNT one more; a page outside the launch contract that is not to be had
leaves only FATAL_UNPROBED due. CONTEXT_END of an EXIT performs the context's stores, releases its streams and the
pair buffer and leaves the join step; of a HALT, it ends the launch with the code of the HALT that issued first.
JOIN_STEP with JOINP 0 makes the context idle; a count above 1 falls by one; a count of 1 becomes 0 and pushes the
continuation, or, with CODE 0, ends the launch where the record is the root's; a count of 0 sets the join-error flag;
a page that is not to be had halts the context with FATAL_UNPROBED. The ring that LIFT_POP takes from is the non-empty
one of the lowest priority number of its own cluster, at every 16th pop the one with the earliest record; then the
device queue; then the first cluster after its own with a record, which is no pop. LIFT_POP starts the record at the
head of that ring: live, at its code, with the frame in s62, the stacks in s61 and the launch block in s60, zero in
s63, its join record, and every other register as it was. POWER_GATE gates a core of four idle contexts, and CORE_WAKE
wakes it while a ring holds a record. GROUP_ARRIVAL of a core that is not the last adds it to the arrived ones; the
last one starts the next phase. TWAITB_WAKE of a context that waits for a bit which is set notes that the TWAITB has
seen it; with the bit clear nothing changes. That the rings' storage holds free bytes while it holds records is the
model's choice (log entry 14), that firmware asks for the pages of the launch contract again is R318, and no fairness
among these steps is claimed (log entry 5). -/
def Obligations.ProgressSteps : Prop :=
  (∀ (s : State) (cid : Cid) (ctrl : Word),
    let cl := 4 * (clusterOf cid.core).val
    let q := ringFor s cid ctrl
    let p := (ctrl.extractLsb' 0 2).toNat
    (((ctrl.extractLsb' 8 2).toNat = 0 ∨ (ctrl.extractLsb' 8 2).toNat = 3) → q = cl + p) ∧
    ((ctrl.extractLsb' 8 2).toNat = 2 → q = 64) ∧
    ((ctrl.extractLsb' 8 2).toNat = 1 →
      let has (i : Nat) : Prop := ∃ n, n < 4096 ∧ n / 256 = ((clusterOf cid.core).val + i) % 16 ∧
        (groupsGet s.groups (ctrl.extractLsb' 16 8).toNat).members.getLsbD n = true
      (∀ i, i < 16 → has i → (∀ j, j < i → ¬ has j) → q = 4 * (((clusterOf cid.core).val + i) % 16) + p) ∧
      ((∀ i, i < 16 → ¬ has i) → q = cl + p)) ∧
    ((s.ring q).length < s.launch.liftcap → s.pushRing cid ctrl = some q) ∧
    (s.launch.liftcap ≤ (s.ring q).length → (s.ring 64).length < s.launch.liftcap → s.pushRing cid ctrl = some 64) ∧
    (s.launch.liftcap ≤ (s.ring q).length → s.launch.liftcap ≤ (s.ring 64).length → s.pushRing cid ctrl = none)) ∧
  (∀ (s : State) (n : Nat) (l : List Post),
    let cid := s.act.cid
    let c := s.ctx cid
    let gone (u : State) (a : Word) : Prop := u.mem = s.mem ∧ u.rings = s.rings ∧ (u.ctx cid).due = c.due ++ [(6, a)]
    c.st ≠ .out →
    (∀ code frame join ctrl, c.post = { seq := n, kind := .spawn code frame join ctrl } :: l → storesDone c n = true →
      (code = 0 → ∃ u, exec .postQueuePerform s = .next u ∧ (u.ctx cid).post = l ∧ u.mem = s.mem ∧ u.rings = s.rings) ∧
      (∀ q k, code ≠ 0 → s.pushRing cid ctrl = some q → s.slotKey q (s.nextSlot q) true = .ok k →
        ∃ u, exec .postQueuePerform s = .next u ∧ (u.ctx cid).post = l ∧ u.pushes = s.pushes + 1 ∧
          u.mem = s.mem.applyAll (wrNat k 32 (Config.ringRecord s.pushes).toNat) ∧
          u.ring q = s.ring q ++
            [{ code := code, frame := frame, join := join, ctrl := ctrl, ord := s.pushes, slot := s.nextSlot q }] ∧
          (∀ p, p < 65 → p ≠ q → u.ring p = s.ring p))) ∧
    (∀ a m add k, s.Inv → c.post = { seq := n, kind := .joini a m add } :: l → storesDone c n = true →
      blockKey s cid a true = .ok k → keyHeld s k 40 = false → atomicHeld s k 40 = false →
      ∃ u, exec .postQueuePerform s = .next u ∧ (u.ctx cid).post = l ∧
        (∀ x, x < k ∨ k + 8 ≤ x → u.mem.get x = s.mem.get x) ∧
        u.mem.nat k 4 = (if add then (s.mem.nat k 4 + m.toNat) % 2 ^ 32 else m.toNat) ∧
        u.mem.nat (k + 4) 4 = (if add then s.mem.nat (k + 4) 4 else 0)) ∧
    (∀ a m add, c.post = { seq := n, kind := .joini a m add } :: l → storesDone c n = true →
      (blockKey s cid a true = .absent ∨ blockKey s cid a true = .noPort) → s.launchPage a = false →
      ∃ u, exec .postQueuePerform s = .next u ∧ (u.ctx cid).post = l ∧ gone u a) ∧
    (∀ blk bit err cnt k j, s.Inv → bit < 64 → c.post = { seq := n, kind := .tdone blk bit err cnt } :: l →
      storesDone c n = true → allCounted s cid n = true → actionPlace s cid blk bit = .at k j → (j + 8 ≤ k ∨ k + 16 ≤ j) →
      ∃ u, exec .postQueuePerform s = .next u ∧ (u.ctx cid).post = l ∧
        u.mem.word k = s.mem.word k ||| (1 <<< bit) ∧ u.mem.word (k + 8) = s.mem.word (k + 8) + 1 ∧
        (u.mem.word j).getLsbD 63 = err ∧ (u.mem.word j).extractLsb' 0 24 = cnt) ∧
    (∀ blk bit err cnt a, c.post = { seq := n, kind := .tdone blk bit err cnt } :: l →
      storesDone c n = true → allCounted s cid n = true → actionPlace s cid blk bit = .gone a →
      ∃ u, exec .postQueuePerform s = .next u ∧ (u.ctx cid).post = l ∧ gone u blk)) ∧
  (∀ (s : State) (t : Word),
    let cid := s.act.cid
    let c := s.ctx cid
    let released (u : State) : Prop := u.mem = s.mem.applyAll (c.stores.flatMap (fun p => wrPairs p.wr)) ∧
      (u.core cid.core).pair.holder ≠ some cid.ctx
    c.st = .live → firstDue c.due = none →
    (c.xfer = some { kind := .exit, target := t, left := 0 } → ∃ u, exec .contextEnd s = .next u ∧ released u ∧
      (u.ctx cid).st = .joining ∧ (u.ctx cid).xfer = none ∧ (u.ctx cid).stores = [] ∧ u.launch = s.launch ∧
      (∀ n : Fin 8, (u.ctx cid).w.get n = none)) ∧
    (c.xfer = some { kind := .halt, target := t, left := 0 } → s.launch.st = .running → s.launch.clearing = false →
      s.launch.fault = none →
      ∃ u, exec .contextEnd s = .next u ∧ released u ∧ u.launch.clearing = true ∧ u.launch.fin = .halt ∧ u.launch.cause = 0 ∧
        u.launch.st = .running ∧ (cid.core.val < 4096 → ∀ d : Cid, d.core = cid.core → (u.ctx d).st = .out) ∧
        (∀ h code, firstHalt s = some (h, code) → u.launch.ccode = code ∧ u.launch.devcore = h.core.val) ∧
        (∀ h code, firstHalt s = some (h, code) → ∃ p ∈ s.cores, ∃ i m, h = ⟨Fin.ofNat 4112 p.1, i⟩ ∧
          (p.2.at i).haltAt = some (code, m) ∧ ∀ p' ∈ s.cores, ∀ i' code' m', (p'.2.at i').haltAt = some (code', m') → m ≤ m'))) ∧
  (∀ (s : State),
    let cid := s.act.cid
    let c := s.ctx cid
    let acts (p : State → Prop) : Prop := ∃ u, exec .joinStep s = .next u ∧ p u
    c.st = .joining → c.post = [] → firstDue c.due = none →
    (c.joinp = 0 → acts (fun u => (u.ctx cid).st = .idle ∧ u.mem = s.mem ∧ u.launch = s.launch)) ∧
    (c.joinp ≠ 0 → sharedAddr c.joinp = true → s.launchPage c.joinp = false →
      (blockKey s cid c.joinp true = .absent ∨ blockKey s cid c.joinp true = .noPort) →
      acts (fun u => (u.ctx cid).st = .halting ∧ (u.ctx cid).trap = some ⟨6, c.joinp, none⟩ ∧ u.mem = s.mem)) ∧
    (∀ k, s.Inv → c.joinp ≠ 0 → sharedAddr c.joinp = true → blockKey s cid c.joinp true = .ok k →
      keyHeld s k 40 = false → atomicHeld s k 40 = false →
      let n := s.mem.nat k 4
      let lowers (u : State) : Prop := u.mem.nat k 4 = n - 1 ∧ (∀ x, x < k ∨ k + 4 ≤ x → u.mem.get x = s.mem.get x)
      (n = 0 → acts (fun u => (u.ctx cid).st = .idle ∧ u.mem = s.mem ∧ u.launch = { s.launch with jerr := true })) ∧
      (1 < n → acts (fun u => (u.ctx cid).st = .idle ∧ lowers u ∧ u.launch = s.launch)) ∧
      (∀ q j, n = 1 → s.mem.word (k + 8) ≠ 0 → s.pushRing cid (s.mem.word (k + 32)) = some q →
        s.slotKey q (s.nextSlot q) true = .ok j →
        acts (fun u => (u.ctx cid).st = .idle ∧ u.launch = s.launch ∧
          u.mem = s.mem.applyAll (wrNat k 4 0 ++ wrNat j 32 (Config.ringRecord s.pushes).toNat) ∧
          u.ring q = s.ring q ++ [{ code := s.mem.word (k + 8), frame := s.mem.word (k + 16), join := s.mem.word (k + 24),
                                    ctrl := s.mem.word (k + 32), ord := s.pushes, slot := s.nextSlot q }])) ∧
      (n = 1 → s.mem.word (k + 8) = 0 → c.joinp ≠ s.launch.rootj →
        acts (fun u => (u.ctx cid).st = .idle ∧ lowers u ∧ u.launch = s.launch)) ∧
      (n = 1 → s.mem.word (k + 8) = 0 → c.joinp = s.launch.rootj → s.launch.st = .running → s.launch.clearing = false →
        s.launch.fault = none → acts (fun u => lowers u ∧ u.launch.st = .running ∧ u.launch.clearing = true ∧
          u.launch.fin = .root ∧ u.launch.cause = 0 ∧ u.launch.devcore = 0 ∧ u.launch.ccode = 0 ∧ u.rings = [])))) ∧
  (∀ (s : State) (c : Fin 16),
    let own (p : Nat) : List LRec := s.ring (4 * c.val + p)
    let far (i p : Nat) : List LRec := s.ring (4 * ((c.val + 1 + i) % 16) + p)
    (∀ p, p < 4 → ((s.clu c).pops + 1) % 16 ≠ 0 → own p ≠ [] → (∀ j, j < p → own j = []) →
      popFrom s c = some (4 * c.val + p, true)) ∧
    (∀ p r, p < 4 → ((s.clu c).pops + 1) % 16 = 0 → (own p).head? = some r →
      (∀ j x, j < 4 → j ≠ p → (own j).head? = some x → r.ord < x.ord ∨ (r.ord = x.ord ∧ p < j)) →
      popFrom s c = some (4 * c.val + p, true)) ∧
    ((∀ p, p < 4 → own p = []) →
      (s.ring 64 ≠ [] → popFrom s c = some (64, true)) ∧
      (s.ring 64 = [] →
        (∀ i p, i < 15 → p < 4 → far i p ≠ [] → (∀ j, j < p → far i j = []) → (∀ j q, j < i → q < 4 → far j q = []) →
          popFrom s c = some (4 * ((c.val + 1 + i) % 16) + p, false)) ∧
        ((∀ i p, i < 15 → p < 4 → far i p = []) → popFrom s c = none)))) ∧
  (∀ (s : State) (q : Nat) (pop : Bool) (r : LRec) (l : List LRec) (k : Nat),
    let cid := s.act.cid
    (s.ctx cid).st = .idle → (s.core cid.core).gated = false → s.runs = true → isCsc cid = false →
    popFrom s (clusterOf cid.core) = some (q, pop) → s.ring q = r :: l → q < 65 →
    s.slotKey q r.slot false = .ok k → s.mem.nat k 32 = (Config.ringRecord r.ord).toNat →
    ∃ u, exec .liftPop s = .next u ∧ u.ring q = l ∧ (∀ p, p < 65 → p ≠ q → u.ring p = s.ring p) ∧ u.mem = s.mem ∧
      (u.clu (clusterOf cid.core)).pops = (s.clu (clusterOf cid.core)).pops + pop.toNat ∧
      (let c := s.ctx cid
       let d := u.ctx cid
       d.st = .live ∧ d.pc = r.code ∧ d.joinp = r.join ∧ d.readS 62 = r.frame ∧ d.readS 63 = 0 ∧
       d.readS 61 = BitVec.ofNat 64 (0x8000000000027F00 - 0x2000 * cid.ctx.val) ∧
       d.readS 60 = BitVec.ofNat 64 (0x8000000000027F00 + 0x40 * cid.ctx.val) ∧
       (∀ i : Fin 64, i.val < 60 → d.readS i = c.readS i) ∧ d.v = c.v ∧ d.m = c.m ∧ d.c = c.c ∧ d.k = c.k ∧ d.x = c.x ∧
       d.lat = c.lat ∧ d.fpc = c.fpc ∧ d.stat = c.stat ∧ d.kpol = c.kpol ∧ d.ixpol = c.ixpol)) ∧
  (∀ (s : State),
    let n := s.act.cid.core
    ((∀ i : Fin 4, (s.ctx ⟨n, i⟩).st = .idle) → ∃ u, exec .powerGate s = .next u ∧ (u.core n).gated = true ∧
      (∀ d, u.ctx d = s.ctx d)) ∧
    ((s.core n).gated = true → (∃ r ∈ s.rings, r ≠ []) → ∃ u, exec .coreWake s = .next u ∧ (u.core n).gated = false ∧
      (∀ d, u.ctx d = s.ctx d))) ∧
  (∀ (s : State),
    let g := s.act.grp.val
    let n := s.act.cid.core.val
    let x := groupsGet s.groups g
    let all := x.arrived ||| ((1 : BitVec 4096) <<< n)
    (g, n) ∈ s.arrivals → ∃ u, exec .groupArrival s = .next u ∧ u.arrivals = s.arrivals.erase (g, n) ∧
      (popcount 4096 all.toNat ≠ popcount 4096 x.members.toNat → groupsGet u.groups g = { x with arrived := all }) ∧
      (popcount 4096 all.toNat = popcount 4096 x.members.toNat →
        groupsGet u.groups g = { x with arrived := 0, phase := x.phase + 1 })) ∧
  (∀ (s : State) (blk : Word) (bit : Nat) (seen : Bool),
    let cid := s.act.cid
    (s.ctx cid).tw = some (blk, bit, seen) →
    (bitSet s cid blk bit = true → ∃ u, exec .twaitbWake s = .next u ∧
      u.ctx cid = { s.ctx cid with tw := some (blk, bit, true) } ∧ u.mem = s.mem) ∧
    (bitSet s cid blk bit = false → exec .twaitbWake s = .next s))

/-- A launch starts from its vector, is rejected by its first failing check, and is cleared (R12, R86, R87, R97, R309, R312, R316, R317, R318, R330, R367, R368).
LAUNCH_WRITE while a launch runs, or is being checked, sets LWB and nothing else. Any other write opens the launch:
STATE reads 1, LSEQ advances, LPASID as it stands is held; where a check needs a reply of the host that is awaited,
that is all, and the L9 goes on with the checks in a later step. The checks are made in R318's order, and the first
that fails gives its REJ: recovery mode 6; the start vector misaligned or not present 2; no ENTRY 1; LIFTCAP 3; the
group table, root record or lift storage misaligned, in the wrong memory, not present, or, but for the group table,
not both readable and writable 2; a group that names a core outside the launch 4; a core in more than four groups 5.
Where a check fails, STATE is 3 with that REJ, vector 0 is raised and no core changes. Where all pass, STATE stays 1,
the launch-information blocks and the root record are written, context 0 of every core whose ENTRY is not zero is live
at that ENTRY with s60 to s63 set, every other context of those cores is idle, their tiles are zero and no window is
mapped, no other stream core has a context in the launch, and the queues are empty. LAUNCH_CLEAR after a detected
fault that no context reports ends the launch with END 3; once the work that had started is over, it zeroes the
scratchpads, slices, chip scratchpad and lane slices, leaves every granule in state C, no rink set, translation,
window, tile value, cached instruction or command of the launch, sets STATE 2 and raises vector 0; device memory is
untouched. That the L9 waits for translation replies that the checks need is the model's reading (log entry 12), and
that staging lines are dropped is the model's choice (log entry 51). -/
def Obligations.LaunchSteps : Prop :=
  (∀ (s : State), s.launch.st = .running → s.act.flag = false → ∃ u, exec .launchWrite s = .next u ∧
    u.launch = { s.launch with lwb := true } ∧ u.mem = s.mem ∧ (∀ d, u.ctx d = s.ctx d) ∧ u.host = s.host) ∧
  (∀ (s : State), s.act.flag = true → (s.launch.st ≠ .running ∨ s.launch.checking = false) → exec .launchWrite s = .next s) ∧
  (∀ (s : State) (pasid : BitVec 20) (a : Word),
    let f (off : Nat) : Word := fieldAt s pasid a off
    let entry (n : Nat) : Word := entryOf s pasid a n
    let cap := ((f 0x38).extractLsb' 0 32).toNat
    let member (g n : Nat) : Bool := (tableGroup s pasid (f 0x08) g).getLsbD n
    let known (x : List Word) (wr : Bool) : Prop := ∀ y ∈ x, ∃ k, accessKey s 0 pasid y wr = .ok k
    let vec := present s pasid a 0x8080 false
    let tab := present s pasid (f 0x08) 0x20000 false
    let root (wr : Bool) := present s pasid (f 0x28) 40 wr
    let lift (wr : Bool) := present s pasid (f 0x30) (65 * 32 * cap) wr
    let fails (r : Nat) : Prop := launchCheck s pasid a = some (r, some false)
    let c2 : Prop := a.toNat % 4096 = 0 ∧ vec = some true
    let c3 : Prop := ∃ n, n < 4096 ∧ entry n ≠ 0
    let c4 : Prop := 16 ≤ cap ∧ cap ≤ 2 ^ 24
    let c5 : Prop := (f 0x08).toNat % 512 = 0 ∧ sharedAddr (f 0x28) = true ∧ liftOk s pasid (f 0x30) (65 * 32 * cap) = true ∧
      tab = some true ∧ (∀ wr, root wr = some true ∧ lift wr = some true)
    let c6 : Prop := ∀ g n, g < 256 → n < 4096 → member g n = true → entry n ≠ 0
    let c7 : Prop := ∀ n, n < 4096 → ((List.range 256).filter (fun g => member g n)).length ≤ 4
    (∀ (b : Word) (n : Nat) (wr : Bool), extentOk b n = true →
      (classify b = .glob b.toNat ∨ ∃ o, classify b = .chip o) → known (pageStarts b n) wr → present s pasid b n wr = some true) ∧
    (s.boot.recovery = true → fails 6) ∧
    (s.boot.recovery = false →
      (a.toNat % 4096 ≠ 0 ∨ vec = some false → fails 2) ∧
      (c2 → ¬ c3 → fails 1) ∧
      (c2 → c3 → ¬ c4 → fails 3) ∧
      (c2 → c3 → c4 → ((f 0x08).toNat % 512 ≠ 0 ∨ sharedAddr (f 0x28) = false ∨
        liftOk s pasid (f 0x30) (65 * 32 * cap) = false ∨ tab = some false ∨ ∃ wr, root wr = some false ∨ lift wr = some false) → fails 2) ∧
      (c2 → c3 → c4 → c5 → ¬ c6 → fails 4) ∧
      (c2 → c3 → c4 → c5 → c6 → ¬ c7 → fails 5) ∧
      (c2 → c3 → c4 → c5 → c6 → c7 → launchCheck s pasid a = none))) ∧
  (∀ (s : State) (p : BitVec 20) (sv : Word) (seq : BitVec 64),
    let entry (n : Nat) : Word := entryOf s p sv n
    let cs := launchCores s p sv
    (s.launch.st ≠ .running ∧ s.act.flag = false ∧ p = s.host.lpasid ∧ sv = s.act.word ∧ seq = s.launch.seqno + 1) ∨
    (s.launch.st = .running ∧ s.launch.clearing = false ∧ s.launch.checking = true ∧ s.act.flag = true ∧ p = s.launch.pasid ∧
      sv = s.launch.sv ∧ seq = s.launch.seqno) →
    (∀ r, launchCheck s p sv = some (r, some false) → ∃ u, exec .launchWrite s = .next u ∧ u.launch.st = .rejected ∧
      u.launch.rej = r ∧ u.launch.seqno = seq ∧ u.launch.lwb = (s.launch.lwb && s.act.flag) ∧ u.launch.checking = false ∧
      u.host.msix.get 0 = s.host.msix.get 0 + 1 ∧ u.mem = s.mem ∧ (∀ d, u.ctx d = s.ctx d)) ∧
    (∀ r, launchCheck s p sv = some (r, none) → ∃ u, exec .launchWrite s = .next u ∧ u.launch.st = .running ∧
      u.launch.checking = true ∧ u.launch.seqno = seq ∧ u.launch.pasid = p ∧ u.launch.sv = sv ∧
      u.launch.lwb = (s.launch.lwb && s.act.flag) ∧ u.host = s.host ∧ u.mem = s.mem ∧ (∀ d, u.ctx d = s.ctx d)) ∧
    (launchCheck s p sv = none →
    ∃ u, exec .launchWrite s = .next u ∧ u.launch.st = .running ∧ u.launch.clearing = false ∧ u.launch.checking = false ∧
      u.launch.lwb = (s.launch.lwb && s.act.flag) ∧
      u.launch.seqno = seq ∧ u.launch.pasid = p ∧ u.launch.sv = sv ∧ u.launch.ncores = cs.length ∧
      (∀ q, u.ring q = []) ∧ u.cmds = s.cmds ∧ u.own = s.own ∧
      u.mem = s.mem.applyAll (infoWrites s p sv seq.toNat cs ++ rootWrites s p (fieldAt s p sv 0x28) cs.length) ∧
      (∀ n, n ∈ cs ↔ n < 4096 ∧ entry n ≠ 0) ∧
      (∀ n : Fin 4112, n.val < 4096 → entry n.val ≠ 0 →
        (∀ i : Fin 4,
          let d := u.ctx ⟨n, i⟩
          d.st = (if i = 0 then .live else .idle) ∧ (i = 0 → d.pc = entry n.val) ∧ d.pasid = p ∧
          d.joinp = fieldAt s p sv 0x28 ∧ d.rbseed = fieldAt s p sv 0x10 + BitVec.ofNat 64 (4 * n.val + i.val) ∧
          d.readS 60 = BitVec.ofNat 64 (0x8000000000027F00 + 0x40 * i.val) ∧
          d.readS 61 = BitVec.ofNat 64 (0x8000000000027F00 - 0x2000 * i.val) ∧ d.readS 62 = 0 ∧ d.readS 63 = 0 ∧
          (∀ j : Fin 64, j.val < 60 → d.readS j = 0) ∧ (∀ j : Fin 32, d.v.get j = 0) ∧
          (∀ j : Fin 8, d.m.get j = BitVec.allOnes 64) ∧ d.stat = 0 ∧ d.fpc = 8 ∧ d.due = [] ∧ d.preempt = false) ∧
        (∀ t : Fin 8, (u.core n).tiles.get t = Tile.fresh ∧ (u.core n).wins.get t = none) ∧ (u.core n).icache = []) ∧
      (∀ n : Fin 4112, n.val < 4096 → entry n.val = 0 → ∀ i : Fin 4, (u.ctx ⟨n, i⟩).st = .out))) ∧
  (∀ (s : State) (pasid : BitVec 20) (a : Word) (seqno ncores rank n i : Nat),
    leNat (infoBlock s pasid a seqno ncores rank n i) =
      n % 256 + 2 ^ 16 * (n / 256 % 256) + 2 ^ 24 * (i % 256) + 2 ^ 32 * (ncores % 2 ^ 32) +
      2 ^ 64 * (fieldAt s pasid a 0x08).toNat + 2 ^ 128 * (fieldAt s pasid a 0x00).toNat + 2 ^ 192 * a.toNat +
      2 ^ 256 * (n % 2 ^ 16) + 2 ^ 288 * (rank % 2 ^ 32) + 2 ^ 320 * (seqno % 2 ^ 64)) ∧
  (∀ (s : State) (c : Cid) (code : Word), s.launch.st = .running → s.launch.clearing = false →
    s.launch.fault = some (c, code) → (∀ p ∈ s.cores, ∀ i : Fin 4, (p.2.ctx.get i).st ≠ .halting) →
    ∃ u, exec .launchClear s = .next u ∧ u.launch.clearing = true ∧ u.launch.st = .running ∧ u.launch.fin = .fault ∧
      u.launch.cause = 10 ∧ u.launch.devcore = c.core.val ∧ u.launch.ccode = code ∧ u.mem = s.mem) ∧
  (∀ (s : State), s.launch.st = .running → s.launch.clearing = true → workOver s = true →
    (∀ m ∈ s.cmds, toCut s m = true → isCsc m.cid = true) →
    ∃ u, exec .launchClear s = .next u ∧ u.launch.st = .ended ∧ u.launch.clearing = false ∧ u.launch.fin = s.launch.fin ∧
      u.launch.ccode = s.launch.ccode ∧ u.host.msix.get 0 = s.host.msix.get 0 + 1 ∧ u.sets = [] ∧
      u.cmds = s.cmds.filter (fun m => isCsc m.cid) ∧ (∀ g, u.engineOwns g = false) ∧
      (∀ c : Fin 16, (u.clu c).atc = [] ∧ (u.clu c).fq = (s.clu c).fq.filter (fun f => !s.launchEntry f) ∧
        (∀ l ∈ (u.clu c).stg, isCsc l.cid = true)) ∧
      (∀ n : Fin 4112, n.val < 4096 → (u.core n).icache = [] ∧ (∀ i : Fin 4, (u.ctx ⟨n, i⟩).st = .out) ∧
        ∀ t : Fin 8, (u.core n).tiles.get t = Tile.fresh ∧ (u.core n).wins.get t = none) ∧
      (∀ n off, n < 4096 → off < 0x40000 → u.mem.get (coreKey n off) = 0) ∧
      (∀ n off, n < 4096 → off < 0x10000 → u.mem.get (sliceKey n off) = 0) ∧
      (∀ off, off < 0x4000000 → u.mem.get (chipKey off) = 0) ∧
      (∀ n l off, n < 4096 → l < 32 → off < 0x400 → u.mem.get (laneKey n l off) = 0) ∧
      (∀ a, a < 2 ^ 40 → u.mem.get a = s.mem.get a))

/-- Translations come and go (R332, R333, R334, R336, R338, R339, R340, R341, R373).
ATS_TRANSLATION_REPLY, under the launch's PASID or, for a launch that is being checked, under LPASID, with a page of
legal form that holds the missed address makes it translate through that page; with none, no cluster translates it to
anything but not present. While an invalidation that names a page is outstanding, its old translation stays.
PRI_RESPONSE gives an unanswered request its code, and with SUCCESS a page that translates it, or no page, which is
then asked for afresh. INVALIDATION_REQUEST, with fewer than 32 outstanding, is numbered last; INVALIDATION_ACK of a
context at a quiescent point, with no counted work, no entry in its post queue and no command that has an access in
flight, acknowledges all that have arrived; from then on engine work of the context on the range waits;
INVALIDATION_COMPLETE of the oldest request waits while a sector is in flight to a place of its old translations, and,
once every context has acknowledged it, leaves no page of its range known anywhere and, for the launch's PASID, no
cached instruction and no staging line of it, and removes it. INVALIDATION_WATCHDOG asks every live context that has
not acknowledged to halt, and no other. What the device has learned of the host's tables, and that a reply for a page
whose invalidation is outstanding waits, is the model's reading (log entry 12). -/
def Obligations.IsolationSteps : Prop :=
  (∀ (s : State) (g : Page),
    let c := s.act.clu
    let a := s.act.num
    let pasid := if s.act.flag then s.host.lpasid else s.launch.pasid
    (s.act.page = some g → pageForm g = true → g.va ≤ a → a < g.va + 2 ^ g.lg → s.keepsOld pasid g.va (2 ^ g.lg) = false →
      ∃ u, exec .atsTranslationReply s = .next u ∧ u.mem = s.mem ∧ (∀ d, u.ctx d = s.ctx d) ∧
        findPage u c pasid a = some g ∧ pageFind pasid a u.pages = some g ∧
        (pageError s g = true → u.host.xlatErr = s.host.xlatErr + 1)) ∧
    (s.act.page = none → a < 2 ^ 64 → s.keepsOld pasid (a / 4096 * 4096) 4096 = false →
      ∃ u, exec .atsTranslationReply s = .next u ∧ u.mem = s.mem ∧ (∀ d, u.ctx d = s.ctx d) ∧
        (∀ (d : Fin 16) (wr : Bool), translate u d pasid a wr = .absent)) ∧
    (∀ (q : Inval) (p : BitVec 20 × Page), s.act.page = some g → q ∈ s.invals → q.pasid = pasid → p ∈ s.pages → p.1 = pasid →
      (p.2.rd = true ∨ p.2.wr = true) → meets q.lo (q.hi - q.lo) g.va (2 ^ g.lg) = true →
      meets p.2.va (2 ^ p.2.lg) g.va (2 ^ g.lg) = true → exec .atsTranslationReply s = .next s)) ∧
  (∀ (s : State) (r : PriReq),
    s.pri.find? (fun x => x.uid == s.act.num) = some r → r.code = none →
    (s.act.page = none → s.act.code ≠ .success → ∃ u, exec .priResponse s = .next u ∧
      u.priCode s.act.num = some s.act.code ∧ u.pages = s.pages ∧ u.mem = s.mem) ∧
    (s.act.page = none → s.act.code = .success → s.keepsOld r.pasid (r.page / 4096 * 4096) 4096 = false →
      ∃ u, exec .priResponse s = .next u ∧ u.priCode s.act.num = some .success ∧ u.mem = s.mem ∧
        (∀ c : Fin 16, findPage u c r.pasid r.page = none)) ∧
    (∀ g, s.act.page = some g → s.act.code = .success → pageForm g = true → g.va ≤ r.page → r.page < g.va + 2 ^ g.lg →
      s.keepsOld r.pasid g.va (2 ^ g.lg) = false →
      ∃ u, exec .priResponse s = .next u ∧ u.priCode s.act.num = some .success ∧ u.mem = s.mem ∧
        (∀ c : Fin 16, findPage u c r.pasid r.page = some g))) ∧
  (∀ (s : State), s.invals.length < 32 → ∃ u, exec .invalidationRequest s = .next u ∧
    u.invals = s.invals ++ [{ num := s.invNext, pasid := s.act.word.extractLsb' 0 20, lo := s.act.num, hi := s.act.hi,
                              fired := false }] ∧
    u.invNext = s.invNext + 1 ∧ u.mem = s.mem ∧ (∀ d, u.ctx d = s.ctx d)) ∧
  (∀ (s : State),
    let c := s.ctx s.act.cid
    c.quiet = true → c.ld = 0 → c.stc = 0 → c.tl = 0 → c.post = [] →
    (∀ m ∈ s.cmds, m.cid = s.act.cid → (m.bus = 10 → m.t = 6 → m.st = .accepted) ∧
      (¬(m.bus = 10 ∧ m.t = 6) → m.st ≠ .accepted ∧ s.flightsOf (.cmd m.uid) = [])) → ∃ u, exec .invalidationAck s = .next u ∧
    u.ctx s.act.cid = { s.ctx s.act.cid with ack := s.invNext } ∧ u.mem = s.mem ∧ u.invals = s.invals) ∧
  (∀ (s : State) (cid : Cid) (p : BitVec 20) (a : Word) (len va : Nat) (q : Inval), q ∈ s.invals → isCsc cid = false →
    q.pasid = (s.ctx cid).pasid → (s.ctx cid).acked q.num = true → classify a = .glob va → va < q.hi → q.lo < va + len →
    engineFree s cid p a len = false) ∧
  (∀ (s : State) (q : Inval) (l : List Inval) (p : BitVec 20 × Page) (f : Flight) (w : Nat × Byte) (k : Nat),
    s.invals = q :: l → p ∈ s.pages → p.1 = q.pasid → meets p.2.va (2 ^ p.2.lg) q.lo (q.hi - q.lo) = true →
    physKey s p.2.pa = .ok k → f ∈ s.flight → (∀ n, f.of ≠ .win n) → w ∈ f.wr → k ≤ w.1 → w.1 < k + 2 ^ p.2.lg →
    exec .invalidationComplete s = .next s) ∧
  (∀ (s : State) (q : Inval) (l : List Inval), s.invals = q :: l → allAcked s q.num = true → invalFree s q = true →
    ∃ u, exec .invalidationComplete s = .next u ∧ q ∉ u.invals ∧ (∀ x ∈ l, x.num ≠ q.num → x ∈ u.invals) ∧
      (∀ c : Fin 16, ∀ a, q.lo ≤ a → a < q.hi → findPage u c q.pasid a = none) ∧
      (q.pasid = s.launch.pasid →
        (∀ n : Fin 4112, ∀ l ∈ (u.core n).icache, meets (l.1 / 128 * 128) 128 q.lo (q.hi - q.lo) = false) ∧
        (∀ c : Fin 16, ∀ l ∈ (u.clu c).stg, meets l.block.toNat 128 q.lo (q.hi - q.lo) = false)) ∧
      (∀ d, (u.ctx d).s = (s.ctx d).s ∧ (u.ctx d).st = (s.ctx d).st)) ∧
  (∀ (s : State) (q : Inval), s.invals.find? (fun x => x.num == s.act.num && !x.fired) = some q →
    ∃ u, exec .invalidationWatchdog s = .next u ∧ u.mem = s.mem ∧
      ∀ (p : Nat × Core), p ∈ s.cores → p.1 < 4096 → (∀ p' ∈ s.cores, p'.1 = p.1 → p' = p) → ∀ i : Fin 4,
        let c := p.2.ctx.get i
        u.ctx ⟨Fin.ofNat 4112 p.1, i⟩ =
          (if c.st = .live ∧ c.acked q.num = false then { c with preempt := true } else c))

/-- Traps, pre-emption, saving, resuming and detected faults (R342, R347, R348, R349, R350, R351, R352, R356, R358, R359, R360, R363).
Of the traps due at a boundary RAS_CTX is first, then FATAL_UNPROBED, then ADDRCLASS. TRAP_TAKE takes the first: the
context is then halting with that cause and argument, and keeps its registers; that the other boundary traps stay due
then is the model's choice (log entry 40); a pre-emption request alone halts it with cause 0. PREEMPT_REQUEST asks a
live context to halt. CONTEXT_SAVE of a pre-empted context records a RAS_CTX or FATAL_UNPROBED that has fallen due as
the cause (also one that falls due after step 2: the model's reading, log entry 40); of a halting context that has
drained it leaves pc, cause, argument, s registers and lane masks in its save area, with the reserved words zero, and
holds there an ADDRCLASS of R266 that has fallen due; the trap then reaches firmware: after pre-emption, ASSIST or
TRAP_SW the context stays halted and the launch goes on; OWNER_DBG and PEND_DBG with a debugger attached hold it; any
other trap ends the launch with its cause, argument, core and context, and stops that core's contexts; every trap but
ASSIST is logged where the host has a ring. HALTED_COMMAND_COMPLETE lands the token in the area, clears its pending
bit, counts the command off, and holds the ADDRCLASS of R266 there. ASSIST_SERVICE writes the results of the assist
records into the area as pending results, and the records are gone. CONTEXT_RESUME makes the context live with the pc,
s registers and lane masks that the area holds, and a held ADDRCLASS due. FAULT_DETECT of rows 1 to 5 makes RAS_CTX
due with the row's number in the context, or ends the launch with it where the context is halted, or, in state that a
core shares, resets the core: its contexts that run are halting with RAS_CTX and its groups are broken; which context
the launch's report names then is the model's choice (log entry 56); row 6 drops the command, or breaks every group,
or, with no command, ends the launch with the fault alone; row 8 takes its port down, and raises vector 2 where it was
up, and what is on its way to a peer that no port reaches any more is lost, an accepted ATOM with ERROR LINK; rows 9
and 10 reset the device, and raise vector 4 where a mailbox command was under way. What is the model's choice or
reading: that a resume counts as an acknowledgement (log entry 54), that memory reads 0 and that fuses and flash keep
their contents after a reset (log entries 4 and 55), and that rows 7 and 11 and PATROL_SCRUB show nothing here (log
entry 56). -/
def Obligations.RecoverySteps : Prop :=
  (∀ (due : List (Nat × Word)),
    ((∃ a, (10, a) ∈ due) → (firstDue due).map (·.1) = some 10) ∧
    ((∀ a, (10, a) ∉ due) → (∃ a, (6, a) ∈ due) → (firstDue due).map (·.1) = some 6) ∧
    ((∀ a, (10, a) ∉ due) → (∀ a, (6, a) ∉ due) → (∃ a, (3, a) ∈ due) → (firstDue due).map (·.1) = some 3)) ∧
  (∀ (s : State),
    let cid := s.act.cid
    let c := s.ctx cid
    let b := ((Eff.start s).settle cid).st.ctx cid
    let halts (cause : Nat) (arg : Word) (due : List (Nat × Word)) : Prop := ∃ u, exec .trapTake s = .next u ∧
      (u.ctx cid).st = .halting ∧ (u.ctx cid).trap = some ⟨cause, arg, none⟩ ∧ (u.ctx cid).due = due ∧
      (u.ctx cid).preempt = false ∧ (u.ctx cid).pc = b.pc ∧ (u.ctx cid).xfer = b.xfer ∧ (u.ctx cid).s = b.s ∧
      u.launch = s.launch ∧ u.cmds = s.cmds ∧ (∀ d, d ≠ cid → u.ctx d = s.ctx d)
    ((c.st = .live ∧ c.ended = false) ∨ ((c.st = .live ∨ c.st = .joining) ∧ firstDue c.due ≠ none) →
      ∀ cause arg, firstDue b.due = some (cause, arg) → halts cause arg (b.due.erase (cause, arg))) ∧
    (c.st = .live → c.ended = false → b.due = [] → b.preempt = true → halts 0 0 []) ∧
    (c.st = .live → c.ended = false → ∃ u, exec .preemptRequest s = .next u ∧
      u.ctx cid = { s.ctx cid with preempt := true } ∧ u.mem = s.mem)) ∧
  (∀ (s : State),
    let cid := s.act.cid
    let c := s.ctx cid
    let k := c.savea.toNat
    let cause : Nat := (c.trap.map (fun t => t.cause)).getD 0
    let arg := (c.trap.map (fun t => t.arg)).getD 0
    let debug : Prop := (cause = 7 ∨ cause = 8) ∧ s.host.dbg = true
    let ends : Prop := cause ≠ 0 ∧ cause ≠ 4 ∧ cause ≠ 11 ∧ ¬ debug
    s.Inv → c.st = .halting → (∀ m ∈ s.cmds, m.cid = cid → toCut s m = false) →
    (∀ d, cause = 0 → firstDue (c.due.filter (fun d => d.1 != 3)) = some d → ∃ u, exec .contextSave s = .next u ∧
      u.ctx cid = { c with due := c.due.erase d, trap := some ⟨d.1, d.2, none⟩ } ∧ u.mem = s.mem) ∧
    ((cause = 0 → ∀ a, (10, a) ∉ c.due ∧ (6, a) ∉ c.due) → drained s cid = true → c.stores = [] → c.pend = [] → c.loop = [] → c.xfer = none →
    let held := c.due.find? (fun d => d.1 == 3)
    ∃ u, exec .contextSave s = .next u ∧
      (¬ ends → (u.ctx cid).st = .halted ∧ u.launch = s.launch ∧ (u.ctx cid).trap = c.trap) ∧
      ((u.ctx cid).dbgHold = true ↔ c.dbgHold = true ∨ debug) ∧
      (ends → s.launch.st = .running → s.launch.clearing = false → s.launch.fault = none →
        u.launch.st = .running ∧ u.launch.clearing = true ∧ u.launch.fin = (if cause = 10 then .fault else .trap) ∧
        u.launch.cause = cause ∧ u.launch.devcore = cid.core.val ∧ u.launch.ccode = arg ∧
        (cid.core.val < 4096 → ∀ i : Fin 4, (u.ctx ⟨cid.core, i⟩).st = .out)) ∧
      (s.host.tlogb.toNat / 4096 ≠ 0 → cause ≠ 0 → cause ≠ 4 → c.due = [] → s.launch.fault = none →
        u.host.tlogw = s.host.tlogw + 1 ∧ u.host.msix.get 1 = s.host.msix.get 1 + 1) ∧
      (cause = 0 ∨ cause = 4 ∨ s.host.tlogb.toNat / 4096 = 0 →
        u.host.tlogw = s.host.tlogw ∧ u.mem.word k = c.pc ∧
        (u.mem.word (k + 8)).toNat = (cause + 2 ^ 16 * (c.trap.bind (fun t => t.sw)).isSome.toNat) % 2 ^ 64 ∧
        u.mem.word (k + 16) = arg ∧ u.mem.word (k + 0x28) = c.pendS ∧
        u.mem.word (k + 0x38) = BitVec.ofNat 64 ((s.cmdsOf cid .started).length + 2 ^ 8 * held.isSome.toNat) ∧
        u.mem.word (k + 0x40) = (held.map (·.2)).getD 0 ∧
        (∀ i : Fin 64, u.mem.word (k + 0x80 + 8 * i.val) = c.readS i) ∧
        (∀ i : Fin 8, u.mem.word (k + 0x280 + 8 * i.val) = c.m.get i) ∧
        (∀ a, k + 0x48 ≤ a → a < k + 0x80 → u.mem.get a = 0) ∧ (∀ a, k + 0x350 ≤ a → a < k + 0x380 → u.mem.get a = 0) ∧
        (∀ a, a < k → u.mem.get a = s.mem.get a)))) ∧
  (∀ (s : State) (m : Cmd) (r : Fin 64),
    let k := (s.ctx m.cid).savea.toNat
    s.Inv → s.cmd s.act.num = some m → mayLand s m = true → ((s.ctx m.cid).st = .halted ∨ (s.ctx m.cid).st = .resuming) →
    s.flightsOf (.cmd m.uid) = [] → m.tok = some r → r ≠ 0 → m.dst2 = none →
    let w := s.mem.word (k + 0x38)
    ∃ u, exec .haltedCommandComplete s = .next u ∧ u.cmd m.uid = none ∧ u.mem.word (k + 0x80 + 8 * r.val) = m.status ∧
      (u.mem.word (k + 0x28)).getLsbD r.val = false ∧
      (u.mem.word (k + 0x38)).toNat < 512 ∧ (u.mem.word (k + 0x38)).extractLsb' 0 8 = w.extractLsb' 0 8 - 1 ∧
      (u.mem.word (k + 0x38)).getLsbD 8 = (w.getLsbD 8 || m.trapAt.isSome) ∧
      (∀ el, m.trapAt = some el → w.getLsbD 8 = false → u.mem.word (k + 0x40) = BitVec.ofNat 64 el) ∧
      (m.miss ≠ [] → u.mem.word (k + 0x2C8) = (s.mem.word (k + 0x2C8) &&& 0x1FF) ||| flIXM.setWidth 64) ∧
      (u.ctx m.cid).cp = (s.ctx m.cid).cp - 1) ∧
  (∀ (s : State),
    let cid := s.act.cid
    let c := s.ctx cid
    let k := c.savea.toNat
    let n := ((s.mem.word (k + 0x30)).extractLsb' 8 5).toNat
    (s.Inv → (c.st = .halted ∨ c.st = .resuming) → c.assist ≠ [] → ∃ u, exec .assistService s = .next u ∧
      u.ctx cid = { c with assist := [] } ∧
      (∀ a, c.trap.bind (fun t => t.sw) = some a → s.host.tlogb.toNat / 4096 ≠ 0 → u.host.tlogw = s.host.tlogw + 1) ∧
      (c.trap.bind (fun t => t.sw) = none → (∀ a, a < k → u.mem.get a = s.mem.get a) ∧
        ((u.mem.word (k + 0x30)).extractLsb' 8 5).toNat = (n + (assistResults s cid).length) % 32 ∧
        u.mem.word (k + 0x2C8) = (s.mem.word (k + 0x2C8) &&& 0x1FF) |||
          ((assistResults s cid).foldl (fun (a : BitVec 9) p => a ||| p.fl) 0).setWidth 64)) ∧
    ((c.st = .halted ∨ c.st = .resuming) → s.runs = true → c.dbgHold = false → c.assist = [] →
      resumeFits s cid (workAt s cid k) = true →
      ∃ u, exec .contextResume s = .next u ∧ u.mem = s.mem ∧ (u.ctx cid).st = .live ∧ (u.ctx cid).trap = none ∧
        (u.ctx cid).pc = s.mem.word k ∧ (∀ i : Fin 64, i ≠ 0 → (u.ctx cid).readS i = s.mem.word (k + 0x80 + 8 * i.val)) ∧
        (∀ i : Fin 8, (u.ctx cid).m.get i = s.mem.word (k + 0x280 + 8 * i.val)) ∧
        ((s.mem.word (k + 0x38)).getLsbD 8 = true → (3, s.mem.word (k + 0x40)) ∈ (u.ctx cid).due) ∧
        ((s.mem.word (k + 0x38)).getLsbD 8 = false → ∀ a, (3, a) ∉ (u.ctx cid).due) ∧
        (u.ctx cid).fpc = (s.mem.word (k + 0x300) &&& 0xF) ∧ (u.ctx cid).ack = s.invNext)) ∧
  (∀ (s : State),
    let cid := s.act.cid
    let n := s.act.cls.val
    let code := BitVec.ofNat 64 (n + 1)
    let runs (c : Ctx) : Prop := c.st = .live ∨ c.st = .joining ∨ c.st = .halting
    let breaks (u : State) (p : Group → Bool) : Prop :=
      u.groups = s.groups.map (fun x => (x.1, if p x.2 then { x.2 with broken := true } else x.2))
    let resets : Prop := ∃ u, exec .faultDetect s = .next u ∧ u.mem = s.mem ∧
      breaks u (fun g => g.members.getLsbD cid.core.val) ∧
      (∀ i : Fin 4, runs (s.ctx ⟨cid.core, i⟩) → (u.ctx ⟨cid.core, i⟩).st = .halting ∧
        (u.ctx ⟨cid.core, i⟩).trap = some ⟨10, code, none⟩) ∧
      (∀ i : Fin 4, ¬ runs (s.ctx ⟨cid.core, i⟩) → u.ctx ⟨cid.core, i⟩ = s.ctx ⟨cid.core, i⟩) ∧
      (∀ d : Cid, d.core ≠ cid.core → u.ctx d = s.ctx d) ∧
      (s.launch.st = .running → s.launch.clearing = false → s.launch.fault = none → ∀ i : Fin 4,
        runs (s.ctx ⟨cid.core, i⟩) → (∀ j, j < i → ¬ runs (s.ctx ⟨cid.core, j⟩)) →
        u.launch.fault = some (⟨cid.core, i⟩, code))
    (n < 5 → s.act.flag = false →
      (runs (s.ctx cid) → ∃ u, exec .faultDetect s = .next u ∧ u.mem = s.mem ∧
        u.ctx cid = { s.ctx cid with due := (s.ctx cid).due ++ [(10, code)] }) ∧
      (((s.ctx cid).st = .halted ∨ (s.ctx cid).st = .resuming) → s.launch.st = .running → s.launch.clearing = false →
        s.launch.fault = none → ∃ u, exec .faultDetect s = .next u ∧ (s.host.tlogb.toNat / 4096 = 0 → u.mem = s.mem) ∧
          u.launch.clearing = true ∧ u.launch.fin = .fault ∧ u.launch.cause = 10 ∧ u.launch.devcore = cid.core.val ∧
          u.launch.ccode = code) ∧
      (((s.ctx cid).st = .out ∨ (s.ctx cid).st = .idle) → s.launch.st = .running → s.launch.clearing = false → s.launch.fault = none →
        ∃ u, exec .faultDetect s = .next u ∧ u.mem = s.mem ∧ u.launch.fault = some (⟨0, 0⟩, code))) ∧
    (n < 5 → s.act.flag = true → resets) ∧
    (n = 5 → s.act.flag = false → s.act.hi ≠ 0 → resets) ∧
    (n = 5 → s.act.flag = true → ∃ u, exec .faultDetect s = .next u ∧ u.mem = s.mem ∧ breaks u (fun _ => true) ∧
      (∀ d, u.ctx d = s.ctx d)) ∧
    (∀ m, n = 5 → s.act.flag = false → s.act.hi = 0 → s.cmd s.act.num = some m → runs (s.ctx m.cid) →
      ∃ u, exec .faultDetect s = .next u ∧ u.mem = s.mem ∧ u.cmd m.uid = none ∧
        u.ctx m.cid = { s.ctx m.cid with due := (s.ctx m.cid).due ++ [(10, code)] }) ∧
    (n = 5 → s.act.flag = false → s.act.hi = 0 → s.cmd s.act.num = none → s.launch.st = .running → s.launch.clearing = false →
      s.launch.fault = none → ∃ u, exec .faultDetect s = .next u ∧ u.mem = s.mem ∧ u.launch.fault = some (⟨0, 0⟩, code) ∧
        (∀ d, u.ctx d = s.ctx d)) ∧
    (n = 7 → (s.ports.get s.act.port).up = true → (∀ p, p ≠ s.act.port → (s.ports.get p).up = true →
        (s.ports.get p).peer ≠ (s.ports.get s.act.port).peer) →
      let dev := (s.ports.get s.act.port).peer.toNat
      ∃ u, exec .faultDetect s = .next u ∧ u.mem = s.mem ∧
        (∀ f ∈ u.flight, ∀ w ∈ f.wr, w.1 < peerKey dev 0 ∨ peerKey (dev + 1) 0 ≤ w.1) ∧
        (∀ m, s.cmd m.uid = some m → (∀ c ∈ s.cmds, c.uid = m.uid → c = m) → m.bus = 10 → m.t = 5 → m.st = .accepted →
          peerKey dev 0 ≤ m.key → m.key < peerKey (dev + 1) 0 → ∃ q, u.cmd m.uid = some q ∧ q.st = .fin ∧
            q.status = statusWord 3 9 0 m.id.toNat)) ∧
    (n = 7 → (s.ports.get s.act.port).up = true → ∃ u, exec .faultDetect s = .next u ∧ u.mem = s.mem ∧
      (u.ports.get s.act.port).up = false ∧ (∀ p, p ≠ s.act.port → u.ports.get p = s.ports.get p) ∧
      u.host.msix.get 2 = s.host.msix.get 2 + 1) ∧
    (n = 7 → (s.ports.get s.act.port).up = false → exec .faultDetect s = .next s) ∧
    ((n = 8 ∨ n = 9) → ∃ u, exec .faultDetect s = .next u ∧ u.cores = [] ∧ u.launch = State.reset.launch ∧ u.own = [] ∧
      u.cmds = [] ∧ u.boot.locked = false ∧ u.boot.secret = s.boot.secret ∧ u.boot.minSvn = s.boot.minSvn ∧
      (∀ p, (u.ports.get p).up = false) ∧ u.host.msix.get 3 = s.host.msix.get 3 + 1 ∧
      u.host.msix.get 2 = s.host.msix.get 2 + (if ∃ p, (s.ports.get p).up = true then 1 else 0) ∧
      u.host.busy = false ∧ u.host.msix.get 4 = s.host.msix.get 4 + (if s.host.busy then 1 else 0) ∧
      (∀ a, a < peerKey 0 0 → u.mem.get a = 0) ∧ (∀ a, peerKey 0 0 ≤ a → u.mem.get a = s.mem.get a)) ∧
    ((n = 6 ∨ n = 10) → exec .faultDetect s = .next s) ∧ exec .patrolScrub s = .next s)

/-- The host, the mailbox, the ports, boot and power act (R342, R343, R344, R345, R365, R366, R369, R370, R371, R373, R374, R376).
HOST_BAR_ACCESS writes the host's bytes at their homes below 766 GiB, and nothing at or above; a read changes nothing.
TLOGB_WRITE sets the ring and restarts TLOGW; REGISTER_WRITE sets LPASID or MBREQ, or rings the doorbell, which takes
the eight words of the request as they stand then, gives result 2 where they cannot be read and result 1 for a command
that the table does not list, and nothing while BUSY is 1. A mailbox command that runs in a STATE that does not allow
it gives result 3, one with a bad operand result 2; that result 3 goes before result 2, and that a request which
cannot be read gives 2 at once, are the model's choice (log entry 57); LOCALINIT, ATTEST, CERTS, FWLOAD, SVNSET and
DEVNUM with legal operands do their work and give result 0, MIGRATE begins its move. SECURE_BOOT runs once after a
reset, and leaves the version of the image that it accepts, or recovery mode. PORT_TRAIN brings a port up whose other
end is authentic, with this end first where its identity digest is the lower; PORT_REKEY gives it a new epoch, or
takes it down where the other end is not authentic; PORT_DOWN takes it down; vector 2 is raised as a port comes up or
goes down. LINK_FRAME_RECEIVE performs the write or the atomic of the frame that is due, once, at its home, where an
atomic to the new home of a migrating page waits for the end marker of its line; a bad CRC is retried eight times, a
bad tag takes the port down. POWER_CAP_TICK steps the clock down above 1800 W and up below 1700 W. POWER_LOSS loses
all but fuses and flash. What is the model's choice or reading: what recovery mode serves and that a CERTS buffer too
small gives 2 (log entry 57), the epoch of each port, the frames it has sent and what the other end sends as inputs
(log entry 58), and that memory reads 0 after a power loss (log entries 4 and 55). -/
def Obligations.OutsideSteps : Prop :=
  (∀ (s : State),
    (∀ p n, s.act.acc = some (.rd p n) → exec .hostBarAccess s = .next s) ∧
    (∀ p d, s.act.acc = some (.wr p d) →
      (766 * 2 ^ 30 < p + d.length → exec .hostBarAccess s = .next s) ∧
      (p + d.length ≤ 766 * 2 ^ 30 → homeFree s p d.length = true → ∃ u, exec .hostBarAccess s = .next u ∧
        u.mem = s.mem.applyAll (d.zipIdx.map (fun x => Wr.byte (forwarded s (p + x.2)) x.1)) ∧ (∀ c, u.ctx c = s.ctx c)))) ∧
  (∀ (s : State),
    (∃ u, exec .tlogbWrite s = .next u ∧ hostReg u 0x040 = s.act.word &&& ~~~0xFF0 ∧ hostReg u 0x048 = 0 ∧ u.mem = s.mem) ∧
    (s.act.num = 0x008 → ∃ u, exec .registerWrite s = .next u ∧ hostReg u 0x008 = (s.act.word &&& 0xFFFFF) ∧ u.mem = s.mem) ∧
    (s.act.num = 0x080 → ∃ u, exec .registerWrite s = .next u ∧ hostReg u 0x080 = s.act.word ∧ u.mem = s.mem) ∧
    (s.act.num = 0x088 →
      let req := mailAt s
      let command := ((req.getD 0 0).extractLsb' 0 8).toNat
      let over' (u : State) (result : BitVec 8) : Prop := exec .registerWrite s = .next u ∧ u.mem = s.mem ∧
        u.host.busy = false ∧ u.host.result = result ∧ u.host.msix.get 4 = s.host.msix.get 4 + 1
      (s.host.busy = true → exec .registerWrite s = .next s) ∧
      (s.host.busy = false → mailReadable s = false → ∃ u, over' u 2) ∧
      (s.host.busy = false → mailReadable s = true →
        ((command = 0 ∨ 7 < command) → ∃ u, over' u 1) ∧
        (1 ≤ command → command ≤ 7 → ∃ u, exec .registerWrite s = .next u ∧ (hostReg u 0x090).getLsbD 63 = true ∧
          u.host.req = req ∧ u.mem = s.mem)))) ∧
  (∀ (s : State),
    let calls (n : Nat) : Prop := s.host.busy = true ∧ ((s.host.req.getD 0 0).extractLsb' 0 8).toNat = n ∧
      (∀ g ∈ s.migrs, g.told.isSome = true)
    let ends (i : Instr) (result : Nat) (p : State → Prop) : Prop := ∃ u, exec i s = .next u ∧ u.host.busy = false ∧
      u.host.result = BitVec.ofNat 8 result ∧ u.host.msix.get 4 = s.host.msix.get 4 + 1 ∧ p u
    let fails (i : Instr) (result : Nat) : Prop := ends i result (fun u => u.mem = s.mem ∧ u.boot = s.boot ∧ u.ports = s.ports)
    let idle : Prop := s.launch.st ≠ .running ∧ s.boot.recovery = false
    let w (i : Nat) : Word := s.host.req.getD i 0
    let a1 := (w 1).toNat
    let a2 := (w 2).toNat
    let lp := s.host.lpasid
    (calls 1 → ¬ idle → fails .localinit 3) ∧
    (calls 1 → idle → (1 < (w 4).toNat ∨ (w 4 = 0 ∧ 0x27F00 < (w 3).toNat + a2) ∨ (w 4 = 1 ∧ 0x4000000 < (w 3).toNat + a2) ∨
      (a2 ≠ 0 ∧ present s lp (w 1) a2 false = some false) ∨ (w 4 = 0 ∧ present s lp (w 5) 0x8080 false = some false)) →
      fails .localinit 2) ∧
    (calls 1 → idle → (a2 = 0 ∨ present s lp (w 1) a2 false = some true) →
      (w 4 = 1 → (w 3).toNat + a2 ≤ 0x4000000 → ends .localinit 0 (fun u =>
        u.mem = s.mem.applyAll (wrBytes (chipKey (w 3).toNat) (readBytes s 0 lp (w 1) a2)))) ∧
      (w 4 = 0 → (w 3).toNat + a2 ≤ 0x27F00 → present s lp (w 5) 0x8080 false = some true → ends .localinit 0 (fun u =>
        u.mem = s.mem.applyAll ((launchCores s lp (w 5)).flatMap (fun n =>
          wrBytes (coreKey n (w 3).toNat) (readBytes s 0 lp (w 1) a2)))))) ∧
    (∀ nonce, calls 2 → busRead s a1 32 = some nonce → busOk s a2 2612 = true →
      ends .attest 0 (fun u => u.mem = s.mem.applyAll (busWrites s a2 (report s nonce)))) ∧
    (calls 2 → (busRead s a1 32 = none ∨ busOk s a2 2612 = false) → fails .attest 2) ∧
    (calls 3 → if (certBytes s).length ≤ a2 ∧ busOk s a1 (certBytes s).length = true then
        ends .certs 0 (fun u => u.mem = s.mem.applyAll (busWrites s a1 (certBytes s)))
      else fails .certs 2) ∧
    (calls 4 → s.launch.st = .running → fails .fwload 3) ∧
    (calls 4 → s.launch.st ≠ .running → (1 < (w 3).toNat ∨ busRead s a1 a2 = none) → fails .fwload 2) ∧
    (∀ bs, calls 4 → s.launch.st ≠ .running → busRead s a1 a2 = some bs →
      (w 3 = 0 → ends .fwload 0 (fun u => u.boot.slotA = bs ∧ u.boot.slotB = s.boot.slotB)) ∧
      (w 3 = 1 → ends .fwload 0 (fun u => u.boot.slotB = bs ∧ u.boot.slotA = s.boot.slotA))) ∧
    (calls 5 → ¬ idle → fails .svnset 3) ∧
    (calls 5 → idle → ends .svnset 0 (fun u => u.boot.minSvn.toNat = max s.boot.minSvn.toNat s.boot.svn.toNat)) ∧
    (calls 6 → s.launch.st ≠ .running → fails .migrate 3) ∧
    (calls 6 → s.launch.st = .running → (pageOk a1 = false ∨ pageOk a2 = false ∨ a1 = a2) → fails .migrate 2) ∧
    (calls 6 → s.launch.st = .running → pageOk a1 = true → pageOk a2 = true → a1 ≠ a2 →
      (∀ g ∈ s.migrs, g.old ≠ a1 ∧ g.new ≠ a1 ∧ g.old ≠ a2 ∧ g.new ≠ a2) →
      ∃ u g, exec .migrate s = .next u ∧ u.mem = s.mem ∧ u.host.busy = true ∧ u.migrs = s.migrs ++ [g] ∧ g.old = a1 ∧ g.new = a2 ∧
        g.pasid = (w 3).extractLsb' 0 20 ∧ g.moved = [] ∧ g.told = none) ∧
    (calls 7 → ¬ idle → fails .devnum 3) ∧
    (calls 7 → idle → 255 < a1 → fails .devnum 2) ∧
    (calls 7 → idle → a1 ≤ 255 → ends .devnum 0 (fun u => u.devnum.toNat = a1 ∧ (∀ p : Fin 48, (u.ports.get p).up = false) ∧
      u.host.msix.get 2 = s.host.msix.get 2 + (if ∃ p, (s.ports.get p).up = true then 1 else 0)))) ∧
  (∀ (s : State), s.boot.locked = false →
    let a := imageOk s.boot s.boot.slotA
    let b := imageOk s.boot s.boot.slotB
    ∃ u, exec .secureBoot s = .next u ∧ u.boot.locked = true ∧ u.mem = s.mem ∧ u.boot.recovery = (!a && !b) ∧
      u.boot.svn = (if a then Config.imgSvn s.boot.slotA else if b then Config.imgSvn s.boot.slotB else 0)) ∧
  (∀ (s : State),
    let p := s.act.port
    let x := s.ports.get p
    let h := helloOf s.act.bytes
    let auth := h.ok p.val s.boot.draws
    let z := leBytes 64 (Config.kemSecret p.val s.boot.draws).toNat
    let others (u : State) : Prop := ∀ q, q ≠ p → u.ports.get q = s.ports.get q
    let keyed (y : Port) : Prop := y.epoch = x.epoch + 1 ∧ y.txCtr = 0 ∧
      (y.first = true → y.txKey = Config.sha3 (z ++ [0x00]) ∧ y.rxKey = Config.sha3 (z ++ [0x01])) ∧
      (y.first = false → y.txKey = Config.sha3 (z ++ [0x01]) ∧ y.rxKey = Config.sha3 (z ++ [0x00]))
    let falls (i : Instr) : Prop := ∃ u, exec i s = .next u ∧ others u ∧ (u.ports.get p).up = false ∧ u.mem = s.mem ∧
      u.host.msix.get 2 = s.host.msix.get 2 + 1
    (x.up = false → auth = true → ∃ u, exec .portTrain s = .next u ∧ others u ∧
      (let y := u.ports.get p
       y.up = true ∧ y.peer = BitVec.ofNat 8 s.act.hi ∧ keyed y ∧ y.rxSeq = s.nextSeq (BitVec.ofNat 8 s.act.hi) ∧
       (y.first = true ↔ (Config.sha3 s.boot.idPub).toNat < (Config.sha3 h.idPub).toNat)) ∧
      u.host.msix.get 2 = s.host.msix.get 2 + 1) ∧
    (x.up = false → auth = false → ∃ u, exec .portTrain s = .next u ∧ u.ports = s.ports ∧ u.host = s.host) ∧
    (x.up = true → auth = true → ∃ u, exec .portRekey s = .next u ∧ others u ∧ u.host = s.host ∧
      (let y := u.ports.get p
       y.up = true ∧ keyed y ∧ y.first = x.first ∧ y.rxSeq = x.rxSeq)) ∧
    (x.up = true → auth = false → falls .portRekey) ∧
    (x.up = true → falls .portDown) ∧
    (∀ f, s.act.frame = some f → x.up = true → x.txCtr + s.act.hi < 2 ^ 48 →
      let n := (match f.req with | .write => f.data.length | .read n => n | .atomic _ => 32)
      1 ≤ n → (f.addr % 32 + n + 31) / 32 ≤ 8 →
      (∀ ctl, f.req = .atomic ctl → f.addr % 32 = 0 ∧ f.data.length = atLen ctl ∧ atOp ctl < 8) →
      (f.crcOk = false → 8 ≤ x.retry → falls .linkFrameReceive) ∧
      (f.crcOk = false → x.retry < 8 → ∃ u, exec .linkFrameReceive s = .next u ∧ u.mem = s.mem ∧ others u ∧
        (u.ports.get p).retry = x.retry + 1 ∧ (u.ports.get p).up = true ∧ (u.ports.get p).txCtr = x.txCtr + s.act.hi) ∧
      (f.crcOk = true → x.tagOk f = false → falls .linkFrameReceive) ∧
      (f.crcOk = true → x.tagOk f = true → f.seq < x.rxSeq →
        ∃ u, exec .linkFrameReceive s = .next u ∧ u.mem = s.mem ∧ (u.ports.get p).rxSeq = x.rxSeq) ∧
      (∀ ctl, f.crcOk = true → x.tagOk f = true → f.seq = x.rxSeq → f.req = .atomic ctl → s.awaitsMarker f.addr = true →
        exec .linkFrameReceive s = .next s) ∧
      (f.crcOk = true → x.tagOk f = true → f.seq = x.rxSeq → (∀ ctl, f.req = .atomic ctl → s.awaitsMarker f.addr = false) →
        homeFree s f.addr n = true → f.addr + n ≤ 766 * 2 ^ 30 →
        ∃ u, exec .linkFrameReceive s = .next u ∧ (u.ports.get p).txCtr = x.txCtr + s.act.hi ∧
          (∀ q, (s.ports.get q).peer = x.peer → (u.ports.get q).rxSeq = x.rxSeq + 1) ∧
          (∀ q, (s.ports.get q).peer ≠ x.peer → (u.ports.get q) = s.ports.get q) ∧
          u.mem = s.mem.applyAll (match f.req with
            | .write => f.data.zipIdx.map (fun y => Wr.byte (forwarded s (f.addr + y.2)) y.1)
            | .read _ => []
            | .atomic ctl => wrBytes (forwarded s f.addr) (atomSector ctl (s.mem.bytes (forwarded s f.addr) 32) f.data).1)))) ∧
  (∀ (s : State),
    (∃ u, exec .powerCapTick s = .next u ∧ hostReg u 0x0C8 = BitVec.ofNat 64 s.act.num ∧ u.mem = s.mem ∧
      (1800000 < s.act.num → 100 < s.power.mhz → u.power.mhz = s.power.mhz - 100) ∧
      (s.act.num < 1700000 → s.power.mhz ≤ 2600 → u.power.mhz = s.power.mhz + 100) ∧
      (1700000 ≤ s.act.num → s.act.num ≤ 1800000 → u.power.mhz = s.power.mhz)) ∧
    (∃ u, exec .powerLoss s = .next u ∧ u.cores = [] ∧ u.launch = State.reset.launch ∧ u.boot.powered = false ∧
      u.boot.memKeys = 0 ∧ u.boot.secret = s.boot.secret ∧ u.boot.minSvn = s.boot.minSvn ∧ u.boot.slotA = s.boot.slotA ∧
      ∀ a, a < peerKey 0 0 → u.mem.get a = 0))

/-- What an operation that leaves a result does not change (R26, R31, R33, R34, R83).
For every state that a ready bundle leaves whose operation answers with a result (scalar, vector, special, unpacking
and packing operations, and the fixed-latency loads): every s, v, lane-mask, predicate, k and x register, every latch,
STAT (but for SERR, where the source pops an unbound stream), FPC, KPOL, IXPOL, DBG, LC, EC and the stage window, the
counters, and JOINP are what they were at the boundary; of the pending results all that were there are there still,
counted down; every other context, the owner bits (but where this is bundle g + 3 of an earlier OWNSET), the engine
commands, the launch, and every byte of memory are what they were at the boundary. -/
def Obligations.RegisterFrame : Prop :=
  ∀ (g : Guard) (src : Src) (s : State) (rnd : Bool) (u : Fin 15) (lat : Nat) (r q : Option Val) (fl : BitVec 9),
    Ready s g src →
    let b := s.boundaryState
    let c := s.issuer
    let t := s.afterResult src rnd u lat r q fl
    let d := t.ctx s.cur
    d.s = c.s ∧ d.v = c.v ∧ d.m = c.m ∧ d.c = c.c ∧ d.k = c.k ∧ d.x = c.x ∧ d.lat = c.lat ∧ d.fpc = c.fpc ∧
    d.stat = (match src with | .pop n => if c.w.get n = none then c.stat ||| 0x80 else c.stat | _ => c.stat) ∧
    d.kpol = c.kpol ∧ d.ixpol = c.ixpol ∧ d.dbg = c.dbg ∧ d.lc = c.lc ∧ d.ecCnt = c.ecCnt ∧ d.psP = c.psP ∧ d.psB = c.psB ∧
    d.ld = c.ld ∧ d.stc = c.stc ∧ d.cp = c.cp ∧ d.tl = c.tl ∧ d.joinp = c.joinp ∧ d.pendS = c.pendS ∧ d.st = .live ∧
    d.pend = c.pend.map (fun p => { p with rem := p.rem - 1 }) ++ [{ u := u, r := r, q := q, fl := fl, rem := lat - 1 }] ∧
    (∀ e, e ≠ s.cur → t.ctx e = b.ctx e) ∧ ((∀ a ∈ c.applies, a.rem ≤ 1 → a.kind.isMap = true) → t.own = b.own) ∧ t.cmds = b.cmds ∧ t.launch = b.launch ∧ t.mem = b.mem
end

