-- ==== Sys2Proof/Laws/Cores.lean ====
section
/-! SUPPORT. Cores and contexts: what a core or a context reads as after one was set. -/

namespace Sys2Proof.Machine

/-- Reading a vector at an index is reading its element there. -/
theorem vget {α : Type} {n : Nat} (v : Vector α n) (i : Fin n) : v.get i = v[i.val] := rfl

theorem coresGet_set (l : List (Nat × Core)) (n m : Nat) (c : Core) :
    coresGet (coresSet l n c) m = if m = n then c else coresGet l m := by
  induction l with
  | nil =>
    by_cases h : m = n
    · simp [coresSet, coresGet, h]
    · simp [coresSet, coresGet, h, Ne.symm h]
  | cons p r ih =>
    obtain ⟨a, d⟩ := p
    unfold coresSet
    split
    · by_cases h : m = n
      · simp [coresGet, h]
      · simp [coresGet, h, Ne.symm h]
    · split
      · rename_i _ heq
        subst heq
        by_cases h : m = n
        · simp [coresGet, h]
        · simp [coresGet, h, Ne.symm h]
      · simp only [coresGet]
        split
        · rename_i ham
          subst ham
          rw [if_neg (by omega)]
        · exact ih

@[simp] theorem State.core_setCore_self (s : State) (n : Fin 4112) (c : Core) : (s.setCore n c).core n = c := by
  simp [State.core, State.setCore, coresGet_set]

@[simp] theorem State.core_setCore_ne (s : State) {n m : Fin 4112} (h : m ≠ n) (c : Core) : (s.setCore n c).core m = s.core m := by
  have : m.val ≠ n.val := fun e => h (Fin.ext e)
  simp [State.core, State.setCore, coresGet_set, this]

@[simp] theorem State.core_modCore_self (s : State) (n : Fin 4112) (f : Core → Core) : (s.modCore n f).core n = f (s.core n) :=
  State.core_setCore_self ..

@[simp] theorem State.core_modCore_ne (s : State) {n m : Fin 4112} (h : m ≠ n) (f : Core → Core) :
    (s.modCore n f).core m = s.core m := State.core_setCore_ne _ h _

@[simp] theorem Core.at_setAt_self (c : Core) (i : Fin 4) (x : Ctx) : (c.setAt i x).at i = x := by
  simp [Core.at, Core.setAt, vget]

@[simp] theorem Core.at_setAt_ne (c : Core) {i j : Fin 4} (h : j ≠ i) (x : Ctx) : (c.setAt i x).at j = c.at j := by
  have : i.val ≠ j.val := fun e => h (Fin.ext e.symm)
  simp [Core.at, Core.setAt, vget, this]

@[simp] theorem State.ctx_setCtx_self (s : State) (c : Cid) (x : Ctx) : (s.setCtx c x).ctx c = x := by
  simp [State.ctx, State.setCtx]

/-- Setting a context leaves every other one. -/
@[simp] theorem State.ctx_setCtx_ne (s : State) {c d : Cid} (h : d ≠ c) (x : Ctx) : (s.setCtx c x).ctx d = s.ctx d := by
  obtain ⟨n, i⟩ := c
  obtain ⟨m, j⟩ := d
  by_cases hn : m = n
  · subst hn
    have : j ≠ i := fun e => h (by rw [e])
    simp [State.ctx, State.setCtx, this]
  · simp [State.ctx, State.setCtx, hn]

@[simp] theorem State.ctx_modCtx_self (s : State) (c : Cid) (f : Ctx → Ctx) : (s.modCtx c f).ctx c = f (s.ctx c) :=
  State.ctx_setCtx_self ..

@[simp] theorem State.ctx_modCtx_ne (s : State) {c d : Cid} (h : d ≠ c) (f : Ctx → Ctx) : (s.modCtx c f).ctx d = s.ctx d :=
  State.ctx_setCtx_ne _ h _

/-- A change of a core that leaves its contexts leaves every context. -/
theorem State.ctx_modCore (s : State) (n : Fin 4112) (f : Core → Core) (h : ∀ k, (f k).ctx = k.ctx) (d : Cid) :
    (s.modCore n f).ctx d = s.ctx d := by
  obtain ⟨m, j⟩ := d
  by_cases hm : m = n
  · subst hm
    simp [State.ctx, Core.at, h]
  · simp [State.ctx, hm]

/-- What the contexts of a core share is left by a change of a context. -/
theorem State.core_setCtx (s : State) (c : Cid) (x : Ctx) (m : Fin 4112) :
    (s.setCtx c x).core m = if m = c.core then (s.core c.core).setAt c.ctx x else s.core m := by
  by_cases h : m = c.core
  · subst h; simp [State.setCtx]
  · simp [State.setCtx, h]

@[simp] theorem State.setCtx_setCtx (s : State) (c : Cid) (x y : Ctx) : ((s.setCtx c x).setCtx c y).ctx c = y := by simp

@[simp] theorem State.clu_modClu_self (s : State) (c : Fin 16) (f : Cluster → Cluster) : (s.modClu c f).clu c = f (s.clu c) := by
  simp [State.clu, State.modClu, vget]

@[simp] theorem State.clu_modClu_ne (s : State) {c d : Fin 16} (h : d ≠ c) (f : Cluster → Cluster) :
    (s.modClu c f).clu d = s.clu d := by
  have : c.val ≠ d.val := fun e => h (Fin.ext e.symm)
  simp [State.clu, State.modClu, vget, this]

/-- A context depends on the list of cores alone. -/
theorem State.ctx_congr {s t : State} (h : t.cores = s.cores) (c : Cid) : t.ctx c = s.ctx c := by
  simp [State.ctx, State.core, h]

/-! ### Registers -/

@[simp] theorem Ctx.readS_zero (c : Ctx) : c.readS 0 = 0 := rfl

/-- R12, R31: a write to s0 is discarded. -/
@[simp] theorem Ctx.writeS_zero (c : Ctx) (x : Word) : c.writeS 0 x = c := rfl

@[simp] theorem Ctx.readS_writeS_self (c : Ctx) {i : Fin 64} (h : i ≠ 0) (x : Word) : (c.writeS i x).readS i = x := by
  simp [Ctx.readS, Ctx.writeS, h, vget]

@[simp] theorem Ctx.readS_writeS_ne (c : Ctx) {i j : Fin 64} (h : j ≠ i) (x : Word) : (c.writeS i x).readS j = c.readS j := by
  have : i.val ≠ j.val := fun e => h (Fin.ext e.symm)
  by_cases hi : i = 0
  · simp [Ctx.writeS, hi]
  · simp [Ctx.readS, Ctx.writeS, hi, vget, this]

@[simp] theorem Ctx.v_writeV_self (c : Ctx) (i : Fin 32) (x : Vec) : (c.writeV i x).v.get i = x := by
  simp [Ctx.writeV, vget]

@[simp] theorem Ctx.v_writeV_ne (c : Ctx) {i j : Fin 32} (h : j ≠ i) (x : Vec) : (c.writeV i x).v.get j = c.v.get j := by
  have : i.val ≠ j.val := fun e => h (Fin.ext e.symm)
  simp [Ctx.writeV, vget, this]

@[simp] theorem Ctx.m_writeM_self (c : Ctx) (i : Fin 8) (x : Word) : (c.writeM i x).m.get i = x := by
  simp [Ctx.writeM, vget]

@[simp] theorem Ctx.m_writeM_ne (c : Ctx) {i j : Fin 8} (h : j ≠ i) (x : Word) : (c.writeM i x).m.get j = c.m.get j := by
  have : i.val ≠ j.val := fun e => h (Fin.ext e.symm)
  simp [Ctx.writeM, vget, this]

@[simp] theorem Ctx.c_writeC_self (c : Ctx) (i : Fin 4) (x : Bool) : (c.writeC i x).c.get i = x := by
  simp [Ctx.writeC, vget]

@[simp] theorem Ctx.c_writeC_ne (c : Ctx) {i j : Fin 4} (h : j ≠ i) (x : Bool) : (c.writeC i x).c.get j = c.c.get j := by
  have : i.val ≠ j.val := fun e => h (Fin.ext e.symm)
  simp [Ctx.writeC, vget, this]

@[simp] theorem Ctx.latch_modLatch_self (c : Ctx) (u : Fin 15) (f : Latch → Latch) : (c.modLatch u f).latch u = f (c.latch u) := by
  simp [Ctx.latch, Ctx.modLatch, vget]

@[simp] theorem Ctx.latch_modLatch_ne (c : Ctx) {u w : Fin 15} (h : w ≠ u) (f : Latch → Latch) :
    (c.modLatch u f).latch w = c.latch w := by
  have : u.val ≠ w.val := fun e => h (Fin.ext e.symm)
  simp [Ctx.latch, Ctx.modLatch, vget, this]

/-! ### Effects -/

@[simp] theorem Eff.start_st (s : State) : (Eff.start s).st = s := rfl
@[simp] theorem Eff.start_wr (s : State) : (Eff.start s).wr = [] := rfl
@[simp] theorem Eff.on_st (e : Eff) (f : State → State) : (e.on f).st = f e.st := rfl
@[simp] theorem Eff.on_wr (e : Eff) (f : State → State) : (e.on f).wr = e.wr := rfl
@[simp] theorem Eff.put_wr (e : Eff) (ws : List Wr) : (e.put ws).wr = e.wr ++ ws := rfl
@[simp] theorem Eff.put_mem (e : Eff) (ws : List Wr) : (e.put ws).st.mem = e.st.mem.applyAll ws := rfl
@[simp] theorem Eff.put_cores (e : Eff) (ws : List Wr) : (e.put ws).st.cores = e.st.cores := rfl
@[simp] theorem Eff.put_ctx (e : Eff) (ws : List Wr) (c : Cid) : (e.put ws).st.ctx c = e.st.ctx c := rfl
@[simp] theorem Eff.ctx_st (e : Eff) (c : Cid) (f : Ctx → Ctx) : (e.ctx c f).st = e.st.modCtx c f := rfl
@[simp] theorem Eff.ctx_wr (e : Eff) (c : Cid) (f : Ctx → Ctx) : (e.ctx c f).wr = e.wr := rfl

@[simp] theorem commit_mem (s : State) (e : Eff) : (commit s e).mem = s.mem.applyAll e.wr := rfl
@[simp] theorem commit_cores (s : State) (e : Eff) : (commit s e).cores = e.st.cores := rfl
@[simp] theorem commit_ctx (s : State) (e : Eff) (c : Cid) : (commit s e).ctx c = e.st.ctx c := rfl
@[simp] theorem commit_core (s : State) (e : Eff) (n : Fin 4112) : (commit s e).core n = e.st.core n := rfl
@[simp] theorem commit_clu (s : State) (e : Eff) (c : Fin 16) : (commit s e).clu c = e.st.clu c := rfl
@[simp] theorem commit_own (s : State) (e : Eff) : (commit s e).own = e.st.own := rfl
@[simp] theorem commit_cmds (s : State) (e : Eff) : (commit s e).cmds = e.st.cmds := rfl
@[simp] theorem commit_sets (s : State) (e : Eff) : (commit s e).sets = e.st.sets := rfl
@[simp] theorem commit_engines (s : State) (e : Eff) : (commit s e).engines = e.st.engines := rfl
@[simp] theorem commit_groups (s : State) (e : Eff) : (commit s e).groups = e.st.groups := rfl
@[simp] theorem commit_rings (s : State) (e : Eff) : (commit s e).rings = e.st.rings := rfl
@[simp] theorem commit_launch (s : State) (e : Eff) : (commit s e).launch = e.st.launch := rfl
@[simp] theorem commit_host (s : State) (e : Eff) : (commit s e).host = e.st.host := rfl
@[simp] theorem commit_pages (s : State) (e : Eff) : (commit s e).pages = e.st.pages := rfl
@[simp] theorem commit_invals (s : State) (e : Eff) : (commit s e).invals = e.st.invals := rfl
@[simp] theorem commit_ports (s : State) (e : Eff) : (commit s e).ports = e.st.ports := rfl
@[simp] theorem commit_boot (s : State) (e : Eff) : (commit s e).boot = e.st.boot := rfl

theorem commit_start (s : State) : commit s (Eff.start s) = s := rfl

/-- A step that completes leaves the committed effect, and nothing else. -/
@[simp] theorem done_eq_next {s t : State} {e : Eff} : done s e = .next t ↔ commit s e = t := by
  unfold done
  exact ⟨fun h => by injection h, fun h => by rw [h]⟩

/-- A step that cannot be taken leaves the state. -/
@[simp] theorem stutter_eq_next {s t : State} : stutter s = .next t ↔ s = t := by
  unfold stutter
  exact ⟨fun h => by injection h, fun h => by rw [h]⟩

end Sys2Proof.Machine
end

