-- ==== Sys2Proof/Laws/Issue.lean ====
section
/-! SUPPORT. What the issue of a bundle of one move does: the one lemma that the result of every trigger rests on. -/

namespace Sys2Proof.Machine

/-! ### A core that has stalled (R300) -/

/-- A core that has not stalled is as it was. -/
theorem unstall_of_not (s : State) (n : Fin 4112) (h : (s.core n).stalled = false) : s.unstall n = s := by
  simp [State.unstall, h]

/-- Trying a bundle touches no memory. -/
@[simp] theorem unstall_mem (s : State) (n : Fin 4112) : (s.unstall n).mem = s.mem := by
  unfold State.unstall
  split <;> rfl

/-- It touches no context. -/
@[simp] theorem unstall_ctx (s : State) (n : Fin 4112) (d : Cid) : (s.unstall n).ctx d = s.ctx d := by
  unfold State.unstall
  split
  · simp only [State.ctx, Core.at]
    by_cases h : d.core = n
    · rw [h, State.core_modCore_self]
    · rw [State.core_modCore_ne _ h]
  · rfl

/-! ### Limits of a lone move -/

/-- A lone move keeps to R36, unless it is a class P trigger of rm 2 whose source is the random-bit queue. -/
theorem limitsOk_one (m : Move) (h : m.bus.val ≠ 5 ∨ m.src ≠ .rnd ∨ ∀ t, m.dst = .trig t → t.val % 4 ≠ 2) :
    limitsOk [m] = true := by
  obtain ⟨b, g, src, d⟩ := m
  cases d <;> cases src <;>
    simp_all [limitsOk, countMoves, popsOf, Move.popsRnd] <;> (try split) <;> simp_all

/-- A lone move names its destination once. -/
theorem dstsOk_one (m : Move) : dstsOk [m] = true := rfl

/-! ### What the boundary leaves alone -/

@[simp] theorem settle_ir (s : State) (cid : Cid) : (((Eff.start s).settle cid).st).ir = s.ir := rfl

@[simp] theorem boundaryState_ir (s : State) : s.boundaryState.ir = s.ir := rfl

/-! ### The bundle of one move -/

/-- No trap and no pre-emption is due: the context does not halt at this boundary. -/
theorem boundary_none (e : Eff) (cid : Cid) (hd : (e.st.ctx cid).due = []) (hp : (e.st.ctx cid).preempt = false) :
    e.boundary cid = none := by
  simp [Eff.boundary, hd, hp, firstDue]

/-- The moves of a bundle whose one move triggers an operation. -/
theorem doMoves_one (c : Ctx) (ir : Nat) (b : Fin 16) (g : Guard) (src : Src) (t : Fin 768) (o : Op) :
    c.doMoves ir [{ mv := ⟨b, g, src, .trig t⟩, op := some o }] =
      (let c' := c.countDown.sourceTake src
       let c' := if o.rnd then c'.rndTake else c'
       { c' with pc := c.pc + BitVec.ofNat 64 ir, lastSeq := c.seq, blocked := false, quiet := false }) := by
  cases h : o.rnd <;> simp [Ctx.doMoves, Ctx.dest, h]

/-- A READY BUNDLE RUNS: where the context stands ready and nothing in the operation stops the bundle, the step leaves
exactly what the move and the operation do. -/
theorem issueOne_ready {s : State} {g : Guard} {src : Src} {o : Op} (h : Ready s g src)
    (hl : o.bus.val ≠ 5 ∨ src ≠ .rnd ∨ (o.t % 768) % 4 ≠ 2)
    (hr : o.rnd = true → s.issuer.sourceWaits .rnd = false)
    (hx : s.issuer.xfer = none ∨ o.xf (s.reads o.bus src) = false)
    (hp : o.priv = false ∨ isCsc s.cur = true)
    (hv : o.pv (s.reads o.bus src) = false)
    (hq : o.acc = false ∨ (s.unfenced ∧ o.left (s.reads o.bus src) = []))
    (hc : o.chk (s.reads o.bus src) = none)
    (hb : o.blk (s.reads o.bus src) = false)
    (ha : o.asst (s.reads o.bus src) = none)
    (hw : o.sw (s.reads o.bus src) = none) :
    issueOne g src o s = .next (s.afterMove src o.rnd (o.eff (s.reads o.bus src))) := by
  have hlive := h.live
  have hgo := h.going
  have hbd : (boundaryEff s).boundary s.cur = none := boundary_none _ _ h.calm.1 h.calm.2
  have hlim : limitsOk [⟨⟨o.bus.val, by omega⟩, g, src, .trig (Fin.ofNat 768 o.t)⟩] = true := by
    apply limitsOk_one
    rcases hl with hl | hl | hl
    · exact .inl hl
    · exact .inr (.inl hl)
    · exact .inr (.inr (fun t ht => by simp at ht; subst ht; simpa using hl))
  have hm : moveWaits s.boundaryState s.cur ⟨⟨o.bus.val, by omega⟩, g, src, .trig (Fin.ofNat 768 o.t)⟩ = false := by
    have := h.reclu
    have := h.ready
    simp_all [moveWaits, Ctx.destWaits, State.issuer]
  have hin : ∀ (mv : Move), mv.src = src → inOf s.boundaryState s.cur mv o = s.reads o.bus src := by
    intro mv hmv; simp [inOf, State.reads, State.issuer, hmv]
  have hk := h.known
  have hg := h.holds
  have hf := h.fills
  have hroom := h.room
  have hcnt : ¬ (16 < s.issuer.pend.length + (([(o, s.reads o.bus src)]).filter (fun p => p.1.res)).length) := by
    have : (([(o, s.reads o.bus src)]).filter (fun p => p.1.res)).length ≤ 1 := by
      simpa using List.length_filter_le (fun p : Op × In => p.1.res) [(o, s.reads o.bus src)]
    omega
  unfold issueOne issueWith
  rw [if_pos ⟨hlive, by simp [hgo]⟩]
  show (match (boundaryEff s).boundary s.cur with
    | some e => done s e
    | none => done s ((boundaryEff s).bundle s.cur _)) = _
  rw [hbd]
  simp only [done, State.afterMove]
  congr 2
  have hst : (boundaryEff s).st = s.boundaryState := rfl
  have hci : s.boundaryState.ctx s.cur = s.issuer := rfl
  have hir : s.boundaryState.ir = s.ir := rfl
  have hlegal : slotsLegal [{ mv := ⟨⟨o.bus.val, by omega⟩, g, src, .trig (Fin.ofNat 768 o.t)⟩, op := some o }] = true := by
    simp only [slotsLegal, List.map_cons, List.map_nil, hlim, dstsOk_one]; rfl
  have hact : active s.issuer [{ mv := ⟨⟨o.bus.val, by omega⟩, g, src, .trig (Fin.ofNat 768 o.t)⟩, op := some o }] =
      [{ mv := ⟨⟨o.bus.val, by omega⟩, g, src, .trig (Fin.ofNat 768 o.t)⟩, op := some o }] := by
    simp [active, hg]
  have hops : opsOf s.boundaryState s.cur
      [{ mv := ⟨⟨o.bus.val, by omega⟩, g, src, .trig (Fin.ofNat 768 o.t)⟩, op := some o }] = [(o, s.reads o.bus src)] := by
    simp [opsOf, hin]
  have hxf : (s.issuer.xfer.isSome && o.xf (s.reads o.bus src)) = false := by
    rcases hx with hx | hx <;> simp [hx]
  have hpr : (!isCsc s.cur && o.priv) = false := by
    rcases hp with hp | hp <;> simp [hp]
  have hrn : (o.rnd && s.issuer.sourceWaits .rnd) = false := by
    cases hr' : o.rnd
    · rfl
    · simp [hr hr']
  have hblk : opsBlock s.boundaryState s.cur [(o, s.reads o.bus src)] = false := by
    have hcnt' : decide (16 < (s.boundaryState.ctx s.cur).pend.length +
        (([(o, s.reads o.bus src)]).filter (fun p => p.1.res)).length) = false := decide_eq_false hcnt
    rcases hq with hq | ⟨hq, hl⟩
    · simp only [opsBlock, List.any_cons, List.any_nil, hb, hq, Bool.or_false, Bool.false_or, Bool.false_and]
      exact hcnt'
    · simp only [opsBlock, List.any_cons, List.any_nil, hb, Bool.or_false, Bool.false_or, hl, List.isEmpty_nil, Bool.not_true,
        show s.boundaryState.fenced s.cur = false from hq, Bool.and_false]
      exact hcnt'
  have hpop : (popTrap s.issuer [{ mv := ⟨⟨o.bus.val, by omega⟩, g, src, .trig (Fin.ofNat 768 o.t)⟩, op := some o }]) = none := by
    simp [popTrap, hf]
  simp only [Eff.bundle, Eff.attempt, hst, hci, hlegal, hact, hops, Bool.not_true, Bool.false_eq_true, if_false,
    List.any_cons, List.any_nil, hk, Bool.or_false, hxf, hpr, hm, hrn, hv, hpop, Option.none_or, issueTrap,
    List.findSome?_cons, List.findSome?_nil, hc, hblk, Eff.postTrap, List.filterMap_cons, List.filterMap_nil, ha, hw]
  simp only [Eff.issue, hst, hci, doMoves_one, List.foldl_cons, List.foldl_nil, State.moved, Ctx.popFlags]
  have hz : (0 : BitVec 9) ||| s.issuer.popFlag src = s.issuer.popFlag src := BitVec.zero_or
  rw [hz]
  rfl

end Sys2Proof.Machine
end

