-- ==== Sys2Proof/Laws/Memory.lean ====
section
/-! SUPPORT. Memory: what a byte reads after writes, and that every memory operation keeps the canonical form. -/

namespace Sys2Proof.Machine

/-! ### The canonical form -/

/-- Every key of a list of cells lies above a bound. -/
def cellsAbove (n : Nat) (l : List Host.Cell) : Prop := ∀ c ∈ l, n < c.1

/-- A cell in front of a list of the canonical form whose keys lie above its own. -/
theorem cellsWf_cons {a : Nat} {b : Byte} {l : List Host.Cell} :
    cellsWf ((a, b) :: l) = true ↔ b ≠ 0 ∧ cellsAbove a l ∧ cellsWf l = true := by
  induction l generalizing a b with
  | nil => simp [cellsWf, cellsAbove]
  | cons c r ih =>
    obtain ⟨d, e⟩ := c
    have hd := @ih d e
    simp only [cellsWf, Bool.and_eq_true, decide_eq_true_eq, bne_iff_ne, cellsAbove, List.mem_cons, forall_eq_or_imp]
    constructor
    · rintro ⟨⟨h1, h2⟩, h3⟩
      refine ⟨h2, ⟨h1, fun x hx => ?_⟩, h3⟩
      exact Nat.lt_trans h1 ((hd.1 h3).2.1 x hx)
    · rintro ⟨h1, ⟨h2, -⟩, h3⟩
      exact ⟨⟨h2, h1⟩, h3⟩

@[simp] theorem cellsWf_nil : cellsWf [] = true := rfl

/-- A write leaves every key above a bound that its own key is above. -/
theorem cellsAbove_set {n k : Nat} {b : Byte} {l : List Host.Cell} (h : cellsAbove n l) (hk : n < k) :
    cellsAbove n (cellsSet l k b) := by
  induction l with
  | nil => unfold cellsSet; split <;> simp [cellsAbove, hk]
  | cons c r ih =>
    obtain ⟨a, d⟩ := c
    have hr : cellsAbove n r := fun x hx => h x (List.mem_cons_of_mem _ hx)
    have ha : n < a := h (a, d) (List.mem_cons_self ..)
    unfold cellsSet
    split
    · split
      · exact h
      · intro x hx
        rcases List.mem_cons.1 hx with rfl | hx
        · exact hk
        · exact h x hx
    · split
      · split
        · exact hr
        · intro x hx
          rcases List.mem_cons.1 hx with rfl | hx
          · exact hk
          · exact hr x hx
      · intro x hx
        rcases List.mem_cons.1 hx with rfl | hx
        · exact ha
        · exact ih hr x hx

theorem cellsWf_set {k : Nat} {b : Byte} {l : List Host.Cell} (h : cellsWf l = true) : cellsWf (cellsSet l k b) = true := by
  induction l with
  | nil => unfold cellsSet; split <;> simp_all [cellsWf]
  | cons c r ih =>
    obtain ⟨a, d⟩ := c
    obtain ⟨h1, h2, h3⟩ := cellsWf_cons.1 h
    unfold cellsSet
    split
    · rename_i hlt
      split
      · exact h
      · rename_i hb
        refine cellsWf_cons.2 ⟨hb, fun x hx => ?_, h⟩
        rcases List.mem_cons.1 hx with rfl | hx
        · exact hlt
        · exact Nat.lt_trans hlt (h2 x hx)
    · split
      · rename_i _ heq
        subst heq
        split
        · exact h3
        · rename_i hb
          exact cellsWf_cons.2 ⟨hb, h2, h3⟩
      · exact cellsWf_cons.2 ⟨h1, cellsAbove_set h2 (by omega), ih h3⟩

theorem cellsWf_filter {p : Host.Cell → Bool} {l : List Host.Cell} (h : cellsWf l = true) : cellsWf (l.filter p) = true := by
  induction l with
  | nil => rfl
  | cons c r ih =>
    obtain ⟨a, d⟩ := c
    obtain ⟨h1, h2, h3⟩ := cellsWf_cons.1 h
    by_cases hp : p (a, d) = true
    · rw [List.filter_cons_of_pos hp]
      exact cellsWf_cons.2 ⟨h1, fun x hx => h2 x (List.mem_filter.1 hx).1, ih h3⟩
    · rw [List.filter_cons_of_neg hp]
      exact ih h3

/-- EVERY WRITE KEEPS THE CANONICAL FORM. -/
theorem Mem.wf_apply {m : Mem} (h : m.wf = true) (w : Wr) : (m.apply w).wf = true := by
  cases w with
  | byte k b => exact cellsWf_set h
  | clear lo hi => exact cellsWf_filter h

/-- So do all the writes of a step. -/
theorem Mem.wf_applyAll {m : Mem} (h : m.wf = true) (ws : List Wr) : (m.applyAll ws).wf = true := by
  induction ws generalizing m with
  | nil => exact h
  | cons w ws ih => exact ih (Mem.wf_apply h w)

/-! ### Reading after writing -/

theorem cellsGet_above {n k : Nat} {l : List Host.Cell} (h : cellsAbove n l) (hk : k ≤ n) : cellsGet l k = 0 := by
  induction l with
  | nil => rfl
  | cons c r ih =>
    obtain ⟨a, d⟩ := c
    have ha : n < a := h (a, d) (List.mem_cons_self ..)
    unfold cellsGet
    rw [if_neg (by omega)]
    exact ih (fun x hx => h x (List.mem_cons_of_mem _ hx))

/-- A write leaves every other byte. -/
theorem cellsGet_set_ne {k j : Nat} {b : Byte} {l : List Host.Cell} (h : j ≠ k) : cellsGet (cellsSet l k b) j = cellsGet l j := by
  induction l with
  | nil => unfold cellsSet; split <;> simp [cellsGet, Ne.symm h]
  | cons c r ih =>
    obtain ⟨a, d⟩ := c
    unfold cellsSet
    split
    · split
      · rfl
      · simp [cellsGet, Ne.symm h]
    · split
      · rename_i _ heq
        subst heq
        split <;> simp [cellsGet, Ne.symm h]
      · simp only [cellsGet]
        split
        · rfl
        · exact ih

/-- A byte reads as it was written. -/
theorem cellsGet_set_self {k : Nat} {b : Byte} {l : List Host.Cell} (h : cellsWf l = true) : cellsGet (cellsSet l k b) k = b := by
  induction l with
  | nil => unfold cellsSet; split <;> simp_all [cellsGet]
  | cons c r ih =>
    obtain ⟨a, d⟩ := c
    obtain ⟨h1, h2, h3⟩ := cellsWf_cons.1 h
    unfold cellsSet
    split
    · rename_i hlt
      split
      · rename_i hb
        subst hb
        unfold cellsGet
        rw [if_neg (by omega)]
        exact cellsGet_above h2 (by omega)
      · simp [cellsGet]
    · split
      · rename_i _ heq
        subst heq
        split
        · rename_i hb
          subst hb
          exact cellsGet_above h2 (Nat.le_refl _)
        · simp [cellsGet]
      · rename_i hne
        unfold cellsGet
        rw [if_neg (by omega)]
        exact ih h3

theorem cellsGet_clear {lo hi j : Nat} {l : List Host.Cell} :
    cellsGet (cellsClear l lo hi) j = if lo ≤ j ∧ j < hi then 0 else cellsGet l j := by
  unfold cellsClear
  induction l with
  | nil => simp [cellsGet]
  | cons c r ih =>
    obtain ⟨a, d⟩ := c
    by_cases hp : lo ≤ a ∧ a < hi
    · rw [List.filter_cons_of_neg (by simp [hp.1, hp.2]), ih]
      unfold cellsGet
      split
      · rfl
      · rw [if_neg (by rintro rfl; exact absurd hp ‹_›)]
        cases r <;> rfl
    · rw [List.filter_cons_of_pos (by simp only [Bool.not_eq_true', Bool.and_eq_false_iff, decide_eq_false_iff_not]; omega)]
      simp only [cellsGet, ih]
      by_cases ha : a = j
      · subst ha; simp [hp]
      · simp [ha]

@[simp] theorem Mem.get_byte_ne {m : Mem} {k j : Nat} {b : Byte} (h : j ≠ k) : (m.apply (.byte k b)).get j = m.get j :=
  cellsGet_set_ne h

theorem Mem.get_byte_self {m : Mem} {k : Nat} {b : Byte} (h : m.wf = true) : (m.apply (.byte k b)).get k = b :=
  cellsGet_set_self h

theorem Mem.get_clear {m : Mem} {lo hi j : Nat} :
    (m.apply (.clear lo hi)).get j = if lo ≤ j ∧ j < hi then 0 else m.get j := cellsGet_clear

@[simp] theorem Mem.applyAll_nil (m : Mem) : m.applyAll [] = m := rfl

@[simp] theorem Mem.applyAll_cons (m : Mem) (w : Wr) (ws : List Wr) : m.applyAll (w :: ws) = (m.apply w).applyAll ws := rfl

theorem Mem.applyAll_append (m : Mem) (ws vs : List Wr) : m.applyAll (ws ++ vs) = (m.applyAll ws).applyAll vs := by
  induction ws generalizing m with
  | nil => rfl
  | cons w ws ih => exact ih (m.apply w)

/-- Whether a write touches a key. -/
def Wr.touches (w : Wr) (j : Nat) : Bool :=
  match w with
  | .byte k _ => k == j
  | .clear lo hi => lo ≤ j && j < hi

theorem Mem.get_apply_of_untouched {m : Mem} {w : Wr} {j : Nat} (h : w.touches j = false) : (m.apply w).get j = m.get j := by
  cases w with
  | byte k b =>
    simp only [Wr.touches, beq_eq_false_iff_ne] at h
    exact Mem.get_byte_ne (fun e => h e.symm)
  | clear lo hi =>
    rw [Mem.get_clear, if_neg]
    simpa [Wr.touches] using h

/-- THE FRAME OF MEMORY: a byte that no write of a step touches reads as before. -/
theorem Mem.get_applyAll_of_untouched {m : Mem} {ws : List Wr} {j : Nat} (h : ∀ w ∈ ws, w.touches j = false) :
    (m.applyAll ws).get j = m.get j := by
  induction ws generalizing m with
  | nil => rfl
  | cons w ws ih =>
    exact (ih (fun x hx => h x (List.mem_cons_of_mem _ hx))).trans (Mem.get_apply_of_untouched (h w (List.mem_cons_self ..)))

theorem wrBytes_touches {k : Nat} {bs : List Byte} {w : Wr} {j : Nat} (hw : w ∈ wrBytes k bs) (h : j < k ∨ k + bs.length ≤ j) :
    w.touches j = false := by
  induction bs generalizing k with
  | nil => simp [wrBytes] at hw
  | cons b bs ih =>
    simp only [wrBytes, List.mem_cons] at hw
    rw [List.length_cons] at h
    rcases hw with rfl | hw
    · simp only [Wr.touches, beq_eq_false_iff_ne]
      omega
    · exact ih hw (by omega)

/-- Bytes laid from a key upward leave every byte outside their extent. -/
theorem Mem.get_wrBytes_outside {m : Mem} {k : Nat} {bs : List Byte} {j : Nat} (h : j < k ∨ k + bs.length ≤ j) :
    (m.applyAll (wrBytes k bs)).get j = m.get j := Mem.get_applyAll_of_untouched (fun _ hw => wrBytes_touches hw h)

/-- Bytes laid from a key upward read back. -/
theorem Mem.get_wrBytes {m : Mem} (hm : m.wf = true) {k i : Nat} {bs : List Byte} (hi : i < bs.length) :
    (m.applyAll (wrBytes k bs)).get (k + i) = bs[i] := by
  induction bs generalizing m k i with
  | nil => exact absurd hi (Nat.not_lt_zero _)
  | cons b bs ih =>
    rw [wrBytes, Mem.applyAll_cons]
    cases i with
    | zero =>
      show ((m.apply (.byte k b)).applyAll (wrBytes (k + 1) bs)).get k = b
      rw [Mem.get_wrBytes_outside (.inl (Nat.lt_succ_self k)), Mem.get_byte_self hm]
    | succ i =>
      have := ih (Mem.wf_apply hm (.byte k b)) (k := k + 1) (i := i) (by simpa using hi)
      rw [show k + (i + 1) = k + 1 + i by omega]
      simpa using this

@[simp] theorem Mem.length_bytes (m : Mem) (k n : Nat) : (m.bytes k n).length = n := by
  induction n generalizing k with
  | zero => rfl
  | succ n ih => simp [Mem.bytes, ih]

/-- The bytes of an extent are read one by one. -/
theorem Mem.getElem_bytes (m : Mem) (k n i : Nat) (h : i < (m.bytes k n).length) : (m.bytes k n)[i] = m.get (k + i) := by
  induction n generalizing k i with
  | zero => exact absurd h (Nat.not_lt_zero _)
  | succ n ih =>
    cases i with
    | zero => rfl
    | succ i =>
      have := ih (k + 1) i (by simpa [Mem.bytes] using h)
      simpa [Mem.bytes, Nat.add_assoc, Nat.add_comm 1 i] using this

/-- Two memories that agree on an extent hold the same bytes there. -/
theorem Mem.bytes_congr {m m' : Mem} {k n : Nat} (h : ∀ j, k ≤ j → j < k + n → m'.get j = m.get j) : m'.bytes k n = m.bytes k n := by
  induction n generalizing k with
  | zero => rfl
  | succ n ih =>
    rw [Mem.bytes, Mem.bytes, h k (Nat.le_refl _) (by omega), ih (fun j h1 h2 => h j (by omega) (by omega))]

/-- Bytes laid from a key upward are read back as an extent. -/
theorem Mem.bytes_wrBytes {m : Mem} (hm : m.wf = true) (k : Nat) (bs : List Byte) :
    (m.applyAll (wrBytes k bs)).bytes k bs.length = bs := by
  apply List.ext_getElem (by simp)
  intro i h1 h2
  rw [Mem.getElem_bytes, Mem.get_wrBytes hm h2]

/-! ### Numbers -/

@[simp] theorem length_leBytes (n x : Nat) : (leBytes n x).length = n := by
  induction n generalizing x with
  | zero => rfl
  | succ n ih => simp [leBytes, ih]

/-- A number of `n` bytes is what its bytes stand for. -/
theorem leNat_leBytes (n x : Nat) : leNat (leBytes n x) = x % 256 ^ n := by
  induction n generalizing x with
  | zero => simp [leBytes, leNat, Nat.mod_one]
  | succ n ih =>
    rw [leBytes, leNat, ih, BitVec.toNat_ofNat, Nat.pow_succ 256 n, Nat.mul_comm (256 ^ n) 256, Nat.mod_mul]

/-- Some bytes stand for a number below 256 to their number. -/
theorem leNat_lt (bs : List Byte) : leNat bs < 256 ^ bs.length := by
  induction bs with
  | nil => simp [leNat]
  | cons b bs ih =>
    have := b.isLt
    rw [leNat, List.length_cons, Nat.pow_succ]
    omega

end Sys2Proof.Machine
end

