-- ==== Sys2Proof/Laws/PerInstr.lean ====
section
/-! SUPPORT. Lemmas with one case per instruction: the bus and the trigger code of a trigger instruction name that
instruction again (spec/03_portmap.md R53 to R65). -/

namespace Sys2Proof.Laws.TriggerCode

/-- The bus, code, guard and source that an instruction of legal types has as a move are read as that instruction. A step
that is no trigger has none. -/
def Statement (i : Instr) : Prop :=
  ∀ b t g src, trigOf i = some (b, t, g, src) → i.typesOk = true → trigOn b t g src = some i

theorem add (u : Fin 2) (g : Guard) (src : Src) (w : Bool) : Statement (.add u g src w) := by
  rintro b t g src ⟨⟩ -
  fin_cases u <;> cases w <;> rfl

theorem sub (u : Fin 2) (g : Guard) (src : Src) (w : Bool) : Statement (.sub u g src w) := by
  rintro b t g src ⟨⟩ -
  fin_cases u <;> cases w <;> rfl

theorem mul (u : Fin 2) (g : Guard) (src : Src) (w : Bool) : Statement (.mul u g src w) := by
  rintro b t g src ⟨⟩ -
  fin_cases u <;> cases w <;> rfl

theorem mulh (u : Fin 2) (g : Guard) (src : Src) (w : Bool) : Statement (.mulh u g src w) := by
  rintro b t g src ⟨⟩ -
  fin_cases u <;> cases w <;> rfl

theorem mulhu (u : Fin 2) (g : Guard) (src : Src) (w : Bool) : Statement (.mulhu u g src w) := by
  rintro b t g src ⟨⟩ -
  fin_cases u <;> cases w <;> rfl

theorem div (u : Fin 2) (g : Guard) (src : Src) (w : Bool) : Statement (.div u g src w) := by
  rintro b t g src ⟨⟩ -
  fin_cases u <;> cases w <;> rfl

theorem divu (u : Fin 2) (g : Guard) (src : Src) (w : Bool) : Statement (.divu u g src w) := by
  rintro b t g src ⟨⟩ -
  fin_cases u <;> cases w <;> rfl

theorem rem (u : Fin 2) (g : Guard) (src : Src) (w : Bool) : Statement (.rem u g src w) := by
  rintro b t g src ⟨⟩ -
  fin_cases u <;> cases w <;> rfl

theorem remu (u : Fin 2) (g : Guard) (src : Src) (w : Bool) : Statement (.remu u g src w) := by
  rintro b t g src ⟨⟩ -
  fin_cases u <;> cases w <;> rfl

theorem and (u : Fin 2) (g : Guard) (src : Src) (w : Bool) : Statement (.and u g src w) := by
  rintro b t g src ⟨⟩ -
  fin_cases u <;> cases w <;> rfl

theorem or (u : Fin 2) (g : Guard) (src : Src) (w : Bool) : Statement (.or u g src w) := by
  rintro b t g src ⟨⟩ -
  fin_cases u <;> cases w <;> rfl

theorem xor (u : Fin 2) (g : Guard) (src : Src) (w : Bool) : Statement (.xor u g src w) := by
  rintro b t g src ⟨⟩ -
  fin_cases u <;> cases w <;> rfl

theorem andn (u : Fin 2) (g : Guard) (src : Src) (w : Bool) : Statement (.andn u g src w) := by
  rintro b t g src ⟨⟩ -
  fin_cases u <;> cases w <;> rfl

theorem shl (u : Fin 2) (g : Guard) (src : Src) (w : Bool) : Statement (.shl u g src w) := by
  rintro b t g src ⟨⟩ -
  fin_cases u <;> cases w <;> rfl

theorem shr (u : Fin 2) (g : Guard) (src : Src) (w : Bool) : Statement (.shr u g src w) := by
  rintro b t g src ⟨⟩ -
  fin_cases u <;> cases w <;> rfl

theorem sar (u : Fin 2) (g : Guard) (src : Src) (w : Bool) : Statement (.sar u g src w) := by
  rintro b t g src ⟨⟩ -
  fin_cases u <;> cases w <;> rfl

theorem rol (u : Fin 2) (g : Guard) (src : Src) (w : Bool) : Statement (.rol u g src w) := by
  rintro b t g src ⟨⟩ -
  fin_cases u <;> cases w <;> rfl

theorem clz (u : Fin 2) (g : Guard) (src : Src) (w : Bool) : Statement (.clz u g src w) := by
  rintro b t g src ⟨⟩ -
  fin_cases u <;> cases w <;> rfl

theorem ctz (u : Fin 2) (g : Guard) (src : Src) (w : Bool) : Statement (.ctz u g src w) := by
  rintro b t g src ⟨⟩ -
  fin_cases u <;> cases w <;> rfl

theorem popc (u : Fin 2) (g : Guard) (src : Src) (w : Bool) : Statement (.popc u g src w) := by
  rintro b t g src ⟨⟩ -
  fin_cases u <;> cases w <;> rfl

theorem min (u : Fin 2) (g : Guard) (src : Src) (w : Bool) : Statement (.min u g src w) := by
  rintro b t g src ⟨⟩ -
  fin_cases u <;> cases w <;> rfl

theorem max (u : Fin 2) (g : Guard) (src : Src) (w : Bool) : Statement (.max u g src w) := by
  rintro b t g src ⟨⟩ -
  fin_cases u <;> cases w <;> rfl

theorem minu (u : Fin 2) (g : Guard) (src : Src) (w : Bool) : Statement (.minu u g src w) := by
  rintro b t g src ⟨⟩ -
  fin_cases u <;> cases w <;> rfl

theorem maxu (u : Fin 2) (g : Guard) (src : Src) (w : Bool) : Statement (.maxu u g src w) := by
  rintro b t g src ⟨⟩ -
  fin_cases u <;> cases w <;> rfl

theorem cmpeq (u : Fin 2) (g : Guard) (src : Src) (w : Bool) : Statement (.cmpeq u g src w) := by
  rintro b t g src ⟨⟩ -
  fin_cases u <;> cases w <;> rfl

theorem cmpne (u : Fin 2) (g : Guard) (src : Src) (w : Bool) : Statement (.cmpne u g src w) := by
  rintro b t g src ⟨⟩ -
  fin_cases u <;> cases w <;> rfl

theorem cmplt (u : Fin 2) (g : Guard) (src : Src) (w : Bool) : Statement (.cmplt u g src w) := by
  rintro b t g src ⟨⟩ -
  fin_cases u <;> cases w <;> rfl

theorem cmpltu (u : Fin 2) (g : Guard) (src : Src) (w : Bool) : Statement (.cmpltu u g src w) := by
  rintro b t g src ⟨⟩ -
  fin_cases u <;> cases w <;> rfl

theorem cmple (u : Fin 2) (g : Guard) (src : Src) (w : Bool) : Statement (.cmple u g src w) := by
  rintro b t g src ⟨⟩ -
  fin_cases u <;> cases w <;> rfl

theorem cmpleu (u : Fin 2) (g : Guard) (src : Src) (w : Bool) : Statement (.cmpleu u g src w) := by
  rintro b t g src ⟨⟩ -
  fin_cases u <;> cases w <;> rfl

theorem sel (u : Fin 2) (g : Guard) (src : Src) : Statement (.sel u g src) := by
  rintro b t g src ⟨⟩ -
  fin_cases u <;> rfl

theorem extb (u : Fin 2) (g : Guard) (src : Src) (w : Bool) : Statement (.extb u g src w) := by
  rintro b t g src ⟨⟩ -
  fin_cases u <;> cases w <;> rfl

theorem insb (u : Fin 2) (g : Guard) (src : Src) (w : Bool) : Statement (.insb u g src w) := by
  rintro b t g src ⟨⟩ -
  fin_cases u <;> cases w <;> rfl

theorem sext (u : Fin 2) (g : Guard) (src : Src) : Statement (.sext u g src) := by
  rintro b t g src ⟨⟩ -
  fin_cases u <;> rfl

theorem zext (u : Fin 2) (g : Guard) (src : Src) : Statement (.zext u g src) := by
  rintro b t g src ⟨⟩ -
  fin_cases u <;> rfl

theorem mov (u : Fin 2) (g : Guard) (src : Src) (w : Bool) : Statement (.mov u g src w) := by
  rintro b t g src ⟨⟩ -
  fin_cases u <;> cases w <;> rfl

theorem lea (u : Fin 2) (g : Guard) (src : Src) : Statement (.lea u g src) := by
  rintro b t g src ⟨⟩ -
  fin_cases u <;> rfl

theorem bswap (u : Fin 2) (g : Guard) (src : Src) (w : Bool) : Statement (.bswap u g src w) := by
  rintro b t g src ⟨⟩ -
  fin_cases u <;> cases w <;> rfl

theorem vadd (u : Fin 2) (g : Guard) (src : Src) (ty : VTy) : Statement (.vadd u g src ty) := by
  rintro b t g src ⟨⟩ -
  fin_cases u <;> cases ty <;> rfl

theorem vsub (u : Fin 2) (g : Guard) (src : Src) (ty : VTy) : Statement (.vsub u g src ty) := by
  rintro b t g src ⟨⟩ -
  fin_cases u <;> cases ty <;> rfl

theorem vmul (u : Fin 2) (g : Guard) (src : Src) (ty : VTy) : Statement (.vmul u g src ty) := by
  rintro b t g src ⟨⟩ -
  fin_cases u <;> cases ty <;> rfl

theorem vfma (u : Fin 2) (g : Guard) (src : Src) (ty : VTy) : Statement (.vfma u g src ty) := by
  rintro b t g src ⟨⟩ -
  fin_cases u <;> cases ty <;> rfl

theorem vfms (u : Fin 2) (g : Guard) (src : Src) (ty : VTy) : Statement (.vfms u g src ty) := by
  rintro b t g src ⟨⟩ -
  fin_cases u <;> cases ty <;> rfl

theorem vnfma (u : Fin 2) (g : Guard) (src : Src) (ty : VTy) : Statement (.vnfma u g src ty) := by
  rintro b t g src ⟨⟩ -
  fin_cases u <;> cases ty <;> rfl

theorem vmin (u : Fin 2) (g : Guard) (src : Src) (ty : VTy) : Statement (.vmin u g src ty) := by
  rintro b t g src ⟨⟩ -
  fin_cases u <;> cases ty <;> rfl

theorem vmax (u : Fin 2) (g : Guard) (src : Src) (ty : VTy) : Statement (.vmax u g src ty) := by
  rintro b t g src ⟨⟩ -
  fin_cases u <;> cases ty <;> rfl

theorem vabs (u : Fin 2) (g : Guard) (src : Src) (ty : VTy) : Statement (.vabs u g src ty) := by
  rintro b t g src ⟨⟩ h
  fin_cases u <;> cases ty <;> first | rfl | exact Bool.noConfusion h

theorem vneg (u : Fin 2) (g : Guard) (src : Src) (ty : VTy) : Statement (.vneg u g src ty) := by
  rintro b t g src ⟨⟩ h
  fin_cases u <;> cases ty <;> first | rfl | exact Bool.noConfusion h

theorem vcmpeq (u : Fin 2) (g : Guard) (src : Src) (ty : VTy) : Statement (.vcmpeq u g src ty) := by
  rintro b t g src ⟨⟩ -
  fin_cases u <;> cases ty <;> rfl

theorem vcmplt (u : Fin 2) (g : Guard) (src : Src) (ty : VTy) : Statement (.vcmplt u g src ty) := by
  rintro b t g src ⟨⟩ -
  fin_cases u <;> cases ty <;> rfl

theorem vcmple (u : Fin 2) (g : Guard) (src : Src) (ty : VTy) : Statement (.vcmple u g src ty) := by
  rintro b t g src ⟨⟩ -
  fin_cases u <;> cases ty <;> rfl

theorem vcmpun (u : Fin 2) (g : Guard) (src : Src) (ty : VTy) : Statement (.vcmpun u g src ty) := by
  rintro b t g src ⟨⟩ h
  fin_cases u <;> cases ty <;> first | rfl | exact Bool.noConfusion h

theorem vand (u : Fin 2) (g : Guard) (src : Src) (ty : VTy) : Statement (.vand u g src ty) := by
  rintro b t g src ⟨⟩ h
  fin_cases u <;> cases ty <;> first | rfl | exact Bool.noConfusion h

theorem vor (u : Fin 2) (g : Guard) (src : Src) (ty : VTy) : Statement (.vor u g src ty) := by
  rintro b t g src ⟨⟩ h
  fin_cases u <;> cases ty <;> first | rfl | exact Bool.noConfusion h

theorem vxor (u : Fin 2) (g : Guard) (src : Src) (ty : VTy) : Statement (.vxor u g src ty) := by
  rintro b t g src ⟨⟩ h
  fin_cases u <;> cases ty <;> first | rfl | exact Bool.noConfusion h

theorem vshl (u : Fin 2) (g : Guard) (src : Src) (ty : VTy) : Statement (.vshl u g src ty) := by
  rintro b t g src ⟨⟩ h
  fin_cases u <;> cases ty <;> first | rfl | exact Bool.noConfusion h

theorem vshr (u : Fin 2) (g : Guard) (src : Src) (ty : VTy) : Statement (.vshr u g src ty) := by
  rintro b t g src ⟨⟩ h
  fin_cases u <;> cases ty <;> first | rfl | exact Bool.noConfusion h

theorem vsar (u : Fin 2) (g : Guard) (src : Src) (ty : VTy) : Statement (.vsar u g src ty) := by
  rintro b t g src ⟨⟩ h
  fin_cases u <;> cases ty <;> first | rfl | exact Bool.noConfusion h

theorem vsel (u : Fin 2) (g : Guard) (src : Src) (ty : VTy) : Statement (.vsel u g src ty) := by
  rintro b t g src ⟨⟩ -
  fin_cases u <;> cases ty <;> rfl

theorem vbcast (u : Fin 2) (g : Guard) (src : Src) (ty : VTy) : Statement (.vbcast u g src ty) := by
  rintro b t g src ⟨⟩ -
  fin_cases u <;> cases ty <;> rfl

theorem vperm (u : Fin 2) (g : Guard) (src : Src) (ty : VTy) : Statement (.vperm u g src ty) := by
  rintro b t g src ⟨⟩ -
  fin_cases u <;> cases ty <;> rfl

theorem vtbl (u : Fin 2) (g : Guard) (src : Src) (ty : VTy) : Statement (.vtbl u g src ty) := by
  rintro b t g src ⟨⟩ h
  fin_cases u <;> cases ty <;> first | rfl | exact Bool.noConfusion h

theorem vredadd (u : Fin 2) (g : Guard) (src : Src) (ty : VTy) : Statement (.vredadd u g src ty) := by
  rintro b t g src ⟨⟩ -
  fin_cases u <;> cases ty <;> rfl

theorem vredmax (u : Fin 2) (g : Guard) (src : Src) (ty : VTy) : Statement (.vredmax u g src ty) := by
  rintro b t g src ⟨⟩ -
  fin_cases u <;> cases ty <;> rfl

theorem vredmin (u : Fin 2) (g : Guard) (src : Src) (ty : VTy) : Statement (.vredmin u g src ty) := by
  rintro b t g src ⟨⟩ -
  fin_cases u <;> cases ty <;> rfl

theorem vscan (u : Fin 2) (g : Guard) (src : Src) (ty : VTy) : Statement (.vscan u g src ty) := by
  rintro b t g src ⟨⟩ -
  fin_cases u <;> cases ty <;> rfl

theorem vtopk (u : Fin 2) (g : Guard) (src : Src) (ty : VTy) : Statement (.vtopk u g src ty) := by
  rintro b t g src ⟨⟩ -
  fin_cases u <;> cases ty <;> rfl

theorem vcvt (u : Fin 2) (g : Guard) (src : Src) (ty : VTy) : Statement (.vcvt u g src ty) := by
  rintro b t g src ⟨⟩ -
  fin_cases u <;> cases ty <;> rfl

theorem vmulh (u : Fin 2) (g : Guard) (src : Src) (ty : VTy) : Statement (.vmulh u g src ty) := by
  rintro b t g src ⟨⟩ h
  fin_cases u <;> cases ty <;> first | rfl | exact Bool.noConfusion h

theorem vdot2 (u : Fin 2) (g : Guard) (src : Src) (ty : VTy) : Statement (.vdot2 u g src ty) := by
  rintro b t g src ⟨⟩ h
  fin_cases u <;> cases ty <;> first | rfl | exact Bool.noConfusion h

theorem vclamp (u : Fin 2) (g : Guard) (src : Src) (ty : VTy) : Statement (.vclamp u g src ty) := by
  rintro b t g src ⟨⟩ -
  fin_cases u <;> cases ty <;> rfl

theorem vcntm (u : Fin 2) (g : Guard) (src : Src) (ty : VTy) : Statement (.vcntm u g src ty) := by
  rintro b t g src ⟨⟩ h
  fin_cases u <;> cases ty <;> first | rfl | exact Bool.noConfusion h

theorem xrcp (g : Guard) (src : Src) (ty : XTy) : Statement (.xrcp g src ty) := by
  rintro b t g src ⟨⟩ -
  cases ty <;> rfl

theorem xrsq (g : Guard) (src : Src) (ty : XTy) : Statement (.xrsq g src ty) := by
  rintro b t g src ⟨⟩ -
  cases ty <;> rfl

theorem xsqrt (g : Guard) (src : Src) (ty : XTy) : Statement (.xsqrt g src ty) := by
  rintro b t g src ⟨⟩ -
  cases ty <;> rfl

theorem xexp2 (g : Guard) (src : Src) (ty : XTy) : Statement (.xexp2 g src ty) := by
  rintro b t g src ⟨⟩ -
  cases ty <;> rfl

theorem xlog2 (g : Guard) (src : Src) (ty : XTy) : Statement (.xlog2 g src ty) := by
  rintro b t g src ⟨⟩ -
  cases ty <;> rfl

theorem xexp (g : Guard) (src : Src) (ty : XTy) : Statement (.xexp g src ty) := by
  rintro b t g src ⟨⟩ -
  cases ty <;> rfl

theorem xsin (g : Guard) (src : Src) (ty : XTy) : Statement (.xsin g src ty) := by
  rintro b t g src ⟨⟩ -
  cases ty <;> rfl

theorem xcos (g : Guard) (src : Src) (ty : XTy) : Statement (.xcos g src ty) := by
  rintro b t g src ⟨⟩ -
  cases ty <;> rfl

theorem xtanh (g : Guard) (src : Src) (ty : XTy) : Statement (.xtanh g src ty) := by
  rintro b t g src ⟨⟩ -
  cases ty <;> rfl

theorem xsigm (g : Guard) (src : Src) (ty : XTy) : Statement (.xsigm g src ty) := by
  rintro b t g src ⟨⟩ -
  cases ty <;> rfl

theorem xgelu (g : Guard) (src : Src) (ty : XTy) : Statement (.xgelu g src ty) := by
  rintro b t g src ⟨⟩ -
  cases ty <;> rfl

theorem xsilu (g : Guard) (src : Src) (ty : XTy) : Statement (.xsilu g src ty) := by
  rintro b t g src ⟨⟩ -
  cases ty <;> rfl

theorem xdiv (g : Guard) (src : Src) (ty : XTy) : Statement (.xdiv g src ty) := by
  rintro b t g src ⟨⟩ -
  cases ty <;> rfl

theorem unpk4s (g : Guard) (src : Src) : Statement (.unpk4s g src) := by
  rintro b t g src ⟨⟩ -
  rfl

theorem unpk4z (g : Guard) (src : Src) : Statement (.unpk4z g src) := by
  rintro b t g src ⟨⟩ -
  rfl

theorem unpk6s (g : Guard) (src : Src) : Statement (.unpk6s g src) := by
  rintro b t g src ⟨⟩ -
  rfl

theorem unpk6z (g : Guard) (src : Src) : Statement (.unpk6z g src) := by
  rintro b t g src ⟨⟩ -
  rfl

theorem unpk8s (g : Guard) (src : Src) : Statement (.unpk8s g src) := by
  rintro b t g src ⟨⟩ -
  rfl

theorem unpk8z (g : Guard) (src : Src) : Statement (.unpk8z g src) := by
  rintro b t g src ⟨⟩ -
  rfl

theorem unpke4 (g : Guard) (src : Src) : Statement (.unpke4 g src) := by
  rintro b t g src ⟨⟩ -
  rfl

theorem unpke5 (g : Guard) (src : Src) : Statement (.unpke5 g src) := by
  rintro b t g src ⟨⟩ -
  rfl

theorem unpksn4 (g : Guard) (src : Src) : Statement (.unpksn4 g src) := by
  rintro b t g src ⟨⟩ -
  rfl

theorem bsread (g : Guard) (src : Src) : Statement (.bsread g src) := by
  rintro b t g src ⟨⟩ -
  rfl

theorem bsinit (g : Guard) (src : Src) : Statement (.bsinit g src) := by
  rintro b t g src ⟨⟩ -
  rfl

theorem unpkix (g : Guard) (src : Src) : Statement (.unpkix g src) := by
  rintro b t g src ⟨⟩ -
  rfl

theorem pack4s (g : Guard) (src : Src) (wrap : Bool) : Statement (.pack4s g src wrap) := by
  rintro b t g src ⟨⟩ -
  cases wrap <;> rfl

theorem pack4z (g : Guard) (src : Src) (wrap : Bool) : Statement (.pack4z g src wrap) := by
  rintro b t g src ⟨⟩ -
  cases wrap <;> rfl

theorem pack6s (g : Guard) (src : Src) (wrap : Bool) : Statement (.pack6s g src wrap) := by
  rintro b t g src ⟨⟩ -
  cases wrap <;> rfl

theorem pack6z (g : Guard) (src : Src) (wrap : Bool) : Statement (.pack6z g src wrap) := by
  rintro b t g src ⟨⟩ -
  cases wrap <;> rfl

theorem pack8s (g : Guard) (src : Src) (wrap : Bool) : Statement (.pack8s g src wrap) := by
  rintro b t g src ⟨⟩ -
  cases wrap <;> rfl

theorem pack8z (g : Guard) (src : Src) (wrap : Bool) : Statement (.pack8z g src wrap) := by
  rintro b t g src ⟨⟩ -
  cases wrap <;> rfl

theorem packe4 (g : Guard) (src : Src) (rm : PRm) : Statement (.packe4 g src rm) := by
  rintro b t g src ⟨⟩ -
  cases rm <;> rfl

theorem packe5 (g : Guard) (src : Src) (rm : PRm) : Statement (.packe5 g src rm) := by
  rintro b t g src ⟨⟩ -
  cases rm <;> rfl

theorem packb16 (g : Guard) (src : Src) (rm : PRm) : Statement (.packb16 g src rm) := by
  rintro b t g src ⟨⟩ -
  cases rm <;> rfl

theorem packh16 (g : Guard) (src : Src) (rm : PRm) : Statement (.packh16 g src rm) := by
  rintro b t g src ⟨⟩ -
  cases rm <;> rfl

theorem packix (g : Guard) (src : Src) (wrap : Bool) : Statement (.packix g src wrap) := by
  rintro b t g src ⟨⟩ -
  cases wrap <;> rfl

theorem ld8s (g : Guard) (src : Src) (a : Fin 4) : Statement (.ld8s g src a) := by
  rintro b t g src ⟨⟩ -
  fin_cases a <;> rfl

theorem ld8z (g : Guard) (src : Src) (a : Fin 4) : Statement (.ld8z g src a) := by
  rintro b t g src ⟨⟩ -
  fin_cases a <;> rfl

theorem ld16s (g : Guard) (src : Src) (a : Fin 4) : Statement (.ld16s g src a) := by
  rintro b t g src ⟨⟩ -
  fin_cases a <;> rfl

theorem ld16z (g : Guard) (src : Src) (a : Fin 4) : Statement (.ld16z g src a) := by
  rintro b t g src ⟨⟩ -
  fin_cases a <;> rfl

theorem ld32s (g : Guard) (src : Src) (a : Fin 4) : Statement (.ld32s g src a) := by
  rintro b t g src ⟨⟩ -
  fin_cases a <;> rfl

theorem ld32z (g : Guard) (src : Src) (a : Fin 4) : Statement (.ld32z g src a) := by
  rintro b t g src ⟨⟩ -
  fin_cases a <;> rfl

theorem ld64 (g : Guard) (src : Src) (a : Fin 4) : Statement (.ld64 g src a) := by
  rintro b t g src ⟨⟩ -
  fin_cases a <;> rfl

theorem st8 (g : Guard) (src : Src) (a : Fin 4) : Statement (.st8 g src a) := by
  rintro b t g src ⟨⟩ -
  fin_cases a <;> rfl

theorem st16 (g : Guard) (src : Src) (a : Fin 4) : Statement (.st16 g src a) := by
  rintro b t g src ⟨⟩ -
  fin_cases a <;> rfl

theorem st32 (g : Guard) (src : Src) (a : Fin 4) : Statement (.st32 g src a) := by
  rintro b t g src ⟨⟩ -
  fin_cases a <;> rfl

theorem st64 (g : Guard) (src : Src) (a : Fin 4) : Statement (.st64 g src a) := by
  rintro b t g src ⟨⟩ -
  fin_cases a <;> rfl

theorem vld (g : Guard) (src : Src) (a : Fin 4) : Statement (.vld g src a) := by
  rintro b t g src ⟨⟩ -
  fin_cases a <;> rfl

theorem vst (g : Guard) (src : Src) (a : Fin 4) : Statement (.vst g src a) := by
  rintro b t g src ⟨⟩ -
  fin_cases a <;> rfl

theorem vldl (g : Guard) (src : Src) (a : Fin 4) : Statement (.vldl g src a) := by
  rintro b t g src ⟨⟩ -
  fin_cases a <;> rfl

theorem vstl (g : Guard) (src : Src) (a : Fin 4) : Statement (.vstl g src a) := by
  rintro b t g src ⟨⟩ -
  fin_cases a <;> rfl

theorem vgath (g : Guard) (src : Src) (a : Fin 4) : Statement (.vgath g src a) := by
  rintro b t g src ⟨⟩ -
  fin_cases a <;> rfl

theorem vscat (g : Guard) (src : Src) (a : Fin 4) : Statement (.vscat g src a) := by
  rintro b t g src ⟨⟩ -
  fin_cases a <;> rfl

theorem ldx (g : Guard) (src : Src) (a : Fin 4) : Statement (.ldx g src a) := by
  rintro b t g src ⟨⟩ -
  fin_cases a <;> rfl

theorem vldx (g : Guard) (src : Src) (a : Fin 4) : Statement (.vldx g src a) := by
  rintro b t g src ⟨⟩ -
  fin_cases a <;> rfl

theorem stx (g : Guard) (src : Src) (a : Fin 4) : Statement (.stx g src a) := by
  rintro b t g src ⟨⟩ -
  fin_cases a <;> rfl

theorem vstx (g : Guard) (src : Src) (a : Fin 4) : Statement (.vstx g src a) := by
  rintro b t g src ⟨⟩ -
  fin_cases a <;> rfl

theorem amoadd (g : Guard) (src : Src) (a : Fin 4) : Statement (.amoadd g src a) := by
  rintro b t g src ⟨⟩ -
  fin_cases a <;> rfl

theorem amomin (g : Guard) (src : Src) (a : Fin 4) : Statement (.amomin g src a) := by
  rintro b t g src ⟨⟩ -
  fin_cases a <;> rfl

theorem amomax (g : Guard) (src : Src) (a : Fin 4) : Statement (.amomax g src a) := by
  rintro b t g src ⟨⟩ -
  fin_cases a <;> rfl

theorem amoswap (g : Guard) (src : Src) (a : Fin 4) : Statement (.amoswap g src a) := by
  rintro b t g src ⟨⟩ -
  fin_cases a <;> rfl

theorem amocas (g : Guard) (src : Src) (a : Fin 4) : Statement (.amocas g src a) := by
  rintro b t g src ⟨⟩ -
  fin_cases a <;> rfl

theorem amofadd (g : Guard) (src : Src) (a : Fin 4) : Statement (.amofadd g src a) := by
  rintro b t g src ⟨⟩ -
  fin_cases a <;> rfl

theorem drain (g : Guard) (src : Src) (sc : Fin 4) : Statement (.drain g src sc) := by
  rintro b t g src ⟨⟩ -
  fin_cases sc <;> rfl

theorem map (g : Guard) (src : Src) : Statement (.map g src) := by
  rintro b t g src ⟨⟩ -
  rfl

theorem unmap (g : Guard) (src : Src) : Statement (.unmap g src) := by
  rintro b t g src ⟨⟩ -
  rfl

theorem ownset (g : Guard) (src : Src) : Statement (.ownset g src) := by
  rintro b t g src ⟨⟩ -
  rfl

theorem br (g : Guard) (src : Src) : Statement (.br g src) := by
  rintro b t g src ⟨⟩ -
  rfl

theorem brc (g : Guard) (src : Src) (j : Fin 4) : Statement (.brc g src j) := by
  rintro b t g src ⟨⟩ -
  fin_cases j <;> rfl

theorem brnc (g : Guard) (src : Src) (j : Fin 4) : Statement (.brnc g src j) := by
  rintro b t g src ⟨⟩ -
  fin_cases j <;> rfl

theorem call (g : Guard) (src : Src) : Statement (.call g src) := by
  rintro b t g src ⟨⟩ -
  rfl

theorem ret (g : Guard) (src : Src) : Statement (.ret g src) := by
  rintro b t g src ⟨⟩ -
  rfl

theorem loop (g : Guard) (src : Src) : Statement (.loop g src) := by
  rintro b t g src ⟨⟩ -
  rfl

theorem loopi (g : Guard) (src : Src) : Statement (.loopi g src) := by
  rintro b t g src ⟨⟩ -
  rfl

theorem exit (g : Guard) (src : Src) : Statement (.exit g src) := by
  rintro b t g src ⟨⟩ -
  rfl

theorem wait (g : Guard) (src : Src) : Statement (.wait g src) := by
  rintro b t g src ⟨⟩ -
  rfl

theorem csrrd (g : Guard) (src : Src) : Statement (.csrrd g src) := by
  rintro b t g src ⟨⟩ -
  rfl

theorem csrwr (g : Guard) (src : Src) : Statement (.csrwr g src) := by
  rintro b t g src ⟨⟩ -
  rfl

theorem trap (g : Guard) (src : Src) : Statement (.trap g src) := by
  rintro b t g src ⟨⟩ -
  rfl

theorem qpt (g : Guard) (src : Src) : Statement (.qpt g src) := by
  rintro b t g src ⟨⟩ -
  rfl

theorem probe (g : Guard) (src : Src) : Statement (.probe g src) := by
  rintro b t g src ⟨⟩ -
  rfl

theorem spawn (g : Guard) (src : Src) (pri : Fin 4) : Statement (.spawn g src pri) := by
  rintro b t g src ⟨⟩ -
  fin_cases pri <;> rfl

theorem joini (g : Guard) (src : Src) : Statement (.joini g src) := by
  rintro b t g src ⟨⟩ -
  rfl

theorem gbar (g : Guard) (src : Src) (j : Fin 4) : Statement (.gbar g src j) := by
  rintro b t g src ⟨⟩ -
  fin_cases j <;> rfl

theorem tdone (g : Guard) (src : Src) : Statement (.tdone g src) := by
  rintro b t g src ⟨⟩ -
  rfl

theorem twaitb (g : Guard) (src : Src) : Statement (.twaitb g src) := by
  rintro b t g src ⟨⟩ -
  rfl

theorem eret (g : Guard) (src : Src) : Statement (.eret g src) := by
  rintro b t g src ⟨⟩ -
  rfl

theorem halt (g : Guard) (src : Src) : Statement (.halt g src) := by
  rintro b t g src ⟨⟩ -
  rfl

theorem mma (g : Guard) (src : Src) (sp : Bool) (h : Bool) : Statement (.mma g src sp h) := by
  rintro b t g src ⟨⟩ -
  cases sp <;> cases h <;> rfl

theorem mzero (g : Guard) (src : Src) (h : Bool) : Statement (.mzero g src h) := by
  rintro b t g src ⟨⟩ -
  cases h <;> rfl

theorem mdrain (g : Guard) (src : Src) (h : Bool) : Statement (.mdrain g src h) := by
  rintro b t g src ⟨⟩ -
  cases h <;> rfl

theorem mload (g : Guard) (src : Src) (h : Bool) : Statement (.mload g src h) := by
  rintro b t g src ⟨⟩ -
  cases h <;> rfl

theorem msetq (g : Guard) (src : Src) : Statement (.msetq g src) := by
  rintro b t g src ⟨⟩ -
  rfl

theorem msetd (g : Guard) (src : Src) : Statement (.msetd g src) := by
  rintro b t g src ⟨⟩ -
  rfl

theorem mcfg (g : Guard) (src : Src) : Statement (.mcfg g src) := by
  rintro b t g src ⟨⟩ -
  rfl

theorem cpy (g : Guard) (src : Src) : Statement (.cpy g src) := by
  rintro b t g src ⟨⟩ -
  rfl

theorem cpy2d (g : Guard) (src : Src) : Statement (.cpy2d g src) := by
  rintro b t g src ⟨⟩ -
  rfl

theorem cpy3d (g : Guard) (src : Src) : Statement (.cpy3d g src) := by
  rintro b t g src ⟨⟩ -
  rfl

theorem fill (g : Guard) (src : Src) : Statement (.fill g src) := by
  rintro b t g src ⟨⟩ -
  rfl

theorem cpst (g : Guard) (src : Src) : Statement (.cpst g src) := by
  rintro b t g src ⟨⟩ -
  rfl

theorem atom (g : Guard) (src : Src) : Statement (.atom g src) := by
  rintro b t g src ⟨⟩ -
  rfl

theorem atomnr (g : Guard) (src : Src) : Statement (.atomnr g src) := by
  rintro b t g src ⟨⟩ -
  rfl

theorem afence (g : Guard) (src : Src) : Statement (.afence g src) := by
  rintro b t g src ⟨⟩ -
  rfl

theorem gathr (g : Guard) (src : Src) : Statement (.gathr g src) := by
  rintro b t g src ⟨⟩ -
  rfl

theorem scatr (g : Guard) (src : Src) : Statement (.scatr g src) := by
  rintro b t g src ⟨⟩ -
  rfl

theorem binput (g : Guard) (src : Src) : Statement (.binput g src) := by
  rintro b t g src ⟨⟩ -
  rfl

theorem binflush (g : Guard) (src : Src) : Statement (.binflush g src) := by
  rintro b t g src ⟨⟩ -
  rfl

theorem binplay (g : Guard) (src : Src) : Statement (.binplay g src) := by
  rintro b t g src ⟨⟩ -
  rfl

theorem fqcnt (g : Guard) (src : Src) : Statement (.fqcnt g src) := by
  rintro b t g src ⟨⟩ -
  rfl

theorem tdecl (g : Guard) (src : Src) : Statement (.tdecl g src) := by
  rintro b t g src ⟨⟩ -
  rfl

theorem tld (g : Guard) (src : Src) : Statement (.tld g src) := by
  rintro b t g src ⟨⟩ -
  rfl

theorem tst (g : Guard) (src : Src) : Statement (.tst g src) := by
  rintro b t g src ⟨⟩ -
  rfl

theorem tadd (g : Guard) (src : Src) : Statement (.tadd g src) := by
  rintro b t g src ⟨⟩ -
  rfl

theorem tscan (g : Guard) (src : Src) : Statement (.tscan g src) := by
  rintro b t g src ⟨⟩ -
  rfl

theorem tnext (g : Guard) (src : Src) : Statement (.tnext g src) := by
  rintro b t g src ⟨⟩ -
  rfl

theorem tclose (g : Guard) (src : Src) : Statement (.tclose g src) := by
  rintro b t g src ⟨⟩ -
  rfl

theorem tdense (g : Guard) (src : Src) : Statement (.tdense g src) := by
  rintro b t g src ⟨⟩ -
  rfl

theorem tcount (g : Guard) (src : Src) : Statement (.tcount g src) := by
  rintro b t g src ⟨⟩ -
  rfl

theorem tpool (g : Guard) (src : Src) : Statement (.tpool g src) := by
  rintro b t g src ⟨⟩ -
  rfl

theorem rkon (g : Guard) (src : Src) : Statement (.rkon g src) := by
  rintro b t g src ⟨⟩ -
  rfl

theorem rkoff (g : Guard) (src : Src) : Statement (.rkoff g src) := by
  rintro b t g src ⟨⟩ -
  rfl

theorem rkldt (g : Guard) (src : Src) : Statement (.rkldt g src) := by
  rintro b t g src ⟨⟩ -
  rfl

theorem rkstt (g : Guard) (src : Src) : Statement (.rkstt g src) := by
  rintro b t g src ⟨⟩ -
  rfl

theorem rkkey (g : Guard) (src : Src) : Statement (.rkkey g src) := by
  rintro b t g src ⟨⟩ -
  rfl

theorem rkcmp (g : Guard) (src : Src) : Statement (.rkcmp g src) := by
  rintro b t g src ⟨⟩ -
  rfl

theorem rkwr (g : Guard) (src : Src) : Statement (.rkwr g src) := by
  rintro b t g src ⟨⟩ -
  rfl

theorem rktt (g : Guard) (src : Src) : Statement (.rktt g src) := by
  rintro b t g src ⟨⟩ -
  rfl

theorem rkcnt (g : Guard) (src : Src) : Statement (.rkcnt g src) := by
  rintro b t g src ⟨⟩ -
  rfl

theorem rkfind (g : Guard) (src : Src) : Statement (.rkfind g src) := by
  rintro b t g src ⟨⟩ -
  rfl

theorem rkmapi (g : Guard) (src : Src) : Statement (.rkmapi g src) := by
  rintro b t g src ⟨⟩ -
  rfl

theorem wset (g : Guard) (src : Src) (n : Fin 8) : Statement (.wset g src n) := by
  rintro b t g src ⟨⟩ -
  fin_cases n <;> rfl

theorem wrel (g : Guard) (src : Src) (n : Fin 8) : Statement (.wrel g src n) := by
  rintro b t g src ⟨⟩ -
  fin_cases n <;> rfl

theorem wstat (g : Guard) (src : Src) (n : Fin 8) : Statement (.wstat g src n) := by
  rintro b t g src ⟨⟩ -
  fin_cases n <;> rfl

theorem wskip (g : Guard) (src : Src) (n : Fin 8) : Statement (.wskip g src n) := by
  rintro b t g src ⟨⟩ -
  fin_cases n <;> rfl

theorem kld (g : Guard) (src : Src) : Statement (.kld g src) := by
  rintro b t g src ⟨⟩ -
  rfl

theorem kst (g : Guard) (src : Src) : Statement (.kst g src) := by
  rintro b t g src ⟨⟩ -
  rfl

theorem kmap (g : Guard) (src : Src) (f : Fin 16) : Statement (.kmap g src f) := by
  rintro b t g src ⟨⟩ -
  fin_cases f <;> rfl

theorem kpair (g : Guard) (src : Src) (o : Fin 6) : Statement (.kpair g src o) := by
  rintro b t g src ⟨⟩ -
  fin_cases o <;> rfl

theorem kcmp (g : Guard) (src : Src) : Statement (.kcmp g src) := by
  rintro b t g src ⟨⟩ -
  rfl

theorem ksort (g : Guard) (src : Src) : Statement (.ksort g src) := by
  rintro b t g src ⟨⟩ -
  rfl

theorem reclu (g : Guard) (src : Src) (m : Fin 3) : Statement (.reclu g src m) := by
  rintro b t g src ⟨⟩ -
  fin_cases m <;> rfl

theorem kremap (g : Guard) (src : Src) : Statement (.kremap g src) := by
  rintro b t g src ⟨⟩ -
  rfl

theorem kget (g : Guard) (src : Src) : Statement (.kget g src) := by
  rintro b t g src ⟨⟩ -
  rfl

theorem kset (g : Guard) (src : Src) : Statement (.kset g src) := by
  rintro b t g src ⟨⟩ -
  rfl

theorem kcnt (g : Guard) (src : Src) : Statement (.kcnt g src) := by
  rintro b t g src ⟨⟩ -
  rfl

theorem kxld (g : Guard) (src : Src) : Statement (.kxld g src) := by
  rintro b t g src ⟨⟩ -
  rfl

theorem kxst (g : Guard) (src : Src) : Statement (.kxst g src) := by
  rintro b t g src ⟨⟩ -
  rfl

theorem kfmt (g : Guard) (src : Src) : Statement (.kfmt g src) := by
  rintro b t g src ⟨⟩ -
  rfl

theorem bundleIssue (moves : List Move) : Statement (.bundleIssue moves) := by
  rintro b t g src ⟨⟩

theorem contextSwitch : Statement .contextSwitch := by
  rintro b t g src ⟨⟩

theorem resultVisible : Statement .resultVisible := by
  rintro b t g src ⟨⟩

theorem transferEffect : Statement .transferEffect := by
  rintro b t g src ⟨⟩

theorem loopStateCommit : Statement .loopStateCommit := by
  rintro b t g src ⟨⟩

theorem instructionFetch : Statement .instructionFetch := by
  rintro b t g src ⟨⟩

theorem fixedStorePerform : Statement .fixedStorePerform := by
  rintro b t g src ⟨⟩

theorem scoreboardedAccessPerform : Statement .scoreboardedAccessPerform := by
  rintro b t g src ⟨⟩

theorem amoPerform : Statement .amoPerform := by
  rintro b t g src ⟨⟩

theorem windowFill : Statement .windowFill := by
  rintro b t g src ⟨⟩

theorem mapApply : Statement .mapApply := by
  rintro b t g src ⟨⟩

theorem ownsetApply : Statement .ownsetApply := by
  rintro b t g src ⟨⟩

theorem unmapComplete : Statement .unmapComplete := by
  rintro b t g src ⟨⟩

theorem drainComplete : Statement .drainComplete := by
  rintro b t g src ⟨⟩

theorem randomWordGenerate : Statement .randomWordGenerate := by
  rintro b t g src ⟨⟩

theorem kbOperationStart : Statement .kbOperationStart := by
  rintro b t g src ⟨⟩

theorem kbOperationComplete : Statement .kbOperationComplete := by
  rintro b t g src ⟨⟩

theorem streamCapture : Statement .streamCapture := by
  rintro b t g src ⟨⟩

theorem streamVectorProduce : Statement .streamVectorProduce := by
  rintro b t g src ⟨⟩

theorem mxOperationStart : Statement .mxOperationStart := by
  rintro b t g src ⟨⟩

theorem tileLineArrival : Statement .tileLineArrival := by
  rintro b t g src ⟨⟩

theorem mmaChunk : Statement .mmaChunk := by
  rintro b t g src ⟨⟩

theorem mxOperationComplete : Statement .mxOperationComplete := by
  rintro b t g src ⟨⟩

theorem copyDispatch : Statement .copyDispatch := by
  rintro b t g src ⟨⟩

theorem copyItem : Statement .copyItem := by
  rintro b t g src ⟨⟩

theorem gondolaSteal : Statement .gondolaSteal := by
  rintro b t g src ⟨⟩

theorem engineCommandComplete : Statement .engineCommandComplete := by
  rintro b t g src ⟨⟩

theorem cpstPerform : Statement .cpstPerform := by
  rintro b t g src ⟨⟩

theorem atomicAccept : Statement .atomicAccept := by
  rintro b t g src ⟨⟩

theorem atomicPerform : Statement .atomicPerform := by
  rintro b t g src ⟨⟩

theorem nearAtomicPerform : Statement .nearAtomicPerform := by
  rintro b t g src ⟨⟩

theorem lineMove : Statement .lineMove := by
  rintro b t g src ⟨⟩

theorem accessForward : Statement .accessForward := by
  rintro b t g src ⟨⟩

theorem endMarker : Statement .endMarker := by
  rintro b t g src ⟨⟩

theorem indexBatch : Statement .indexBatch := by
  rintro b t g src ⟨⟩

theorem faultQueueReplay : Statement .faultQueueReplay := by
  rintro b t g src ⟨⟩

theorem priResponse : Statement .priResponse := by
  rintro b t g src ⟨⟩

theorem atsTranslationReply : Statement .atsTranslationReply := by
  rintro b t g src ⟨⟩

theorem binRecordPlace : Statement .binRecordPlace := by
  rintro b t g src ⟨⟩

theorem binPlay : Statement .binPlay := by
  rintro b t g src ⟨⟩

theorem treeUnitOperation : Statement .treeUnitOperation := by
  rintro b t g src ⟨⟩

theorem rkonAdmit : Statement .rkonAdmit := by
  rintro b t g src ⟨⟩

theorem rkonSliceSwitch : Statement .rkonSliceSwitch := by
  rintro b t g src ⟨⟩

theorem rinkSetAdmit : Statement .rinkSetAdmit := by
  rintro b t g src ⟨⟩

theorem postQueuePerform : Statement .postQueuePerform := by
  rintro b t g src ⟨⟩

theorem contextEnd : Statement .contextEnd := by
  rintro b t g src ⟨⟩

theorem joinStep : Statement .joinStep := by
  rintro b t g src ⟨⟩

theorem liftPop : Statement .liftPop := by
  rintro b t g src ⟨⟩

theorem powerGate : Statement .powerGate := by
  rintro b t g src ⟨⟩

theorem coreWake : Statement .coreWake := by
  rintro b t g src ⟨⟩

theorem groupArrival : Statement .groupArrival := by
  rintro b t g src ⟨⟩

theorem twaitbWake : Statement .twaitbWake := by
  rintro b t g src ⟨⟩

theorem launchWrite : Statement .launchWrite := by
  rintro b t g src ⟨⟩

theorem launchClear : Statement .launchClear := by
  rintro b t g src ⟨⟩

theorem invalidationRequest : Statement .invalidationRequest := by
  rintro b t g src ⟨⟩

theorem invalidationAck : Statement .invalidationAck := by
  rintro b t g src ⟨⟩

theorem invalidationComplete : Statement .invalidationComplete := by
  rintro b t g src ⟨⟩

theorem invalidationWatchdog : Statement .invalidationWatchdog := by
  rintro b t g src ⟨⟩

theorem trapTake : Statement .trapTake := by
  rintro b t g src ⟨⟩

theorem preemptRequest : Statement .preemptRequest := by
  rintro b t g src ⟨⟩

theorem contextSave : Statement .contextSave := by
  rintro b t g src ⟨⟩

theorem haltedCommandComplete : Statement .haltedCommandComplete := by
  rintro b t g src ⟨⟩

theorem contextResume : Statement .contextResume := by
  rintro b t g src ⟨⟩

theorem assistService : Statement .assistService := by
  rintro b t g src ⟨⟩

theorem faultDetect : Statement .faultDetect := by
  rintro b t g src ⟨⟩

theorem patrolScrub : Statement .patrolScrub := by
  rintro b t g src ⟨⟩

theorem secureBoot : Statement .secureBoot := by
  rintro b t g src ⟨⟩

theorem portTrain : Statement .portTrain := by
  rintro b t g src ⟨⟩

theorem portRekey : Statement .portRekey := by
  rintro b t g src ⟨⟩

theorem linkFrameReceive : Statement .linkFrameReceive := by
  rintro b t g src ⟨⟩

theorem portDown : Statement .portDown := by
  rintro b t g src ⟨⟩

theorem powerCapTick : Statement .powerCapTick := by
  rintro b t g src ⟨⟩

theorem hostBarAccess : Statement .hostBarAccess := by
  rintro b t g src ⟨⟩

theorem tlogbWrite : Statement .tlogbWrite := by
  rintro b t g src ⟨⟩

theorem registerWrite : Statement .registerWrite := by
  rintro b t g src ⟨⟩

theorem localinit : Statement .localinit := by
  rintro b t g src ⟨⟩

theorem attest : Statement .attest := by
  rintro b t g src ⟨⟩

theorem certs : Statement .certs := by
  rintro b t g src ⟨⟩

theorem fwload : Statement .fwload := by
  rintro b t g src ⟨⟩

theorem svnset : Statement .svnset := by
  rintro b t g src ⟨⟩

theorem migrate : Statement .migrate := by
  rintro b t g src ⟨⟩

theorem devnum : Statement .devnum := by
  rintro b t g src ⟨⟩

theorem powerLoss : Statement .powerLoss := by
  rintro b t g src ⟨⟩

end Sys2Proof.Laws.TriggerCode
end

