-- ==== Sys2Proof/Laws/State.lean ====
section
/-! SUPPORT. One lemma for each field and each update of the state: what the update leaves as it was. -/

namespace Sys2Proof.Machine

/-! ### A v register written -/

@[simp] theorem Ctx.writeV_st (c : Ctx) (i : Fin 32) (x : Vec) : (c.writeV i x).st = c.st := rfl
@[simp] theorem Ctx.writeV_pc (c : Ctx) (i : Fin 32) (x : Vec) : (c.writeV i x).pc = c.pc := rfl
@[simp] theorem Ctx.writeV_s (c : Ctx) (i : Fin 32) (x : Vec) : (c.writeV i x).s = c.s := rfl
@[simp] theorem Ctx.writeV_m (c : Ctx) (i : Fin 32) (x : Vec) : (c.writeV i x).m = c.m := rfl
@[simp] theorem Ctx.writeV_c (c : Ctx) (i : Fin 32) (x : Vec) : (c.writeV i x).c = c.c := rfl
@[simp] theorem Ctx.writeV_psP (c : Ctx) (i : Fin 32) (x : Vec) : (c.writeV i x).psP = c.psP := rfl
@[simp] theorem Ctx.writeV_psB (c : Ctx) (i : Fin 32) (x : Vec) : (c.writeV i x).psB = c.psB := rfl
@[simp] theorem Ctx.writeV_k (c : Ctx) (i : Fin 32) (x : Vec) : (c.writeV i x).k = c.k := rfl
@[simp] theorem Ctx.writeV_x (c : Ctx) (i : Fin 32) (x : Vec) : (c.writeV i x).x = c.x := rfl
@[simp] theorem Ctx.writeV_kOld (c : Ctx) (i : Fin 32) (x : Vec) : (c.writeV i x).kOld = c.kOld := rfl
@[simp] theorem Ctx.writeV_w (c : Ctx) (i : Fin 32) (x : Vec) : (c.writeV i x).w = c.w := rfl
@[simp] theorem Ctx.writeV_lat (c : Ctx) (i : Fin 32) (x : Vec) : (c.writeV i x).lat = c.lat := rfl
@[simp] theorem Ctx.writeV_bsWin (c : Ctx) (i : Fin 32) (x : Vec) : (c.writeV i x).bsWin = c.bsWin := rfl
@[simp] theorem Ctx.writeV_bsCnt (c : Ctx) (i : Fin 32) (x : Vec) : (c.writeV i x).bsCnt = c.bsCnt := rfl
@[simp] theorem Ctx.writeV_fpc (c : Ctx) (i : Fin 32) (x : Vec) : (c.writeV i x).fpc = c.fpc := rfl
@[simp] theorem Ctx.writeV_stat (c : Ctx) (i : Fin 32) (x : Vec) : (c.writeV i x).stat = c.stat := rfl
@[simp] theorem Ctx.writeV_kpol (c : Ctx) (i : Fin 32) (x : Vec) : (c.writeV i x).kpol = c.kpol := rfl
@[simp] theorem Ctx.writeV_ixpol (c : Ctx) (i : Fin 32) (x : Vec) : (c.writeV i x).ixpol = c.ixpol := rfl
@[simp] theorem Ctx.writeV_lc (c : Ctx) (i : Fin 32) (x : Vec) : (c.writeV i x).lc = c.lc := rfl
@[simp] theorem Ctx.writeV_ecCnt (c : Ctx) (i : Fin 32) (x : Vec) : (c.writeV i x).ecCnt = c.ecCnt := rfl
@[simp] theorem Ctx.writeV_gmem (c : Ctx) (i : Fin 32) (x : Vec) : (c.writeV i x).gmem = c.gmem := rfl
@[simp] theorem Ctx.writeV_dbg (c : Ctx) (i : Fin 32) (x : Vec) : (c.writeV i x).dbg = c.dbg := rfl
@[simp] theorem Ctx.writeV_rbseed (c : Ctx) (i : Fin 32) (x : Vec) : (c.writeV i x).rbseed = c.rbseed := rfl
@[simp] theorem Ctx.writeV_rbn (c : Ctx) (i : Fin 32) (x : Vec) : (c.writeV i x).rbn = c.rbn := rfl
@[simp] theorem Ctx.writeV_rbq (c : Ctx) (i : Fin 32) (x : Vec) : (c.writeV i x).rbq = c.rbq := rfl
@[simp] theorem Ctx.writeV_cwm (c : Ctx) (i : Fin 32) (x : Vec) : (c.writeV i x).cwm = c.cwm := rfl
@[simp] theorem Ctx.writeV_nextId (c : Ctx) (i : Fin 32) (x : Vec) : (c.writeV i x).nextId = c.nextId := rfl
@[simp] theorem Ctx.writeV_joinp (c : Ctx) (i : Fin 32) (x : Vec) : (c.writeV i x).joinp = c.joinp := rfl
@[simp] theorem Ctx.writeV_pasid (c : Ctx) (i : Fin 32) (x : Vec) : (c.writeV i x).pasid = c.pasid := rfl
@[simp] theorem Ctx.writeV_savea (c : Ctx) (i : Fin 32) (x : Vec) : (c.writeV i x).savea = c.savea := rfl
@[simp] theorem Ctx.writeV_ld (c : Ctx) (i : Fin 32) (x : Vec) : (c.writeV i x).ld = c.ld := rfl
@[simp] theorem Ctx.writeV_stc (c : Ctx) (i : Fin 32) (x : Vec) : (c.writeV i x).stc = c.stc := rfl
@[simp] theorem Ctx.writeV_cp (c : Ctx) (i : Fin 32) (x : Vec) : (c.writeV i x).cp = c.cp := rfl
@[simp] theorem Ctx.writeV_tl (c : Ctx) (i : Fin 32) (x : Vec) : (c.writeV i x).tl = c.tl := rfl
@[simp] theorem Ctx.writeV_pendS (c : Ctx) (i : Fin 32) (x : Vec) : (c.writeV i x).pendS = c.pendS := rfl
@[simp] theorem Ctx.writeV_pendV (c : Ctx) (i : Fin 32) (x : Vec) : (c.writeV i x).pendV = c.pendV := rfl
@[simp] theorem Ctx.writeV_pendC (c : Ctx) (i : Fin 32) (x : Vec) : (c.writeV i x).pendC = c.pendC := rfl
@[simp] theorem Ctx.writeV_pend (c : Ctx) (i : Fin 32) (x : Vec) : (c.writeV i x).pend = c.pend := rfl
@[simp] theorem Ctx.writeV_stores (c : Ctx) (i : Fin 32) (x : Vec) : (c.writeV i x).stores = c.stores := rfl
@[simp] theorem Ctx.writeV_xfer (c : Ctx) (i : Fin 32) (x : Vec) : (c.writeV i x).xfer = c.xfer := rfl
@[simp] theorem Ctx.writeV_loop (c : Ctx) (i : Fin 32) (x : Vec) : (c.writeV i x).loop = c.loop := rfl
@[simp] theorem Ctx.writeV_applies (c : Ctx) (i : Fin 32) (x : Vec) : (c.writeV i x).applies = c.applies := rfl
@[simp] theorem Ctx.writeV_sb (c : Ctx) (i : Fin 32) (x : Vec) : (c.writeV i x).sb = c.sb := rfl
@[simp] theorem Ctx.writeV_post (c : Ctx) (i : Fin 32) (x : Vec) : (c.writeV i x).post = c.post := rfl
@[simp] theorem Ctx.writeV_seq (c : Ctx) (i : Fin 32) (x : Vec) : (c.writeV i x).seq = c.seq := rfl
@[simp] theorem Ctx.writeV_lastSeq (c : Ctx) (i : Fin 32) (x : Vec) : (c.writeV i x).lastSeq = c.lastSeq := rfl
@[simp] theorem Ctx.writeV_recent (c : Ctx) (i : Fin 32) (x : Vec) : (c.writeV i x).recent = c.recent := rfl
@[simp] theorem Ctx.writeV_waited (c : Ctx) (i : Fin 32) (x : Vec) : (c.writeV i x).waited = c.waited := rfl
@[simp] theorem Ctx.writeV_issued (c : Ctx) (i : Fin 32) (x : Vec) : (c.writeV i x).issued = c.issued := rfl
@[simp] theorem Ctx.writeV_landed (c : Ctx) (i : Fin 32) (x : Vec) : (c.writeV i x).landed = c.landed := rfl
@[simp] theorem Ctx.writeV_bits (c : Ctx) (i : Fin 32) (x : Vec) : (c.writeV i x).bits = c.bits := rfl
@[simp] theorem Ctx.writeV_gbar (c : Ctx) (i : Fin 32) (x : Vec) : (c.writeV i x).gbar = c.gbar := rfl
@[simp] theorem Ctx.writeV_probe (c : Ctx) (i : Fin 32) (x : Vec) : (c.writeV i x).probe = c.probe := rfl
@[simp] theorem Ctx.writeV_qpt (c : Ctx) (i : Fin 32) (x : Vec) : (c.writeV i x).qpt = c.qpt := rfl
@[simp] theorem Ctx.writeV_tw (c : Ctx) (i : Fin 32) (x : Vec) : (c.writeV i x).tw = c.tw := rfl
@[simp] theorem Ctx.writeV_ack (c : Ctx) (i : Fin 32) (x : Vec) : (c.writeV i x).ack = c.ack := rfl
@[simp] theorem Ctx.writeV_due (c : Ctx) (i : Fin 32) (x : Vec) : (c.writeV i x).due = c.due := rfl
@[simp] theorem Ctx.writeV_trap (c : Ctx) (i : Fin 32) (x : Vec) : (c.writeV i x).trap = c.trap := rfl
@[simp] theorem Ctx.writeV_assist (c : Ctx) (i : Fin 32) (x : Vec) : (c.writeV i x).assist = c.assist := rfl
@[simp] theorem Ctx.writeV_preempt (c : Ctx) (i : Fin 32) (x : Vec) : (c.writeV i x).preempt = c.preempt := rfl
@[simp] theorem Ctx.writeV_heldKb (c : Ctx) (i : Fin 32) (x : Vec) : (c.writeV i x).heldKb = c.heldKb := rfl
@[simp] theorem Ctx.writeV_heldMx (c : Ctx) (i : Fin 32) (x : Vec) : (c.writeV i x).heldMx = c.heldMx := rfl
@[simp] theorem Ctx.writeV_dbgHold (c : Ctx) (i : Fin 32) (x : Vec) : (c.writeV i x).dbgHold = c.dbgHold := rfl
@[simp] theorem Ctx.writeV_haltAt (c : Ctx) (i : Fin 32) (x : Vec) : (c.writeV i x).haltAt = c.haltAt := rfl
@[simp] theorem Ctx.writeV_blocked (c : Ctx) (i : Fin 32) (x : Vec) : (c.writeV i x).blocked = c.blocked := rfl
@[simp] theorem Ctx.writeV_quiet (c : Ctx) (i : Fin 32) (x : Vec) : (c.writeV i x).quiet = c.quiet := rfl

/-! ### A lane mask written -/

@[simp] theorem Ctx.writeM_st (c : Ctx) (i : Fin 8) (x : Word) : (c.writeM i x).st = c.st := rfl
@[simp] theorem Ctx.writeM_pc (c : Ctx) (i : Fin 8) (x : Word) : (c.writeM i x).pc = c.pc := rfl
@[simp] theorem Ctx.writeM_s (c : Ctx) (i : Fin 8) (x : Word) : (c.writeM i x).s = c.s := rfl
@[simp] theorem Ctx.writeM_v (c : Ctx) (i : Fin 8) (x : Word) : (c.writeM i x).v = c.v := rfl
@[simp] theorem Ctx.writeM_c (c : Ctx) (i : Fin 8) (x : Word) : (c.writeM i x).c = c.c := rfl
@[simp] theorem Ctx.writeM_psP (c : Ctx) (i : Fin 8) (x : Word) : (c.writeM i x).psP = c.psP := rfl
@[simp] theorem Ctx.writeM_psB (c : Ctx) (i : Fin 8) (x : Word) : (c.writeM i x).psB = c.psB := rfl
@[simp] theorem Ctx.writeM_k (c : Ctx) (i : Fin 8) (x : Word) : (c.writeM i x).k = c.k := rfl
@[simp] theorem Ctx.writeM_x (c : Ctx) (i : Fin 8) (x : Word) : (c.writeM i x).x = c.x := rfl
@[simp] theorem Ctx.writeM_kOld (c : Ctx) (i : Fin 8) (x : Word) : (c.writeM i x).kOld = c.kOld := rfl
@[simp] theorem Ctx.writeM_w (c : Ctx) (i : Fin 8) (x : Word) : (c.writeM i x).w = c.w := rfl
@[simp] theorem Ctx.writeM_lat (c : Ctx) (i : Fin 8) (x : Word) : (c.writeM i x).lat = c.lat := rfl
@[simp] theorem Ctx.writeM_bsWin (c : Ctx) (i : Fin 8) (x : Word) : (c.writeM i x).bsWin = c.bsWin := rfl
@[simp] theorem Ctx.writeM_bsCnt (c : Ctx) (i : Fin 8) (x : Word) : (c.writeM i x).bsCnt = c.bsCnt := rfl
@[simp] theorem Ctx.writeM_fpc (c : Ctx) (i : Fin 8) (x : Word) : (c.writeM i x).fpc = c.fpc := rfl
@[simp] theorem Ctx.writeM_stat (c : Ctx) (i : Fin 8) (x : Word) : (c.writeM i x).stat = c.stat := rfl
@[simp] theorem Ctx.writeM_kpol (c : Ctx) (i : Fin 8) (x : Word) : (c.writeM i x).kpol = c.kpol := rfl
@[simp] theorem Ctx.writeM_ixpol (c : Ctx) (i : Fin 8) (x : Word) : (c.writeM i x).ixpol = c.ixpol := rfl
@[simp] theorem Ctx.writeM_lc (c : Ctx) (i : Fin 8) (x : Word) : (c.writeM i x).lc = c.lc := rfl
@[simp] theorem Ctx.writeM_ecCnt (c : Ctx) (i : Fin 8) (x : Word) : (c.writeM i x).ecCnt = c.ecCnt := rfl
@[simp] theorem Ctx.writeM_gmem (c : Ctx) (i : Fin 8) (x : Word) : (c.writeM i x).gmem = c.gmem := rfl
@[simp] theorem Ctx.writeM_dbg (c : Ctx) (i : Fin 8) (x : Word) : (c.writeM i x).dbg = c.dbg := rfl
@[simp] theorem Ctx.writeM_rbseed (c : Ctx) (i : Fin 8) (x : Word) : (c.writeM i x).rbseed = c.rbseed := rfl
@[simp] theorem Ctx.writeM_rbn (c : Ctx) (i : Fin 8) (x : Word) : (c.writeM i x).rbn = c.rbn := rfl
@[simp] theorem Ctx.writeM_rbq (c : Ctx) (i : Fin 8) (x : Word) : (c.writeM i x).rbq = c.rbq := rfl
@[simp] theorem Ctx.writeM_cwm (c : Ctx) (i : Fin 8) (x : Word) : (c.writeM i x).cwm = c.cwm := rfl
@[simp] theorem Ctx.writeM_nextId (c : Ctx) (i : Fin 8) (x : Word) : (c.writeM i x).nextId = c.nextId := rfl
@[simp] theorem Ctx.writeM_joinp (c : Ctx) (i : Fin 8) (x : Word) : (c.writeM i x).joinp = c.joinp := rfl
@[simp] theorem Ctx.writeM_pasid (c : Ctx) (i : Fin 8) (x : Word) : (c.writeM i x).pasid = c.pasid := rfl
@[simp] theorem Ctx.writeM_savea (c : Ctx) (i : Fin 8) (x : Word) : (c.writeM i x).savea = c.savea := rfl
@[simp] theorem Ctx.writeM_ld (c : Ctx) (i : Fin 8) (x : Word) : (c.writeM i x).ld = c.ld := rfl
@[simp] theorem Ctx.writeM_stc (c : Ctx) (i : Fin 8) (x : Word) : (c.writeM i x).stc = c.stc := rfl
@[simp] theorem Ctx.writeM_cp (c : Ctx) (i : Fin 8) (x : Word) : (c.writeM i x).cp = c.cp := rfl
@[simp] theorem Ctx.writeM_tl (c : Ctx) (i : Fin 8) (x : Word) : (c.writeM i x).tl = c.tl := rfl
@[simp] theorem Ctx.writeM_pendS (c : Ctx) (i : Fin 8) (x : Word) : (c.writeM i x).pendS = c.pendS := rfl
@[simp] theorem Ctx.writeM_pendV (c : Ctx) (i : Fin 8) (x : Word) : (c.writeM i x).pendV = c.pendV := rfl
@[simp] theorem Ctx.writeM_pendC (c : Ctx) (i : Fin 8) (x : Word) : (c.writeM i x).pendC = c.pendC := rfl
@[simp] theorem Ctx.writeM_pend (c : Ctx) (i : Fin 8) (x : Word) : (c.writeM i x).pend = c.pend := rfl
@[simp] theorem Ctx.writeM_stores (c : Ctx) (i : Fin 8) (x : Word) : (c.writeM i x).stores = c.stores := rfl
@[simp] theorem Ctx.writeM_xfer (c : Ctx) (i : Fin 8) (x : Word) : (c.writeM i x).xfer = c.xfer := rfl
@[simp] theorem Ctx.writeM_loop (c : Ctx) (i : Fin 8) (x : Word) : (c.writeM i x).loop = c.loop := rfl
@[simp] theorem Ctx.writeM_applies (c : Ctx) (i : Fin 8) (x : Word) : (c.writeM i x).applies = c.applies := rfl
@[simp] theorem Ctx.writeM_sb (c : Ctx) (i : Fin 8) (x : Word) : (c.writeM i x).sb = c.sb := rfl
@[simp] theorem Ctx.writeM_post (c : Ctx) (i : Fin 8) (x : Word) : (c.writeM i x).post = c.post := rfl
@[simp] theorem Ctx.writeM_seq (c : Ctx) (i : Fin 8) (x : Word) : (c.writeM i x).seq = c.seq := rfl
@[simp] theorem Ctx.writeM_lastSeq (c : Ctx) (i : Fin 8) (x : Word) : (c.writeM i x).lastSeq = c.lastSeq := rfl
@[simp] theorem Ctx.writeM_recent (c : Ctx) (i : Fin 8) (x : Word) : (c.writeM i x).recent = c.recent := rfl
@[simp] theorem Ctx.writeM_waited (c : Ctx) (i : Fin 8) (x : Word) : (c.writeM i x).waited = c.waited := rfl
@[simp] theorem Ctx.writeM_issued (c : Ctx) (i : Fin 8) (x : Word) : (c.writeM i x).issued = c.issued := rfl
@[simp] theorem Ctx.writeM_landed (c : Ctx) (i : Fin 8) (x : Word) : (c.writeM i x).landed = c.landed := rfl
@[simp] theorem Ctx.writeM_bits (c : Ctx) (i : Fin 8) (x : Word) : (c.writeM i x).bits = c.bits := rfl
@[simp] theorem Ctx.writeM_gbar (c : Ctx) (i : Fin 8) (x : Word) : (c.writeM i x).gbar = c.gbar := rfl
@[simp] theorem Ctx.writeM_probe (c : Ctx) (i : Fin 8) (x : Word) : (c.writeM i x).probe = c.probe := rfl
@[simp] theorem Ctx.writeM_qpt (c : Ctx) (i : Fin 8) (x : Word) : (c.writeM i x).qpt = c.qpt := rfl
@[simp] theorem Ctx.writeM_tw (c : Ctx) (i : Fin 8) (x : Word) : (c.writeM i x).tw = c.tw := rfl
@[simp] theorem Ctx.writeM_ack (c : Ctx) (i : Fin 8) (x : Word) : (c.writeM i x).ack = c.ack := rfl
@[simp] theorem Ctx.writeM_due (c : Ctx) (i : Fin 8) (x : Word) : (c.writeM i x).due = c.due := rfl
@[simp] theorem Ctx.writeM_trap (c : Ctx) (i : Fin 8) (x : Word) : (c.writeM i x).trap = c.trap := rfl
@[simp] theorem Ctx.writeM_assist (c : Ctx) (i : Fin 8) (x : Word) : (c.writeM i x).assist = c.assist := rfl
@[simp] theorem Ctx.writeM_preempt (c : Ctx) (i : Fin 8) (x : Word) : (c.writeM i x).preempt = c.preempt := rfl
@[simp] theorem Ctx.writeM_heldKb (c : Ctx) (i : Fin 8) (x : Word) : (c.writeM i x).heldKb = c.heldKb := rfl
@[simp] theorem Ctx.writeM_heldMx (c : Ctx) (i : Fin 8) (x : Word) : (c.writeM i x).heldMx = c.heldMx := rfl
@[simp] theorem Ctx.writeM_dbgHold (c : Ctx) (i : Fin 8) (x : Word) : (c.writeM i x).dbgHold = c.dbgHold := rfl
@[simp] theorem Ctx.writeM_haltAt (c : Ctx) (i : Fin 8) (x : Word) : (c.writeM i x).haltAt = c.haltAt := rfl
@[simp] theorem Ctx.writeM_blocked (c : Ctx) (i : Fin 8) (x : Word) : (c.writeM i x).blocked = c.blocked := rfl
@[simp] theorem Ctx.writeM_quiet (c : Ctx) (i : Fin 8) (x : Word) : (c.writeM i x).quiet = c.quiet := rfl

/-! ### A predicate written -/

@[simp] theorem Ctx.writeC_st (c : Ctx) (i : Fin 4) (x : Bool) : (c.writeC i x).st = c.st := rfl
@[simp] theorem Ctx.writeC_pc (c : Ctx) (i : Fin 4) (x : Bool) : (c.writeC i x).pc = c.pc := rfl
@[simp] theorem Ctx.writeC_s (c : Ctx) (i : Fin 4) (x : Bool) : (c.writeC i x).s = c.s := rfl
@[simp] theorem Ctx.writeC_v (c : Ctx) (i : Fin 4) (x : Bool) : (c.writeC i x).v = c.v := rfl
@[simp] theorem Ctx.writeC_m (c : Ctx) (i : Fin 4) (x : Bool) : (c.writeC i x).m = c.m := rfl
@[simp] theorem Ctx.writeC_psP (c : Ctx) (i : Fin 4) (x : Bool) : (c.writeC i x).psP = c.psP := rfl
@[simp] theorem Ctx.writeC_psB (c : Ctx) (i : Fin 4) (x : Bool) : (c.writeC i x).psB = c.psB := rfl
@[simp] theorem Ctx.writeC_k (c : Ctx) (i : Fin 4) (x : Bool) : (c.writeC i x).k = c.k := rfl
@[simp] theorem Ctx.writeC_x (c : Ctx) (i : Fin 4) (x : Bool) : (c.writeC i x).x = c.x := rfl
@[simp] theorem Ctx.writeC_kOld (c : Ctx) (i : Fin 4) (x : Bool) : (c.writeC i x).kOld = c.kOld := rfl
@[simp] theorem Ctx.writeC_w (c : Ctx) (i : Fin 4) (x : Bool) : (c.writeC i x).w = c.w := rfl
@[simp] theorem Ctx.writeC_lat (c : Ctx) (i : Fin 4) (x : Bool) : (c.writeC i x).lat = c.lat := rfl
@[simp] theorem Ctx.writeC_bsWin (c : Ctx) (i : Fin 4) (x : Bool) : (c.writeC i x).bsWin = c.bsWin := rfl
@[simp] theorem Ctx.writeC_bsCnt (c : Ctx) (i : Fin 4) (x : Bool) : (c.writeC i x).bsCnt = c.bsCnt := rfl
@[simp] theorem Ctx.writeC_fpc (c : Ctx) (i : Fin 4) (x : Bool) : (c.writeC i x).fpc = c.fpc := rfl
@[simp] theorem Ctx.writeC_stat (c : Ctx) (i : Fin 4) (x : Bool) : (c.writeC i x).stat = c.stat := rfl
@[simp] theorem Ctx.writeC_kpol (c : Ctx) (i : Fin 4) (x : Bool) : (c.writeC i x).kpol = c.kpol := rfl
@[simp] theorem Ctx.writeC_ixpol (c : Ctx) (i : Fin 4) (x : Bool) : (c.writeC i x).ixpol = c.ixpol := rfl
@[simp] theorem Ctx.writeC_lc (c : Ctx) (i : Fin 4) (x : Bool) : (c.writeC i x).lc = c.lc := rfl
@[simp] theorem Ctx.writeC_ecCnt (c : Ctx) (i : Fin 4) (x : Bool) : (c.writeC i x).ecCnt = c.ecCnt := rfl
@[simp] theorem Ctx.writeC_gmem (c : Ctx) (i : Fin 4) (x : Bool) : (c.writeC i x).gmem = c.gmem := rfl
@[simp] theorem Ctx.writeC_dbg (c : Ctx) (i : Fin 4) (x : Bool) : (c.writeC i x).dbg = c.dbg := rfl
@[simp] theorem Ctx.writeC_rbseed (c : Ctx) (i : Fin 4) (x : Bool) : (c.writeC i x).rbseed = c.rbseed := rfl
@[simp] theorem Ctx.writeC_rbn (c : Ctx) (i : Fin 4) (x : Bool) : (c.writeC i x).rbn = c.rbn := rfl
@[simp] theorem Ctx.writeC_rbq (c : Ctx) (i : Fin 4) (x : Bool) : (c.writeC i x).rbq = c.rbq := rfl
@[simp] theorem Ctx.writeC_cwm (c : Ctx) (i : Fin 4) (x : Bool) : (c.writeC i x).cwm = c.cwm := rfl
@[simp] theorem Ctx.writeC_nextId (c : Ctx) (i : Fin 4) (x : Bool) : (c.writeC i x).nextId = c.nextId := rfl
@[simp] theorem Ctx.writeC_joinp (c : Ctx) (i : Fin 4) (x : Bool) : (c.writeC i x).joinp = c.joinp := rfl
@[simp] theorem Ctx.writeC_pasid (c : Ctx) (i : Fin 4) (x : Bool) : (c.writeC i x).pasid = c.pasid := rfl
@[simp] theorem Ctx.writeC_savea (c : Ctx) (i : Fin 4) (x : Bool) : (c.writeC i x).savea = c.savea := rfl
@[simp] theorem Ctx.writeC_ld (c : Ctx) (i : Fin 4) (x : Bool) : (c.writeC i x).ld = c.ld := rfl
@[simp] theorem Ctx.writeC_stc (c : Ctx) (i : Fin 4) (x : Bool) : (c.writeC i x).stc = c.stc := rfl
@[simp] theorem Ctx.writeC_cp (c : Ctx) (i : Fin 4) (x : Bool) : (c.writeC i x).cp = c.cp := rfl
@[simp] theorem Ctx.writeC_tl (c : Ctx) (i : Fin 4) (x : Bool) : (c.writeC i x).tl = c.tl := rfl
@[simp] theorem Ctx.writeC_pendS (c : Ctx) (i : Fin 4) (x : Bool) : (c.writeC i x).pendS = c.pendS := rfl
@[simp] theorem Ctx.writeC_pendV (c : Ctx) (i : Fin 4) (x : Bool) : (c.writeC i x).pendV = c.pendV := rfl
@[simp] theorem Ctx.writeC_pendC (c : Ctx) (i : Fin 4) (x : Bool) : (c.writeC i x).pendC = c.pendC := rfl
@[simp] theorem Ctx.writeC_pend (c : Ctx) (i : Fin 4) (x : Bool) : (c.writeC i x).pend = c.pend := rfl
@[simp] theorem Ctx.writeC_stores (c : Ctx) (i : Fin 4) (x : Bool) : (c.writeC i x).stores = c.stores := rfl
@[simp] theorem Ctx.writeC_xfer (c : Ctx) (i : Fin 4) (x : Bool) : (c.writeC i x).xfer = c.xfer := rfl
@[simp] theorem Ctx.writeC_loop (c : Ctx) (i : Fin 4) (x : Bool) : (c.writeC i x).loop = c.loop := rfl
@[simp] theorem Ctx.writeC_applies (c : Ctx) (i : Fin 4) (x : Bool) : (c.writeC i x).applies = c.applies := rfl
@[simp] theorem Ctx.writeC_sb (c : Ctx) (i : Fin 4) (x : Bool) : (c.writeC i x).sb = c.sb := rfl
@[simp] theorem Ctx.writeC_post (c : Ctx) (i : Fin 4) (x : Bool) : (c.writeC i x).post = c.post := rfl
@[simp] theorem Ctx.writeC_seq (c : Ctx) (i : Fin 4) (x : Bool) : (c.writeC i x).seq = c.seq := rfl
@[simp] theorem Ctx.writeC_lastSeq (c : Ctx) (i : Fin 4) (x : Bool) : (c.writeC i x).lastSeq = c.lastSeq := rfl
@[simp] theorem Ctx.writeC_recent (c : Ctx) (i : Fin 4) (x : Bool) : (c.writeC i x).recent = c.recent := rfl
@[simp] theorem Ctx.writeC_waited (c : Ctx) (i : Fin 4) (x : Bool) : (c.writeC i x).waited = c.waited := rfl
@[simp] theorem Ctx.writeC_issued (c : Ctx) (i : Fin 4) (x : Bool) : (c.writeC i x).issued = c.issued := rfl
@[simp] theorem Ctx.writeC_landed (c : Ctx) (i : Fin 4) (x : Bool) : (c.writeC i x).landed = c.landed := rfl
@[simp] theorem Ctx.writeC_bits (c : Ctx) (i : Fin 4) (x : Bool) : (c.writeC i x).bits = c.bits := rfl
@[simp] theorem Ctx.writeC_gbar (c : Ctx) (i : Fin 4) (x : Bool) : (c.writeC i x).gbar = c.gbar := rfl
@[simp] theorem Ctx.writeC_probe (c : Ctx) (i : Fin 4) (x : Bool) : (c.writeC i x).probe = c.probe := rfl
@[simp] theorem Ctx.writeC_qpt (c : Ctx) (i : Fin 4) (x : Bool) : (c.writeC i x).qpt = c.qpt := rfl
@[simp] theorem Ctx.writeC_tw (c : Ctx) (i : Fin 4) (x : Bool) : (c.writeC i x).tw = c.tw := rfl
@[simp] theorem Ctx.writeC_ack (c : Ctx) (i : Fin 4) (x : Bool) : (c.writeC i x).ack = c.ack := rfl
@[simp] theorem Ctx.writeC_due (c : Ctx) (i : Fin 4) (x : Bool) : (c.writeC i x).due = c.due := rfl
@[simp] theorem Ctx.writeC_trap (c : Ctx) (i : Fin 4) (x : Bool) : (c.writeC i x).trap = c.trap := rfl
@[simp] theorem Ctx.writeC_assist (c : Ctx) (i : Fin 4) (x : Bool) : (c.writeC i x).assist = c.assist := rfl
@[simp] theorem Ctx.writeC_preempt (c : Ctx) (i : Fin 4) (x : Bool) : (c.writeC i x).preempt = c.preempt := rfl
@[simp] theorem Ctx.writeC_heldKb (c : Ctx) (i : Fin 4) (x : Bool) : (c.writeC i x).heldKb = c.heldKb := rfl
@[simp] theorem Ctx.writeC_heldMx (c : Ctx) (i : Fin 4) (x : Bool) : (c.writeC i x).heldMx = c.heldMx := rfl
@[simp] theorem Ctx.writeC_dbgHold (c : Ctx) (i : Fin 4) (x : Bool) : (c.writeC i x).dbgHold = c.dbgHold := rfl
@[simp] theorem Ctx.writeC_haltAt (c : Ctx) (i : Fin 4) (x : Bool) : (c.writeC i x).haltAt = c.haltAt := rfl
@[simp] theorem Ctx.writeC_blocked (c : Ctx) (i : Fin 4) (x : Bool) : (c.writeC i x).blocked = c.blocked := rfl
@[simp] theorem Ctx.writeC_quiet (c : Ctx) (i : Fin 4) (x : Bool) : (c.writeC i x).quiet = c.quiet := rfl

/-! ### An s register written -/

@[simp] theorem Ctx.writeS_st (c : Ctx) (i : Fin 64) (x : Word) : (c.writeS i x).st = c.st := by unfold Ctx.writeS; split <;> rfl
@[simp] theorem Ctx.writeS_pc (c : Ctx) (i : Fin 64) (x : Word) : (c.writeS i x).pc = c.pc := by unfold Ctx.writeS; split <;> rfl
@[simp] theorem Ctx.writeS_v (c : Ctx) (i : Fin 64) (x : Word) : (c.writeS i x).v = c.v := by unfold Ctx.writeS; split <;> rfl
@[simp] theorem Ctx.writeS_m (c : Ctx) (i : Fin 64) (x : Word) : (c.writeS i x).m = c.m := by unfold Ctx.writeS; split <;> rfl
@[simp] theorem Ctx.writeS_c (c : Ctx) (i : Fin 64) (x : Word) : (c.writeS i x).c = c.c := by unfold Ctx.writeS; split <;> rfl
@[simp] theorem Ctx.writeS_psP (c : Ctx) (i : Fin 64) (x : Word) : (c.writeS i x).psP = c.psP := by unfold Ctx.writeS; split <;> rfl
@[simp] theorem Ctx.writeS_psB (c : Ctx) (i : Fin 64) (x : Word) : (c.writeS i x).psB = c.psB := by unfold Ctx.writeS; split <;> rfl
@[simp] theorem Ctx.writeS_k (c : Ctx) (i : Fin 64) (x : Word) : (c.writeS i x).k = c.k := by unfold Ctx.writeS; split <;> rfl
@[simp] theorem Ctx.writeS_x (c : Ctx) (i : Fin 64) (x : Word) : (c.writeS i x).x = c.x := by unfold Ctx.writeS; split <;> rfl
@[simp] theorem Ctx.writeS_kOld (c : Ctx) (i : Fin 64) (x : Word) : (c.writeS i x).kOld = c.kOld := by unfold Ctx.writeS; split <;> rfl
@[simp] theorem Ctx.writeS_w (c : Ctx) (i : Fin 64) (x : Word) : (c.writeS i x).w = c.w := by unfold Ctx.writeS; split <;> rfl
@[simp] theorem Ctx.writeS_lat (c : Ctx) (i : Fin 64) (x : Word) : (c.writeS i x).lat = c.lat := by unfold Ctx.writeS; split <;> rfl
@[simp] theorem Ctx.writeS_bsWin (c : Ctx) (i : Fin 64) (x : Word) : (c.writeS i x).bsWin = c.bsWin := by unfold Ctx.writeS; split <;> rfl
@[simp] theorem Ctx.writeS_bsCnt (c : Ctx) (i : Fin 64) (x : Word) : (c.writeS i x).bsCnt = c.bsCnt := by unfold Ctx.writeS; split <;> rfl
@[simp] theorem Ctx.writeS_fpc (c : Ctx) (i : Fin 64) (x : Word) : (c.writeS i x).fpc = c.fpc := by unfold Ctx.writeS; split <;> rfl
@[simp] theorem Ctx.writeS_stat (c : Ctx) (i : Fin 64) (x : Word) : (c.writeS i x).stat = c.stat := by unfold Ctx.writeS; split <;> rfl
@[simp] theorem Ctx.writeS_kpol (c : Ctx) (i : Fin 64) (x : Word) : (c.writeS i x).kpol = c.kpol := by unfold Ctx.writeS; split <;> rfl
@[simp] theorem Ctx.writeS_ixpol (c : Ctx) (i : Fin 64) (x : Word) : (c.writeS i x).ixpol = c.ixpol := by unfold Ctx.writeS; split <;> rfl
@[simp] theorem Ctx.writeS_lc (c : Ctx) (i : Fin 64) (x : Word) : (c.writeS i x).lc = c.lc := by unfold Ctx.writeS; split <;> rfl
@[simp] theorem Ctx.writeS_ecCnt (c : Ctx) (i : Fin 64) (x : Word) : (c.writeS i x).ecCnt = c.ecCnt := by unfold Ctx.writeS; split <;> rfl
@[simp] theorem Ctx.writeS_gmem (c : Ctx) (i : Fin 64) (x : Word) : (c.writeS i x).gmem = c.gmem := by unfold Ctx.writeS; split <;> rfl
@[simp] theorem Ctx.writeS_dbg (c : Ctx) (i : Fin 64) (x : Word) : (c.writeS i x).dbg = c.dbg := by unfold Ctx.writeS; split <;> rfl
@[simp] theorem Ctx.writeS_rbseed (c : Ctx) (i : Fin 64) (x : Word) : (c.writeS i x).rbseed = c.rbseed := by unfold Ctx.writeS; split <;> rfl
@[simp] theorem Ctx.writeS_rbn (c : Ctx) (i : Fin 64) (x : Word) : (c.writeS i x).rbn = c.rbn := by unfold Ctx.writeS; split <;> rfl
@[simp] theorem Ctx.writeS_rbq (c : Ctx) (i : Fin 64) (x : Word) : (c.writeS i x).rbq = c.rbq := by unfold Ctx.writeS; split <;> rfl
@[simp] theorem Ctx.writeS_cwm (c : Ctx) (i : Fin 64) (x : Word) : (c.writeS i x).cwm = c.cwm := by unfold Ctx.writeS; split <;> rfl
@[simp] theorem Ctx.writeS_nextId (c : Ctx) (i : Fin 64) (x : Word) : (c.writeS i x).nextId = c.nextId := by unfold Ctx.writeS; split <;> rfl
@[simp] theorem Ctx.writeS_joinp (c : Ctx) (i : Fin 64) (x : Word) : (c.writeS i x).joinp = c.joinp := by unfold Ctx.writeS; split <;> rfl
@[simp] theorem Ctx.writeS_pasid (c : Ctx) (i : Fin 64) (x : Word) : (c.writeS i x).pasid = c.pasid := by unfold Ctx.writeS; split <;> rfl
@[simp] theorem Ctx.writeS_savea (c : Ctx) (i : Fin 64) (x : Word) : (c.writeS i x).savea = c.savea := by unfold Ctx.writeS; split <;> rfl
@[simp] theorem Ctx.writeS_ld (c : Ctx) (i : Fin 64) (x : Word) : (c.writeS i x).ld = c.ld := by unfold Ctx.writeS; split <;> rfl
@[simp] theorem Ctx.writeS_stc (c : Ctx) (i : Fin 64) (x : Word) : (c.writeS i x).stc = c.stc := by unfold Ctx.writeS; split <;> rfl
@[simp] theorem Ctx.writeS_cp (c : Ctx) (i : Fin 64) (x : Word) : (c.writeS i x).cp = c.cp := by unfold Ctx.writeS; split <;> rfl
@[simp] theorem Ctx.writeS_tl (c : Ctx) (i : Fin 64) (x : Word) : (c.writeS i x).tl = c.tl := by unfold Ctx.writeS; split <;> rfl
@[simp] theorem Ctx.writeS_pendS (c : Ctx) (i : Fin 64) (x : Word) : (c.writeS i x).pendS = c.pendS := by unfold Ctx.writeS; split <;> rfl
@[simp] theorem Ctx.writeS_pendV (c : Ctx) (i : Fin 64) (x : Word) : (c.writeS i x).pendV = c.pendV := by unfold Ctx.writeS; split <;> rfl
@[simp] theorem Ctx.writeS_pendC (c : Ctx) (i : Fin 64) (x : Word) : (c.writeS i x).pendC = c.pendC := by unfold Ctx.writeS; split <;> rfl
@[simp] theorem Ctx.writeS_pend (c : Ctx) (i : Fin 64) (x : Word) : (c.writeS i x).pend = c.pend := by unfold Ctx.writeS; split <;> rfl
@[simp] theorem Ctx.writeS_stores (c : Ctx) (i : Fin 64) (x : Word) : (c.writeS i x).stores = c.stores := by unfold Ctx.writeS; split <;> rfl
@[simp] theorem Ctx.writeS_xfer (c : Ctx) (i : Fin 64) (x : Word) : (c.writeS i x).xfer = c.xfer := by unfold Ctx.writeS; split <;> rfl
@[simp] theorem Ctx.writeS_loop (c : Ctx) (i : Fin 64) (x : Word) : (c.writeS i x).loop = c.loop := by unfold Ctx.writeS; split <;> rfl
@[simp] theorem Ctx.writeS_applies (c : Ctx) (i : Fin 64) (x : Word) : (c.writeS i x).applies = c.applies := by unfold Ctx.writeS; split <;> rfl
@[simp] theorem Ctx.writeS_sb (c : Ctx) (i : Fin 64) (x : Word) : (c.writeS i x).sb = c.sb := by unfold Ctx.writeS; split <;> rfl
@[simp] theorem Ctx.writeS_post (c : Ctx) (i : Fin 64) (x : Word) : (c.writeS i x).post = c.post := by unfold Ctx.writeS; split <;> rfl
@[simp] theorem Ctx.writeS_seq (c : Ctx) (i : Fin 64) (x : Word) : (c.writeS i x).seq = c.seq := by unfold Ctx.writeS; split <;> rfl
@[simp] theorem Ctx.writeS_lastSeq (c : Ctx) (i : Fin 64) (x : Word) : (c.writeS i x).lastSeq = c.lastSeq := by unfold Ctx.writeS; split <;> rfl
@[simp] theorem Ctx.writeS_recent (c : Ctx) (i : Fin 64) (x : Word) : (c.writeS i x).recent = c.recent := by unfold Ctx.writeS; split <;> rfl
@[simp] theorem Ctx.writeS_waited (c : Ctx) (i : Fin 64) (x : Word) : (c.writeS i x).waited = c.waited := by unfold Ctx.writeS; split <;> rfl
@[simp] theorem Ctx.writeS_issued (c : Ctx) (i : Fin 64) (x : Word) : (c.writeS i x).issued = c.issued := by unfold Ctx.writeS; split <;> rfl
@[simp] theorem Ctx.writeS_landed (c : Ctx) (i : Fin 64) (x : Word) : (c.writeS i x).landed = c.landed := by unfold Ctx.writeS; split <;> rfl
@[simp] theorem Ctx.writeS_bits (c : Ctx) (i : Fin 64) (x : Word) : (c.writeS i x).bits = c.bits := by unfold Ctx.writeS; split <;> rfl
@[simp] theorem Ctx.writeS_gbar (c : Ctx) (i : Fin 64) (x : Word) : (c.writeS i x).gbar = c.gbar := by unfold Ctx.writeS; split <;> rfl
@[simp] theorem Ctx.writeS_probe (c : Ctx) (i : Fin 64) (x : Word) : (c.writeS i x).probe = c.probe := by unfold Ctx.writeS; split <;> rfl
@[simp] theorem Ctx.writeS_qpt (c : Ctx) (i : Fin 64) (x : Word) : (c.writeS i x).qpt = c.qpt := by unfold Ctx.writeS; split <;> rfl
@[simp] theorem Ctx.writeS_tw (c : Ctx) (i : Fin 64) (x : Word) : (c.writeS i x).tw = c.tw := by unfold Ctx.writeS; split <;> rfl
@[simp] theorem Ctx.writeS_ack (c : Ctx) (i : Fin 64) (x : Word) : (c.writeS i x).ack = c.ack := by unfold Ctx.writeS; split <;> rfl
@[simp] theorem Ctx.writeS_due (c : Ctx) (i : Fin 64) (x : Word) : (c.writeS i x).due = c.due := by unfold Ctx.writeS; split <;> rfl
@[simp] theorem Ctx.writeS_trap (c : Ctx) (i : Fin 64) (x : Word) : (c.writeS i x).trap = c.trap := by unfold Ctx.writeS; split <;> rfl
@[simp] theorem Ctx.writeS_assist (c : Ctx) (i : Fin 64) (x : Word) : (c.writeS i x).assist = c.assist := by unfold Ctx.writeS; split <;> rfl
@[simp] theorem Ctx.writeS_preempt (c : Ctx) (i : Fin 64) (x : Word) : (c.writeS i x).preempt = c.preempt := by unfold Ctx.writeS; split <;> rfl
@[simp] theorem Ctx.writeS_heldKb (c : Ctx) (i : Fin 64) (x : Word) : (c.writeS i x).heldKb = c.heldKb := by unfold Ctx.writeS; split <;> rfl
@[simp] theorem Ctx.writeS_heldMx (c : Ctx) (i : Fin 64) (x : Word) : (c.writeS i x).heldMx = c.heldMx := by unfold Ctx.writeS; split <;> rfl
@[simp] theorem Ctx.writeS_dbgHold (c : Ctx) (i : Fin 64) (x : Word) : (c.writeS i x).dbgHold = c.dbgHold := by unfold Ctx.writeS; split <;> rfl
@[simp] theorem Ctx.writeS_haltAt (c : Ctx) (i : Fin 64) (x : Word) : (c.writeS i x).haltAt = c.haltAt := by unfold Ctx.writeS; split <;> rfl
@[simp] theorem Ctx.writeS_blocked (c : Ctx) (i : Fin 64) (x : Word) : (c.writeS i x).blocked = c.blocked := by unfold Ctx.writeS; split <;> rfl
@[simp] theorem Ctx.writeS_quiet (c : Ctx) (i : Fin 64) (x : Word) : (c.writeS i x).quiet = c.quiet := by unfold Ctx.writeS; split <;> rfl

/-! ### An s register marked -/

@[simp] theorem Ctx.pendingS_st (c : Ctx) (i : Fin 64) (b : Bool) : (c.pendingS i b).st = c.st := by unfold Ctx.pendingS; split <;> rfl
@[simp] theorem Ctx.pendingS_pc (c : Ctx) (i : Fin 64) (b : Bool) : (c.pendingS i b).pc = c.pc := by unfold Ctx.pendingS; split <;> rfl
@[simp] theorem Ctx.pendingS_s (c : Ctx) (i : Fin 64) (b : Bool) : (c.pendingS i b).s = c.s := by unfold Ctx.pendingS; split <;> rfl
@[simp] theorem Ctx.pendingS_v (c : Ctx) (i : Fin 64) (b : Bool) : (c.pendingS i b).v = c.v := by unfold Ctx.pendingS; split <;> rfl
@[simp] theorem Ctx.pendingS_m (c : Ctx) (i : Fin 64) (b : Bool) : (c.pendingS i b).m = c.m := by unfold Ctx.pendingS; split <;> rfl
@[simp] theorem Ctx.pendingS_c (c : Ctx) (i : Fin 64) (b : Bool) : (c.pendingS i b).c = c.c := by unfold Ctx.pendingS; split <;> rfl
@[simp] theorem Ctx.pendingS_psP (c : Ctx) (i : Fin 64) (b : Bool) : (c.pendingS i b).psP = c.psP := by unfold Ctx.pendingS; split <;> rfl
@[simp] theorem Ctx.pendingS_psB (c : Ctx) (i : Fin 64) (b : Bool) : (c.pendingS i b).psB = c.psB := by unfold Ctx.pendingS; split <;> rfl
@[simp] theorem Ctx.pendingS_k (c : Ctx) (i : Fin 64) (b : Bool) : (c.pendingS i b).k = c.k := by unfold Ctx.pendingS; split <;> rfl
@[simp] theorem Ctx.pendingS_x (c : Ctx) (i : Fin 64) (b : Bool) : (c.pendingS i b).x = c.x := by unfold Ctx.pendingS; split <;> rfl
@[simp] theorem Ctx.pendingS_kOld (c : Ctx) (i : Fin 64) (b : Bool) : (c.pendingS i b).kOld = c.kOld := by unfold Ctx.pendingS; split <;> rfl
@[simp] theorem Ctx.pendingS_w (c : Ctx) (i : Fin 64) (b : Bool) : (c.pendingS i b).w = c.w := by unfold Ctx.pendingS; split <;> rfl
@[simp] theorem Ctx.pendingS_lat (c : Ctx) (i : Fin 64) (b : Bool) : (c.pendingS i b).lat = c.lat := by unfold Ctx.pendingS; split <;> rfl
@[simp] theorem Ctx.pendingS_bsWin (c : Ctx) (i : Fin 64) (b : Bool) : (c.pendingS i b).bsWin = c.bsWin := by unfold Ctx.pendingS; split <;> rfl
@[simp] theorem Ctx.pendingS_bsCnt (c : Ctx) (i : Fin 64) (b : Bool) : (c.pendingS i b).bsCnt = c.bsCnt := by unfold Ctx.pendingS; split <;> rfl
@[simp] theorem Ctx.pendingS_fpc (c : Ctx) (i : Fin 64) (b : Bool) : (c.pendingS i b).fpc = c.fpc := by unfold Ctx.pendingS; split <;> rfl
@[simp] theorem Ctx.pendingS_stat (c : Ctx) (i : Fin 64) (b : Bool) : (c.pendingS i b).stat = c.stat := by unfold Ctx.pendingS; split <;> rfl
@[simp] theorem Ctx.pendingS_kpol (c : Ctx) (i : Fin 64) (b : Bool) : (c.pendingS i b).kpol = c.kpol := by unfold Ctx.pendingS; split <;> rfl
@[simp] theorem Ctx.pendingS_ixpol (c : Ctx) (i : Fin 64) (b : Bool) : (c.pendingS i b).ixpol = c.ixpol := by unfold Ctx.pendingS; split <;> rfl
@[simp] theorem Ctx.pendingS_lc (c : Ctx) (i : Fin 64) (b : Bool) : (c.pendingS i b).lc = c.lc := by unfold Ctx.pendingS; split <;> rfl
@[simp] theorem Ctx.pendingS_ecCnt (c : Ctx) (i : Fin 64) (b : Bool) : (c.pendingS i b).ecCnt = c.ecCnt := by unfold Ctx.pendingS; split <;> rfl
@[simp] theorem Ctx.pendingS_gmem (c : Ctx) (i : Fin 64) (b : Bool) : (c.pendingS i b).gmem = c.gmem := by unfold Ctx.pendingS; split <;> rfl
@[simp] theorem Ctx.pendingS_dbg (c : Ctx) (i : Fin 64) (b : Bool) : (c.pendingS i b).dbg = c.dbg := by unfold Ctx.pendingS; split <;> rfl
@[simp] theorem Ctx.pendingS_rbseed (c : Ctx) (i : Fin 64) (b : Bool) : (c.pendingS i b).rbseed = c.rbseed := by unfold Ctx.pendingS; split <;> rfl
@[simp] theorem Ctx.pendingS_rbn (c : Ctx) (i : Fin 64) (b : Bool) : (c.pendingS i b).rbn = c.rbn := by unfold Ctx.pendingS; split <;> rfl
@[simp] theorem Ctx.pendingS_rbq (c : Ctx) (i : Fin 64) (b : Bool) : (c.pendingS i b).rbq = c.rbq := by unfold Ctx.pendingS; split <;> rfl
@[simp] theorem Ctx.pendingS_cwm (c : Ctx) (i : Fin 64) (b : Bool) : (c.pendingS i b).cwm = c.cwm := by unfold Ctx.pendingS; split <;> rfl
@[simp] theorem Ctx.pendingS_nextId (c : Ctx) (i : Fin 64) (b : Bool) : (c.pendingS i b).nextId = c.nextId := by unfold Ctx.pendingS; split <;> rfl
@[simp] theorem Ctx.pendingS_joinp (c : Ctx) (i : Fin 64) (b : Bool) : (c.pendingS i b).joinp = c.joinp := by unfold Ctx.pendingS; split <;> rfl
@[simp] theorem Ctx.pendingS_pasid (c : Ctx) (i : Fin 64) (b : Bool) : (c.pendingS i b).pasid = c.pasid := by unfold Ctx.pendingS; split <;> rfl
@[simp] theorem Ctx.pendingS_savea (c : Ctx) (i : Fin 64) (b : Bool) : (c.pendingS i b).savea = c.savea := by unfold Ctx.pendingS; split <;> rfl
@[simp] theorem Ctx.pendingS_ld (c : Ctx) (i : Fin 64) (b : Bool) : (c.pendingS i b).ld = c.ld := by unfold Ctx.pendingS; split <;> rfl
@[simp] theorem Ctx.pendingS_stc (c : Ctx) (i : Fin 64) (b : Bool) : (c.pendingS i b).stc = c.stc := by unfold Ctx.pendingS; split <;> rfl
@[simp] theorem Ctx.pendingS_cp (c : Ctx) (i : Fin 64) (b : Bool) : (c.pendingS i b).cp = c.cp := by unfold Ctx.pendingS; split <;> rfl
@[simp] theorem Ctx.pendingS_tl (c : Ctx) (i : Fin 64) (b : Bool) : (c.pendingS i b).tl = c.tl := by unfold Ctx.pendingS; split <;> rfl
@[simp] theorem Ctx.pendingS_pendV (c : Ctx) (i : Fin 64) (b : Bool) : (c.pendingS i b).pendV = c.pendV := by unfold Ctx.pendingS; split <;> rfl
@[simp] theorem Ctx.pendingS_pendC (c : Ctx) (i : Fin 64) (b : Bool) : (c.pendingS i b).pendC = c.pendC := by unfold Ctx.pendingS; split <;> rfl
@[simp] theorem Ctx.pendingS_pend (c : Ctx) (i : Fin 64) (b : Bool) : (c.pendingS i b).pend = c.pend := by unfold Ctx.pendingS; split <;> rfl
@[simp] theorem Ctx.pendingS_stores (c : Ctx) (i : Fin 64) (b : Bool) : (c.pendingS i b).stores = c.stores := by unfold Ctx.pendingS; split <;> rfl
@[simp] theorem Ctx.pendingS_xfer (c : Ctx) (i : Fin 64) (b : Bool) : (c.pendingS i b).xfer = c.xfer := by unfold Ctx.pendingS; split <;> rfl
@[simp] theorem Ctx.pendingS_loop (c : Ctx) (i : Fin 64) (b : Bool) : (c.pendingS i b).loop = c.loop := by unfold Ctx.pendingS; split <;> rfl
@[simp] theorem Ctx.pendingS_applies (c : Ctx) (i : Fin 64) (b : Bool) : (c.pendingS i b).applies = c.applies := by unfold Ctx.pendingS; split <;> rfl
@[simp] theorem Ctx.pendingS_sb (c : Ctx) (i : Fin 64) (b : Bool) : (c.pendingS i b).sb = c.sb := by unfold Ctx.pendingS; split <;> rfl
@[simp] theorem Ctx.pendingS_post (c : Ctx) (i : Fin 64) (b : Bool) : (c.pendingS i b).post = c.post := by unfold Ctx.pendingS; split <;> rfl
@[simp] theorem Ctx.pendingS_seq (c : Ctx) (i : Fin 64) (b : Bool) : (c.pendingS i b).seq = c.seq := by unfold Ctx.pendingS; split <;> rfl
@[simp] theorem Ctx.pendingS_lastSeq (c : Ctx) (i : Fin 64) (b : Bool) : (c.pendingS i b).lastSeq = c.lastSeq := by unfold Ctx.pendingS; split <;> rfl
@[simp] theorem Ctx.pendingS_recent (c : Ctx) (i : Fin 64) (b : Bool) : (c.pendingS i b).recent = c.recent := by unfold Ctx.pendingS; split <;> rfl
@[simp] theorem Ctx.pendingS_waited (c : Ctx) (i : Fin 64) (b : Bool) : (c.pendingS i b).waited = c.waited := by unfold Ctx.pendingS; split <;> rfl
@[simp] theorem Ctx.pendingS_issued (c : Ctx) (i : Fin 64) (b : Bool) : (c.pendingS i b).issued = c.issued := by unfold Ctx.pendingS; split <;> rfl
@[simp] theorem Ctx.pendingS_landed (c : Ctx) (i : Fin 64) (b : Bool) : (c.pendingS i b).landed = c.landed := by unfold Ctx.pendingS; split <;> rfl
@[simp] theorem Ctx.pendingS_bits (c : Ctx) (i : Fin 64) (b : Bool) : (c.pendingS i b).bits = c.bits := by unfold Ctx.pendingS; split <;> rfl
@[simp] theorem Ctx.pendingS_gbar (c : Ctx) (i : Fin 64) (b : Bool) : (c.pendingS i b).gbar = c.gbar := by unfold Ctx.pendingS; split <;> rfl
@[simp] theorem Ctx.pendingS_probe (c : Ctx) (i : Fin 64) (b : Bool) : (c.pendingS i b).probe = c.probe := by unfold Ctx.pendingS; split <;> rfl
@[simp] theorem Ctx.pendingS_qpt (c : Ctx) (i : Fin 64) (b : Bool) : (c.pendingS i b).qpt = c.qpt := by unfold Ctx.pendingS; split <;> rfl
@[simp] theorem Ctx.pendingS_tw (c : Ctx) (i : Fin 64) (b : Bool) : (c.pendingS i b).tw = c.tw := by unfold Ctx.pendingS; split <;> rfl
@[simp] theorem Ctx.pendingS_ack (c : Ctx) (i : Fin 64) (b : Bool) : (c.pendingS i b).ack = c.ack := by unfold Ctx.pendingS; split <;> rfl
@[simp] theorem Ctx.pendingS_due (c : Ctx) (i : Fin 64) (b : Bool) : (c.pendingS i b).due = c.due := by unfold Ctx.pendingS; split <;> rfl
@[simp] theorem Ctx.pendingS_trap (c : Ctx) (i : Fin 64) (b : Bool) : (c.pendingS i b).trap = c.trap := by unfold Ctx.pendingS; split <;> rfl
@[simp] theorem Ctx.pendingS_assist (c : Ctx) (i : Fin 64) (b : Bool) : (c.pendingS i b).assist = c.assist := by unfold Ctx.pendingS; split <;> rfl
@[simp] theorem Ctx.pendingS_preempt (c : Ctx) (i : Fin 64) (b : Bool) : (c.pendingS i b).preempt = c.preempt := by unfold Ctx.pendingS; split <;> rfl
@[simp] theorem Ctx.pendingS_heldKb (c : Ctx) (i : Fin 64) (b : Bool) : (c.pendingS i b).heldKb = c.heldKb := by unfold Ctx.pendingS; split <;> rfl
@[simp] theorem Ctx.pendingS_heldMx (c : Ctx) (i : Fin 64) (b : Bool) : (c.pendingS i b).heldMx = c.heldMx := by unfold Ctx.pendingS; split <;> rfl
@[simp] theorem Ctx.pendingS_dbgHold (c : Ctx) (i : Fin 64) (b : Bool) : (c.pendingS i b).dbgHold = c.dbgHold := by unfold Ctx.pendingS; split <;> rfl
@[simp] theorem Ctx.pendingS_haltAt (c : Ctx) (i : Fin 64) (b : Bool) : (c.pendingS i b).haltAt = c.haltAt := by unfold Ctx.pendingS; split <;> rfl
@[simp] theorem Ctx.pendingS_blocked (c : Ctx) (i : Fin 64) (b : Bool) : (c.pendingS i b).blocked = c.blocked := by unfold Ctx.pendingS; split <;> rfl
@[simp] theorem Ctx.pendingS_quiet (c : Ctx) (i : Fin 64) (b : Bool) : (c.pendingS i b).quiet = c.quiet := by unfold Ctx.pendingS; split <;> rfl

/-! ### A v register marked -/

@[simp] theorem Ctx.pendingV_st (c : Ctx) (i : Fin 32) (b : Bool) : (c.pendingV i b).st = c.st := rfl
@[simp] theorem Ctx.pendingV_pc (c : Ctx) (i : Fin 32) (b : Bool) : (c.pendingV i b).pc = c.pc := rfl
@[simp] theorem Ctx.pendingV_s (c : Ctx) (i : Fin 32) (b : Bool) : (c.pendingV i b).s = c.s := rfl
@[simp] theorem Ctx.pendingV_v (c : Ctx) (i : Fin 32) (b : Bool) : (c.pendingV i b).v = c.v := rfl
@[simp] theorem Ctx.pendingV_m (c : Ctx) (i : Fin 32) (b : Bool) : (c.pendingV i b).m = c.m := rfl
@[simp] theorem Ctx.pendingV_c (c : Ctx) (i : Fin 32) (b : Bool) : (c.pendingV i b).c = c.c := rfl
@[simp] theorem Ctx.pendingV_psP (c : Ctx) (i : Fin 32) (b : Bool) : (c.pendingV i b).psP = c.psP := rfl
@[simp] theorem Ctx.pendingV_psB (c : Ctx) (i : Fin 32) (b : Bool) : (c.pendingV i b).psB = c.psB := rfl
@[simp] theorem Ctx.pendingV_k (c : Ctx) (i : Fin 32) (b : Bool) : (c.pendingV i b).k = c.k := rfl
@[simp] theorem Ctx.pendingV_x (c : Ctx) (i : Fin 32) (b : Bool) : (c.pendingV i b).x = c.x := rfl
@[simp] theorem Ctx.pendingV_kOld (c : Ctx) (i : Fin 32) (b : Bool) : (c.pendingV i b).kOld = c.kOld := rfl
@[simp] theorem Ctx.pendingV_w (c : Ctx) (i : Fin 32) (b : Bool) : (c.pendingV i b).w = c.w := rfl
@[simp] theorem Ctx.pendingV_lat (c : Ctx) (i : Fin 32) (b : Bool) : (c.pendingV i b).lat = c.lat := rfl
@[simp] theorem Ctx.pendingV_bsWin (c : Ctx) (i : Fin 32) (b : Bool) : (c.pendingV i b).bsWin = c.bsWin := rfl
@[simp] theorem Ctx.pendingV_bsCnt (c : Ctx) (i : Fin 32) (b : Bool) : (c.pendingV i b).bsCnt = c.bsCnt := rfl
@[simp] theorem Ctx.pendingV_fpc (c : Ctx) (i : Fin 32) (b : Bool) : (c.pendingV i b).fpc = c.fpc := rfl
@[simp] theorem Ctx.pendingV_stat (c : Ctx) (i : Fin 32) (b : Bool) : (c.pendingV i b).stat = c.stat := rfl
@[simp] theorem Ctx.pendingV_kpol (c : Ctx) (i : Fin 32) (b : Bool) : (c.pendingV i b).kpol = c.kpol := rfl
@[simp] theorem Ctx.pendingV_ixpol (c : Ctx) (i : Fin 32) (b : Bool) : (c.pendingV i b).ixpol = c.ixpol := rfl
@[simp] theorem Ctx.pendingV_lc (c : Ctx) (i : Fin 32) (b : Bool) : (c.pendingV i b).lc = c.lc := rfl
@[simp] theorem Ctx.pendingV_ecCnt (c : Ctx) (i : Fin 32) (b : Bool) : (c.pendingV i b).ecCnt = c.ecCnt := rfl
@[simp] theorem Ctx.pendingV_gmem (c : Ctx) (i : Fin 32) (b : Bool) : (c.pendingV i b).gmem = c.gmem := rfl
@[simp] theorem Ctx.pendingV_dbg (c : Ctx) (i : Fin 32) (b : Bool) : (c.pendingV i b).dbg = c.dbg := rfl
@[simp] theorem Ctx.pendingV_rbseed (c : Ctx) (i : Fin 32) (b : Bool) : (c.pendingV i b).rbseed = c.rbseed := rfl
@[simp] theorem Ctx.pendingV_rbn (c : Ctx) (i : Fin 32) (b : Bool) : (c.pendingV i b).rbn = c.rbn := rfl
@[simp] theorem Ctx.pendingV_rbq (c : Ctx) (i : Fin 32) (b : Bool) : (c.pendingV i b).rbq = c.rbq := rfl
@[simp] theorem Ctx.pendingV_cwm (c : Ctx) (i : Fin 32) (b : Bool) : (c.pendingV i b).cwm = c.cwm := rfl
@[simp] theorem Ctx.pendingV_nextId (c : Ctx) (i : Fin 32) (b : Bool) : (c.pendingV i b).nextId = c.nextId := rfl
@[simp] theorem Ctx.pendingV_joinp (c : Ctx) (i : Fin 32) (b : Bool) : (c.pendingV i b).joinp = c.joinp := rfl
@[simp] theorem Ctx.pendingV_pasid (c : Ctx) (i : Fin 32) (b : Bool) : (c.pendingV i b).pasid = c.pasid := rfl
@[simp] theorem Ctx.pendingV_savea (c : Ctx) (i : Fin 32) (b : Bool) : (c.pendingV i b).savea = c.savea := rfl
@[simp] theorem Ctx.pendingV_ld (c : Ctx) (i : Fin 32) (b : Bool) : (c.pendingV i b).ld = c.ld := rfl
@[simp] theorem Ctx.pendingV_stc (c : Ctx) (i : Fin 32) (b : Bool) : (c.pendingV i b).stc = c.stc := rfl
@[simp] theorem Ctx.pendingV_cp (c : Ctx) (i : Fin 32) (b : Bool) : (c.pendingV i b).cp = c.cp := rfl
@[simp] theorem Ctx.pendingV_tl (c : Ctx) (i : Fin 32) (b : Bool) : (c.pendingV i b).tl = c.tl := rfl
@[simp] theorem Ctx.pendingV_pendS (c : Ctx) (i : Fin 32) (b : Bool) : (c.pendingV i b).pendS = c.pendS := rfl
@[simp] theorem Ctx.pendingV_pendC (c : Ctx) (i : Fin 32) (b : Bool) : (c.pendingV i b).pendC = c.pendC := rfl
@[simp] theorem Ctx.pendingV_pend (c : Ctx) (i : Fin 32) (b : Bool) : (c.pendingV i b).pend = c.pend := rfl
@[simp] theorem Ctx.pendingV_stores (c : Ctx) (i : Fin 32) (b : Bool) : (c.pendingV i b).stores = c.stores := rfl
@[simp] theorem Ctx.pendingV_xfer (c : Ctx) (i : Fin 32) (b : Bool) : (c.pendingV i b).xfer = c.xfer := rfl
@[simp] theorem Ctx.pendingV_loop (c : Ctx) (i : Fin 32) (b : Bool) : (c.pendingV i b).loop = c.loop := rfl
@[simp] theorem Ctx.pendingV_applies (c : Ctx) (i : Fin 32) (b : Bool) : (c.pendingV i b).applies = c.applies := rfl
@[simp] theorem Ctx.pendingV_sb (c : Ctx) (i : Fin 32) (b : Bool) : (c.pendingV i b).sb = c.sb := rfl
@[simp] theorem Ctx.pendingV_post (c : Ctx) (i : Fin 32) (b : Bool) : (c.pendingV i b).post = c.post := rfl
@[simp] theorem Ctx.pendingV_seq (c : Ctx) (i : Fin 32) (b : Bool) : (c.pendingV i b).seq = c.seq := rfl
@[simp] theorem Ctx.pendingV_lastSeq (c : Ctx) (i : Fin 32) (b : Bool) : (c.pendingV i b).lastSeq = c.lastSeq := rfl
@[simp] theorem Ctx.pendingV_recent (c : Ctx) (i : Fin 32) (b : Bool) : (c.pendingV i b).recent = c.recent := rfl
@[simp] theorem Ctx.pendingV_waited (c : Ctx) (i : Fin 32) (b : Bool) : (c.pendingV i b).waited = c.waited := rfl
@[simp] theorem Ctx.pendingV_issued (c : Ctx) (i : Fin 32) (b : Bool) : (c.pendingV i b).issued = c.issued := rfl
@[simp] theorem Ctx.pendingV_landed (c : Ctx) (i : Fin 32) (b : Bool) : (c.pendingV i b).landed = c.landed := rfl
@[simp] theorem Ctx.pendingV_bits (c : Ctx) (i : Fin 32) (b : Bool) : (c.pendingV i b).bits = c.bits := rfl
@[simp] theorem Ctx.pendingV_gbar (c : Ctx) (i : Fin 32) (b : Bool) : (c.pendingV i b).gbar = c.gbar := rfl
@[simp] theorem Ctx.pendingV_probe (c : Ctx) (i : Fin 32) (b : Bool) : (c.pendingV i b).probe = c.probe := rfl
@[simp] theorem Ctx.pendingV_qpt (c : Ctx) (i : Fin 32) (b : Bool) : (c.pendingV i b).qpt = c.qpt := rfl
@[simp] theorem Ctx.pendingV_tw (c : Ctx) (i : Fin 32) (b : Bool) : (c.pendingV i b).tw = c.tw := rfl
@[simp] theorem Ctx.pendingV_ack (c : Ctx) (i : Fin 32) (b : Bool) : (c.pendingV i b).ack = c.ack := rfl
@[simp] theorem Ctx.pendingV_due (c : Ctx) (i : Fin 32) (b : Bool) : (c.pendingV i b).due = c.due := rfl
@[simp] theorem Ctx.pendingV_trap (c : Ctx) (i : Fin 32) (b : Bool) : (c.pendingV i b).trap = c.trap := rfl
@[simp] theorem Ctx.pendingV_assist (c : Ctx) (i : Fin 32) (b : Bool) : (c.pendingV i b).assist = c.assist := rfl
@[simp] theorem Ctx.pendingV_preempt (c : Ctx) (i : Fin 32) (b : Bool) : (c.pendingV i b).preempt = c.preempt := rfl
@[simp] theorem Ctx.pendingV_heldKb (c : Ctx) (i : Fin 32) (b : Bool) : (c.pendingV i b).heldKb = c.heldKb := rfl
@[simp] theorem Ctx.pendingV_heldMx (c : Ctx) (i : Fin 32) (b : Bool) : (c.pendingV i b).heldMx = c.heldMx := rfl
@[simp] theorem Ctx.pendingV_dbgHold (c : Ctx) (i : Fin 32) (b : Bool) : (c.pendingV i b).dbgHold = c.dbgHold := rfl
@[simp] theorem Ctx.pendingV_haltAt (c : Ctx) (i : Fin 32) (b : Bool) : (c.pendingV i b).haltAt = c.haltAt := rfl
@[simp] theorem Ctx.pendingV_blocked (c : Ctx) (i : Fin 32) (b : Bool) : (c.pendingV i b).blocked = c.blocked := rfl
@[simp] theorem Ctx.pendingV_quiet (c : Ctx) (i : Fin 32) (b : Bool) : (c.pendingV i b).quiet = c.quiet := rfl

/-! ### A predicate marked -/

@[simp] theorem Ctx.pendingC_st (c : Ctx) (i : Fin 4) (b : Bool) : (c.pendingC i b).st = c.st := rfl
@[simp] theorem Ctx.pendingC_pc (c : Ctx) (i : Fin 4) (b : Bool) : (c.pendingC i b).pc = c.pc := rfl
@[simp] theorem Ctx.pendingC_s (c : Ctx) (i : Fin 4) (b : Bool) : (c.pendingC i b).s = c.s := rfl
@[simp] theorem Ctx.pendingC_v (c : Ctx) (i : Fin 4) (b : Bool) : (c.pendingC i b).v = c.v := rfl
@[simp] theorem Ctx.pendingC_m (c : Ctx) (i : Fin 4) (b : Bool) : (c.pendingC i b).m = c.m := rfl
@[simp] theorem Ctx.pendingC_c (c : Ctx) (i : Fin 4) (b : Bool) : (c.pendingC i b).c = c.c := rfl
@[simp] theorem Ctx.pendingC_psP (c : Ctx) (i : Fin 4) (b : Bool) : (c.pendingC i b).psP = c.psP := rfl
@[simp] theorem Ctx.pendingC_psB (c : Ctx) (i : Fin 4) (b : Bool) : (c.pendingC i b).psB = c.psB := rfl
@[simp] theorem Ctx.pendingC_k (c : Ctx) (i : Fin 4) (b : Bool) : (c.pendingC i b).k = c.k := rfl
@[simp] theorem Ctx.pendingC_x (c : Ctx) (i : Fin 4) (b : Bool) : (c.pendingC i b).x = c.x := rfl
@[simp] theorem Ctx.pendingC_kOld (c : Ctx) (i : Fin 4) (b : Bool) : (c.pendingC i b).kOld = c.kOld := rfl
@[simp] theorem Ctx.pendingC_w (c : Ctx) (i : Fin 4) (b : Bool) : (c.pendingC i b).w = c.w := rfl
@[simp] theorem Ctx.pendingC_lat (c : Ctx) (i : Fin 4) (b : Bool) : (c.pendingC i b).lat = c.lat := rfl
@[simp] theorem Ctx.pendingC_bsWin (c : Ctx) (i : Fin 4) (b : Bool) : (c.pendingC i b).bsWin = c.bsWin := rfl
@[simp] theorem Ctx.pendingC_bsCnt (c : Ctx) (i : Fin 4) (b : Bool) : (c.pendingC i b).bsCnt = c.bsCnt := rfl
@[simp] theorem Ctx.pendingC_fpc (c : Ctx) (i : Fin 4) (b : Bool) : (c.pendingC i b).fpc = c.fpc := rfl
@[simp] theorem Ctx.pendingC_stat (c : Ctx) (i : Fin 4) (b : Bool) : (c.pendingC i b).stat = c.stat := rfl
@[simp] theorem Ctx.pendingC_kpol (c : Ctx) (i : Fin 4) (b : Bool) : (c.pendingC i b).kpol = c.kpol := rfl
@[simp] theorem Ctx.pendingC_ixpol (c : Ctx) (i : Fin 4) (b : Bool) : (c.pendingC i b).ixpol = c.ixpol := rfl
@[simp] theorem Ctx.pendingC_lc (c : Ctx) (i : Fin 4) (b : Bool) : (c.pendingC i b).lc = c.lc := rfl
@[simp] theorem Ctx.pendingC_ecCnt (c : Ctx) (i : Fin 4) (b : Bool) : (c.pendingC i b).ecCnt = c.ecCnt := rfl
@[simp] theorem Ctx.pendingC_gmem (c : Ctx) (i : Fin 4) (b : Bool) : (c.pendingC i b).gmem = c.gmem := rfl
@[simp] theorem Ctx.pendingC_dbg (c : Ctx) (i : Fin 4) (b : Bool) : (c.pendingC i b).dbg = c.dbg := rfl
@[simp] theorem Ctx.pendingC_rbseed (c : Ctx) (i : Fin 4) (b : Bool) : (c.pendingC i b).rbseed = c.rbseed := rfl
@[simp] theorem Ctx.pendingC_rbn (c : Ctx) (i : Fin 4) (b : Bool) : (c.pendingC i b).rbn = c.rbn := rfl
@[simp] theorem Ctx.pendingC_rbq (c : Ctx) (i : Fin 4) (b : Bool) : (c.pendingC i b).rbq = c.rbq := rfl
@[simp] theorem Ctx.pendingC_cwm (c : Ctx) (i : Fin 4) (b : Bool) : (c.pendingC i b).cwm = c.cwm := rfl
@[simp] theorem Ctx.pendingC_nextId (c : Ctx) (i : Fin 4) (b : Bool) : (c.pendingC i b).nextId = c.nextId := rfl
@[simp] theorem Ctx.pendingC_joinp (c : Ctx) (i : Fin 4) (b : Bool) : (c.pendingC i b).joinp = c.joinp := rfl
@[simp] theorem Ctx.pendingC_pasid (c : Ctx) (i : Fin 4) (b : Bool) : (c.pendingC i b).pasid = c.pasid := rfl
@[simp] theorem Ctx.pendingC_savea (c : Ctx) (i : Fin 4) (b : Bool) : (c.pendingC i b).savea = c.savea := rfl
@[simp] theorem Ctx.pendingC_ld (c : Ctx) (i : Fin 4) (b : Bool) : (c.pendingC i b).ld = c.ld := rfl
@[simp] theorem Ctx.pendingC_stc (c : Ctx) (i : Fin 4) (b : Bool) : (c.pendingC i b).stc = c.stc := rfl
@[simp] theorem Ctx.pendingC_cp (c : Ctx) (i : Fin 4) (b : Bool) : (c.pendingC i b).cp = c.cp := rfl
@[simp] theorem Ctx.pendingC_tl (c : Ctx) (i : Fin 4) (b : Bool) : (c.pendingC i b).tl = c.tl := rfl
@[simp] theorem Ctx.pendingC_pendS (c : Ctx) (i : Fin 4) (b : Bool) : (c.pendingC i b).pendS = c.pendS := rfl
@[simp] theorem Ctx.pendingC_pendV (c : Ctx) (i : Fin 4) (b : Bool) : (c.pendingC i b).pendV = c.pendV := rfl
@[simp] theorem Ctx.pendingC_pend (c : Ctx) (i : Fin 4) (b : Bool) : (c.pendingC i b).pend = c.pend := rfl
@[simp] theorem Ctx.pendingC_stores (c : Ctx) (i : Fin 4) (b : Bool) : (c.pendingC i b).stores = c.stores := rfl
@[simp] theorem Ctx.pendingC_xfer (c : Ctx) (i : Fin 4) (b : Bool) : (c.pendingC i b).xfer = c.xfer := rfl
@[simp] theorem Ctx.pendingC_loop (c : Ctx) (i : Fin 4) (b : Bool) : (c.pendingC i b).loop = c.loop := rfl
@[simp] theorem Ctx.pendingC_applies (c : Ctx) (i : Fin 4) (b : Bool) : (c.pendingC i b).applies = c.applies := rfl
@[simp] theorem Ctx.pendingC_sb (c : Ctx) (i : Fin 4) (b : Bool) : (c.pendingC i b).sb = c.sb := rfl
@[simp] theorem Ctx.pendingC_post (c : Ctx) (i : Fin 4) (b : Bool) : (c.pendingC i b).post = c.post := rfl
@[simp] theorem Ctx.pendingC_seq (c : Ctx) (i : Fin 4) (b : Bool) : (c.pendingC i b).seq = c.seq := rfl
@[simp] theorem Ctx.pendingC_lastSeq (c : Ctx) (i : Fin 4) (b : Bool) : (c.pendingC i b).lastSeq = c.lastSeq := rfl
@[simp] theorem Ctx.pendingC_recent (c : Ctx) (i : Fin 4) (b : Bool) : (c.pendingC i b).recent = c.recent := rfl
@[simp] theorem Ctx.pendingC_waited (c : Ctx) (i : Fin 4) (b : Bool) : (c.pendingC i b).waited = c.waited := rfl
@[simp] theorem Ctx.pendingC_issued (c : Ctx) (i : Fin 4) (b : Bool) : (c.pendingC i b).issued = c.issued := rfl
@[simp] theorem Ctx.pendingC_landed (c : Ctx) (i : Fin 4) (b : Bool) : (c.pendingC i b).landed = c.landed := rfl
@[simp] theorem Ctx.pendingC_bits (c : Ctx) (i : Fin 4) (b : Bool) : (c.pendingC i b).bits = c.bits := rfl
@[simp] theorem Ctx.pendingC_gbar (c : Ctx) (i : Fin 4) (b : Bool) : (c.pendingC i b).gbar = c.gbar := rfl
@[simp] theorem Ctx.pendingC_probe (c : Ctx) (i : Fin 4) (b : Bool) : (c.pendingC i b).probe = c.probe := rfl
@[simp] theorem Ctx.pendingC_qpt (c : Ctx) (i : Fin 4) (b : Bool) : (c.pendingC i b).qpt = c.qpt := rfl
@[simp] theorem Ctx.pendingC_tw (c : Ctx) (i : Fin 4) (b : Bool) : (c.pendingC i b).tw = c.tw := rfl
@[simp] theorem Ctx.pendingC_ack (c : Ctx) (i : Fin 4) (b : Bool) : (c.pendingC i b).ack = c.ack := rfl
@[simp] theorem Ctx.pendingC_due (c : Ctx) (i : Fin 4) (b : Bool) : (c.pendingC i b).due = c.due := rfl
@[simp] theorem Ctx.pendingC_trap (c : Ctx) (i : Fin 4) (b : Bool) : (c.pendingC i b).trap = c.trap := rfl
@[simp] theorem Ctx.pendingC_assist (c : Ctx) (i : Fin 4) (b : Bool) : (c.pendingC i b).assist = c.assist := rfl
@[simp] theorem Ctx.pendingC_preempt (c : Ctx) (i : Fin 4) (b : Bool) : (c.pendingC i b).preempt = c.preempt := rfl
@[simp] theorem Ctx.pendingC_heldKb (c : Ctx) (i : Fin 4) (b : Bool) : (c.pendingC i b).heldKb = c.heldKb := rfl
@[simp] theorem Ctx.pendingC_heldMx (c : Ctx) (i : Fin 4) (b : Bool) : (c.pendingC i b).heldMx = c.heldMx := rfl
@[simp] theorem Ctx.pendingC_dbgHold (c : Ctx) (i : Fin 4) (b : Bool) : (c.pendingC i b).dbgHold = c.dbgHold := rfl
@[simp] theorem Ctx.pendingC_haltAt (c : Ctx) (i : Fin 4) (b : Bool) : (c.pendingC i b).haltAt = c.haltAt := rfl
@[simp] theorem Ctx.pendingC_blocked (c : Ctx) (i : Fin 4) (b : Bool) : (c.pendingC i b).blocked = c.blocked := rfl
@[simp] theorem Ctx.pendingC_quiet (c : Ctx) (i : Fin 4) (b : Bool) : (c.pendingC i b).quiet = c.quiet := rfl

/-! ### A value lands in an s register -/

@[simp] theorem Ctx.landS_st (c : Ctx) (i : Fin 64) (x : Word) : (c.landS i x).st = c.st := by simp [Ctx.landS]
@[simp] theorem Ctx.landS_pc (c : Ctx) (i : Fin 64) (x : Word) : (c.landS i x).pc = c.pc := by simp [Ctx.landS]
@[simp] theorem Ctx.landS_v (c : Ctx) (i : Fin 64) (x : Word) : (c.landS i x).v = c.v := by simp [Ctx.landS]
@[simp] theorem Ctx.landS_m (c : Ctx) (i : Fin 64) (x : Word) : (c.landS i x).m = c.m := by simp [Ctx.landS]
@[simp] theorem Ctx.landS_c (c : Ctx) (i : Fin 64) (x : Word) : (c.landS i x).c = c.c := by simp [Ctx.landS]
@[simp] theorem Ctx.landS_psP (c : Ctx) (i : Fin 64) (x : Word) : (c.landS i x).psP = c.psP := by simp [Ctx.landS]
@[simp] theorem Ctx.landS_psB (c : Ctx) (i : Fin 64) (x : Word) : (c.landS i x).psB = c.psB := by simp [Ctx.landS]
@[simp] theorem Ctx.landS_k (c : Ctx) (i : Fin 64) (x : Word) : (c.landS i x).k = c.k := by simp [Ctx.landS]
@[simp] theorem Ctx.landS_x (c : Ctx) (i : Fin 64) (x : Word) : (c.landS i x).x = c.x := by simp [Ctx.landS]
@[simp] theorem Ctx.landS_kOld (c : Ctx) (i : Fin 64) (x : Word) : (c.landS i x).kOld = c.kOld := by simp [Ctx.landS]
@[simp] theorem Ctx.landS_w (c : Ctx) (i : Fin 64) (x : Word) : (c.landS i x).w = c.w := by simp [Ctx.landS]
@[simp] theorem Ctx.landS_lat (c : Ctx) (i : Fin 64) (x : Word) : (c.landS i x).lat = c.lat := by simp [Ctx.landS]
@[simp] theorem Ctx.landS_bsWin (c : Ctx) (i : Fin 64) (x : Word) : (c.landS i x).bsWin = c.bsWin := by simp [Ctx.landS]
@[simp] theorem Ctx.landS_bsCnt (c : Ctx) (i : Fin 64) (x : Word) : (c.landS i x).bsCnt = c.bsCnt := by simp [Ctx.landS]
@[simp] theorem Ctx.landS_fpc (c : Ctx) (i : Fin 64) (x : Word) : (c.landS i x).fpc = c.fpc := by simp [Ctx.landS]
@[simp] theorem Ctx.landS_stat (c : Ctx) (i : Fin 64) (x : Word) : (c.landS i x).stat = c.stat := by simp [Ctx.landS]
@[simp] theorem Ctx.landS_kpol (c : Ctx) (i : Fin 64) (x : Word) : (c.landS i x).kpol = c.kpol := by simp [Ctx.landS]
@[simp] theorem Ctx.landS_ixpol (c : Ctx) (i : Fin 64) (x : Word) : (c.landS i x).ixpol = c.ixpol := by simp [Ctx.landS]
@[simp] theorem Ctx.landS_lc (c : Ctx) (i : Fin 64) (x : Word) : (c.landS i x).lc = c.lc := by simp [Ctx.landS]
@[simp] theorem Ctx.landS_ecCnt (c : Ctx) (i : Fin 64) (x : Word) : (c.landS i x).ecCnt = c.ecCnt := by simp [Ctx.landS]
@[simp] theorem Ctx.landS_gmem (c : Ctx) (i : Fin 64) (x : Word) : (c.landS i x).gmem = c.gmem := by simp [Ctx.landS]
@[simp] theorem Ctx.landS_dbg (c : Ctx) (i : Fin 64) (x : Word) : (c.landS i x).dbg = c.dbg := by simp [Ctx.landS]
@[simp] theorem Ctx.landS_rbseed (c : Ctx) (i : Fin 64) (x : Word) : (c.landS i x).rbseed = c.rbseed := by simp [Ctx.landS]
@[simp] theorem Ctx.landS_rbn (c : Ctx) (i : Fin 64) (x : Word) : (c.landS i x).rbn = c.rbn := by simp [Ctx.landS]
@[simp] theorem Ctx.landS_rbq (c : Ctx) (i : Fin 64) (x : Word) : (c.landS i x).rbq = c.rbq := by simp [Ctx.landS]
@[simp] theorem Ctx.landS_cwm (c : Ctx) (i : Fin 64) (x : Word) : (c.landS i x).cwm = c.cwm := by simp [Ctx.landS]
@[simp] theorem Ctx.landS_nextId (c : Ctx) (i : Fin 64) (x : Word) : (c.landS i x).nextId = c.nextId := by simp [Ctx.landS]
@[simp] theorem Ctx.landS_joinp (c : Ctx) (i : Fin 64) (x : Word) : (c.landS i x).joinp = c.joinp := by simp [Ctx.landS]
@[simp] theorem Ctx.landS_pasid (c : Ctx) (i : Fin 64) (x : Word) : (c.landS i x).pasid = c.pasid := by simp [Ctx.landS]
@[simp] theorem Ctx.landS_savea (c : Ctx) (i : Fin 64) (x : Word) : (c.landS i x).savea = c.savea := by simp [Ctx.landS]
@[simp] theorem Ctx.landS_ld (c : Ctx) (i : Fin 64) (x : Word) : (c.landS i x).ld = c.ld := by simp [Ctx.landS]
@[simp] theorem Ctx.landS_stc (c : Ctx) (i : Fin 64) (x : Word) : (c.landS i x).stc = c.stc := by simp [Ctx.landS]
@[simp] theorem Ctx.landS_cp (c : Ctx) (i : Fin 64) (x : Word) : (c.landS i x).cp = c.cp := by simp [Ctx.landS]
@[simp] theorem Ctx.landS_tl (c : Ctx) (i : Fin 64) (x : Word) : (c.landS i x).tl = c.tl := by simp [Ctx.landS]
@[simp] theorem Ctx.landS_pendV (c : Ctx) (i : Fin 64) (x : Word) : (c.landS i x).pendV = c.pendV := by simp [Ctx.landS]
@[simp] theorem Ctx.landS_pendC (c : Ctx) (i : Fin 64) (x : Word) : (c.landS i x).pendC = c.pendC := by simp [Ctx.landS]
@[simp] theorem Ctx.landS_pend (c : Ctx) (i : Fin 64) (x : Word) : (c.landS i x).pend = c.pend := by simp [Ctx.landS]
@[simp] theorem Ctx.landS_stores (c : Ctx) (i : Fin 64) (x : Word) : (c.landS i x).stores = c.stores := by simp [Ctx.landS]
@[simp] theorem Ctx.landS_xfer (c : Ctx) (i : Fin 64) (x : Word) : (c.landS i x).xfer = c.xfer := by simp [Ctx.landS]
@[simp] theorem Ctx.landS_loop (c : Ctx) (i : Fin 64) (x : Word) : (c.landS i x).loop = c.loop := by simp [Ctx.landS]
@[simp] theorem Ctx.landS_applies (c : Ctx) (i : Fin 64) (x : Word) : (c.landS i x).applies = c.applies := by simp [Ctx.landS]
@[simp] theorem Ctx.landS_sb (c : Ctx) (i : Fin 64) (x : Word) : (c.landS i x).sb = c.sb := by simp [Ctx.landS]
@[simp] theorem Ctx.landS_post (c : Ctx) (i : Fin 64) (x : Word) : (c.landS i x).post = c.post := by simp [Ctx.landS]
@[simp] theorem Ctx.landS_seq (c : Ctx) (i : Fin 64) (x : Word) : (c.landS i x).seq = c.seq := by simp [Ctx.landS]
@[simp] theorem Ctx.landS_lastSeq (c : Ctx) (i : Fin 64) (x : Word) : (c.landS i x).lastSeq = c.lastSeq := by simp [Ctx.landS]
@[simp] theorem Ctx.landS_recent (c : Ctx) (i : Fin 64) (x : Word) : (c.landS i x).recent = c.recent := by simp [Ctx.landS]
@[simp] theorem Ctx.landS_waited (c : Ctx) (i : Fin 64) (x : Word) : (c.landS i x).waited = c.waited := by simp [Ctx.landS]
@[simp] theorem Ctx.landS_issued (c : Ctx) (i : Fin 64) (x : Word) : (c.landS i x).issued = c.issued := by simp [Ctx.landS]
@[simp] theorem Ctx.landS_landed (c : Ctx) (i : Fin 64) (x : Word) : (c.landS i x).landed = c.landed := by simp [Ctx.landS]
@[simp] theorem Ctx.landS_bits (c : Ctx) (i : Fin 64) (x : Word) : (c.landS i x).bits = c.bits := by simp [Ctx.landS]
@[simp] theorem Ctx.landS_gbar (c : Ctx) (i : Fin 64) (x : Word) : (c.landS i x).gbar = c.gbar := by simp [Ctx.landS]
@[simp] theorem Ctx.landS_probe (c : Ctx) (i : Fin 64) (x : Word) : (c.landS i x).probe = c.probe := by simp [Ctx.landS]
@[simp] theorem Ctx.landS_qpt (c : Ctx) (i : Fin 64) (x : Word) : (c.landS i x).qpt = c.qpt := by simp [Ctx.landS]
@[simp] theorem Ctx.landS_tw (c : Ctx) (i : Fin 64) (x : Word) : (c.landS i x).tw = c.tw := by simp [Ctx.landS]
@[simp] theorem Ctx.landS_ack (c : Ctx) (i : Fin 64) (x : Word) : (c.landS i x).ack = c.ack := by simp [Ctx.landS]
@[simp] theorem Ctx.landS_due (c : Ctx) (i : Fin 64) (x : Word) : (c.landS i x).due = c.due := by simp [Ctx.landS]
@[simp] theorem Ctx.landS_trap (c : Ctx) (i : Fin 64) (x : Word) : (c.landS i x).trap = c.trap := by simp [Ctx.landS]
@[simp] theorem Ctx.landS_assist (c : Ctx) (i : Fin 64) (x : Word) : (c.landS i x).assist = c.assist := by simp [Ctx.landS]
@[simp] theorem Ctx.landS_preempt (c : Ctx) (i : Fin 64) (x : Word) : (c.landS i x).preempt = c.preempt := by simp [Ctx.landS]
@[simp] theorem Ctx.landS_heldKb (c : Ctx) (i : Fin 64) (x : Word) : (c.landS i x).heldKb = c.heldKb := by simp [Ctx.landS]
@[simp] theorem Ctx.landS_heldMx (c : Ctx) (i : Fin 64) (x : Word) : (c.landS i x).heldMx = c.heldMx := by simp [Ctx.landS]
@[simp] theorem Ctx.landS_dbgHold (c : Ctx) (i : Fin 64) (x : Word) : (c.landS i x).dbgHold = c.dbgHold := by simp [Ctx.landS]
@[simp] theorem Ctx.landS_haltAt (c : Ctx) (i : Fin 64) (x : Word) : (c.landS i x).haltAt = c.haltAt := by simp [Ctx.landS]
@[simp] theorem Ctx.landS_blocked (c : Ctx) (i : Fin 64) (x : Word) : (c.landS i x).blocked = c.blocked := by simp [Ctx.landS]
@[simp] theorem Ctx.landS_quiet (c : Ctx) (i : Fin 64) (x : Word) : (c.landS i x).quiet = c.quiet := by simp [Ctx.landS]

/-! ### A value lands in a v register -/

@[simp] theorem Ctx.landV_st (c : Ctx) (i : Fin 32) (x : Vec) : (c.landV i x).st = c.st := rfl
@[simp] theorem Ctx.landV_pc (c : Ctx) (i : Fin 32) (x : Vec) : (c.landV i x).pc = c.pc := rfl
@[simp] theorem Ctx.landV_s (c : Ctx) (i : Fin 32) (x : Vec) : (c.landV i x).s = c.s := rfl
@[simp] theorem Ctx.landV_m (c : Ctx) (i : Fin 32) (x : Vec) : (c.landV i x).m = c.m := rfl
@[simp] theorem Ctx.landV_c (c : Ctx) (i : Fin 32) (x : Vec) : (c.landV i x).c = c.c := rfl
@[simp] theorem Ctx.landV_psP (c : Ctx) (i : Fin 32) (x : Vec) : (c.landV i x).psP = c.psP := rfl
@[simp] theorem Ctx.landV_psB (c : Ctx) (i : Fin 32) (x : Vec) : (c.landV i x).psB = c.psB := rfl
@[simp] theorem Ctx.landV_k (c : Ctx) (i : Fin 32) (x : Vec) : (c.landV i x).k = c.k := rfl
@[simp] theorem Ctx.landV_x (c : Ctx) (i : Fin 32) (x : Vec) : (c.landV i x).x = c.x := rfl
@[simp] theorem Ctx.landV_kOld (c : Ctx) (i : Fin 32) (x : Vec) : (c.landV i x).kOld = c.kOld := rfl
@[simp] theorem Ctx.landV_w (c : Ctx) (i : Fin 32) (x : Vec) : (c.landV i x).w = c.w := rfl
@[simp] theorem Ctx.landV_lat (c : Ctx) (i : Fin 32) (x : Vec) : (c.landV i x).lat = c.lat := rfl
@[simp] theorem Ctx.landV_bsWin (c : Ctx) (i : Fin 32) (x : Vec) : (c.landV i x).bsWin = c.bsWin := rfl
@[simp] theorem Ctx.landV_bsCnt (c : Ctx) (i : Fin 32) (x : Vec) : (c.landV i x).bsCnt = c.bsCnt := rfl
@[simp] theorem Ctx.landV_fpc (c : Ctx) (i : Fin 32) (x : Vec) : (c.landV i x).fpc = c.fpc := rfl
@[simp] theorem Ctx.landV_stat (c : Ctx) (i : Fin 32) (x : Vec) : (c.landV i x).stat = c.stat := rfl
@[simp] theorem Ctx.landV_kpol (c : Ctx) (i : Fin 32) (x : Vec) : (c.landV i x).kpol = c.kpol := rfl
@[simp] theorem Ctx.landV_ixpol (c : Ctx) (i : Fin 32) (x : Vec) : (c.landV i x).ixpol = c.ixpol := rfl
@[simp] theorem Ctx.landV_lc (c : Ctx) (i : Fin 32) (x : Vec) : (c.landV i x).lc = c.lc := rfl
@[simp] theorem Ctx.landV_ecCnt (c : Ctx) (i : Fin 32) (x : Vec) : (c.landV i x).ecCnt = c.ecCnt := rfl
@[simp] theorem Ctx.landV_gmem (c : Ctx) (i : Fin 32) (x : Vec) : (c.landV i x).gmem = c.gmem := rfl
@[simp] theorem Ctx.landV_dbg (c : Ctx) (i : Fin 32) (x : Vec) : (c.landV i x).dbg = c.dbg := rfl
@[simp] theorem Ctx.landV_rbseed (c : Ctx) (i : Fin 32) (x : Vec) : (c.landV i x).rbseed = c.rbseed := rfl
@[simp] theorem Ctx.landV_rbn (c : Ctx) (i : Fin 32) (x : Vec) : (c.landV i x).rbn = c.rbn := rfl
@[simp] theorem Ctx.landV_rbq (c : Ctx) (i : Fin 32) (x : Vec) : (c.landV i x).rbq = c.rbq := rfl
@[simp] theorem Ctx.landV_cwm (c : Ctx) (i : Fin 32) (x : Vec) : (c.landV i x).cwm = c.cwm := rfl
@[simp] theorem Ctx.landV_nextId (c : Ctx) (i : Fin 32) (x : Vec) : (c.landV i x).nextId = c.nextId := rfl
@[simp] theorem Ctx.landV_joinp (c : Ctx) (i : Fin 32) (x : Vec) : (c.landV i x).joinp = c.joinp := rfl
@[simp] theorem Ctx.landV_pasid (c : Ctx) (i : Fin 32) (x : Vec) : (c.landV i x).pasid = c.pasid := rfl
@[simp] theorem Ctx.landV_savea (c : Ctx) (i : Fin 32) (x : Vec) : (c.landV i x).savea = c.savea := rfl
@[simp] theorem Ctx.landV_ld (c : Ctx) (i : Fin 32) (x : Vec) : (c.landV i x).ld = c.ld := rfl
@[simp] theorem Ctx.landV_stc (c : Ctx) (i : Fin 32) (x : Vec) : (c.landV i x).stc = c.stc := rfl
@[simp] theorem Ctx.landV_cp (c : Ctx) (i : Fin 32) (x : Vec) : (c.landV i x).cp = c.cp := rfl
@[simp] theorem Ctx.landV_tl (c : Ctx) (i : Fin 32) (x : Vec) : (c.landV i x).tl = c.tl := rfl
@[simp] theorem Ctx.landV_pendS (c : Ctx) (i : Fin 32) (x : Vec) : (c.landV i x).pendS = c.pendS := rfl
@[simp] theorem Ctx.landV_pendC (c : Ctx) (i : Fin 32) (x : Vec) : (c.landV i x).pendC = c.pendC := rfl
@[simp] theorem Ctx.landV_pend (c : Ctx) (i : Fin 32) (x : Vec) : (c.landV i x).pend = c.pend := rfl
@[simp] theorem Ctx.landV_stores (c : Ctx) (i : Fin 32) (x : Vec) : (c.landV i x).stores = c.stores := rfl
@[simp] theorem Ctx.landV_xfer (c : Ctx) (i : Fin 32) (x : Vec) : (c.landV i x).xfer = c.xfer := rfl
@[simp] theorem Ctx.landV_loop (c : Ctx) (i : Fin 32) (x : Vec) : (c.landV i x).loop = c.loop := rfl
@[simp] theorem Ctx.landV_applies (c : Ctx) (i : Fin 32) (x : Vec) : (c.landV i x).applies = c.applies := rfl
@[simp] theorem Ctx.landV_sb (c : Ctx) (i : Fin 32) (x : Vec) : (c.landV i x).sb = c.sb := rfl
@[simp] theorem Ctx.landV_post (c : Ctx) (i : Fin 32) (x : Vec) : (c.landV i x).post = c.post := rfl
@[simp] theorem Ctx.landV_seq (c : Ctx) (i : Fin 32) (x : Vec) : (c.landV i x).seq = c.seq := rfl
@[simp] theorem Ctx.landV_lastSeq (c : Ctx) (i : Fin 32) (x : Vec) : (c.landV i x).lastSeq = c.lastSeq := rfl
@[simp] theorem Ctx.landV_recent (c : Ctx) (i : Fin 32) (x : Vec) : (c.landV i x).recent = c.recent := rfl
@[simp] theorem Ctx.landV_waited (c : Ctx) (i : Fin 32) (x : Vec) : (c.landV i x).waited = c.waited := rfl
@[simp] theorem Ctx.landV_issued (c : Ctx) (i : Fin 32) (x : Vec) : (c.landV i x).issued = c.issued := rfl
@[simp] theorem Ctx.landV_landed (c : Ctx) (i : Fin 32) (x : Vec) : (c.landV i x).landed = c.landed := rfl
@[simp] theorem Ctx.landV_bits (c : Ctx) (i : Fin 32) (x : Vec) : (c.landV i x).bits = c.bits := rfl
@[simp] theorem Ctx.landV_gbar (c : Ctx) (i : Fin 32) (x : Vec) : (c.landV i x).gbar = c.gbar := rfl
@[simp] theorem Ctx.landV_probe (c : Ctx) (i : Fin 32) (x : Vec) : (c.landV i x).probe = c.probe := rfl
@[simp] theorem Ctx.landV_qpt (c : Ctx) (i : Fin 32) (x : Vec) : (c.landV i x).qpt = c.qpt := rfl
@[simp] theorem Ctx.landV_tw (c : Ctx) (i : Fin 32) (x : Vec) : (c.landV i x).tw = c.tw := rfl
@[simp] theorem Ctx.landV_ack (c : Ctx) (i : Fin 32) (x : Vec) : (c.landV i x).ack = c.ack := rfl
@[simp] theorem Ctx.landV_due (c : Ctx) (i : Fin 32) (x : Vec) : (c.landV i x).due = c.due := rfl
@[simp] theorem Ctx.landV_trap (c : Ctx) (i : Fin 32) (x : Vec) : (c.landV i x).trap = c.trap := rfl
@[simp] theorem Ctx.landV_assist (c : Ctx) (i : Fin 32) (x : Vec) : (c.landV i x).assist = c.assist := rfl
@[simp] theorem Ctx.landV_preempt (c : Ctx) (i : Fin 32) (x : Vec) : (c.landV i x).preempt = c.preempt := rfl
@[simp] theorem Ctx.landV_heldKb (c : Ctx) (i : Fin 32) (x : Vec) : (c.landV i x).heldKb = c.heldKb := rfl
@[simp] theorem Ctx.landV_heldMx (c : Ctx) (i : Fin 32) (x : Vec) : (c.landV i x).heldMx = c.heldMx := rfl
@[simp] theorem Ctx.landV_dbgHold (c : Ctx) (i : Fin 32) (x : Vec) : (c.landV i x).dbgHold = c.dbgHold := rfl
@[simp] theorem Ctx.landV_haltAt (c : Ctx) (i : Fin 32) (x : Vec) : (c.landV i x).haltAt = c.haltAt := rfl
@[simp] theorem Ctx.landV_blocked (c : Ctx) (i : Fin 32) (x : Vec) : (c.landV i x).blocked = c.blocked := rfl
@[simp] theorem Ctx.landV_quiet (c : Ctx) (i : Fin 32) (x : Vec) : (c.landV i x).quiet = c.quiet := rfl

/-! ### A latch changed -/

@[simp] theorem Ctx.modLatch_st (c : Ctx) (u : Fin 15) (f : Latch → Latch) : (c.modLatch u f).st = c.st := rfl
@[simp] theorem Ctx.modLatch_pc (c : Ctx) (u : Fin 15) (f : Latch → Latch) : (c.modLatch u f).pc = c.pc := rfl
@[simp] theorem Ctx.modLatch_s (c : Ctx) (u : Fin 15) (f : Latch → Latch) : (c.modLatch u f).s = c.s := rfl
@[simp] theorem Ctx.modLatch_v (c : Ctx) (u : Fin 15) (f : Latch → Latch) : (c.modLatch u f).v = c.v := rfl
@[simp] theorem Ctx.modLatch_m (c : Ctx) (u : Fin 15) (f : Latch → Latch) : (c.modLatch u f).m = c.m := rfl
@[simp] theorem Ctx.modLatch_c (c : Ctx) (u : Fin 15) (f : Latch → Latch) : (c.modLatch u f).c = c.c := rfl
@[simp] theorem Ctx.modLatch_psP (c : Ctx) (u : Fin 15) (f : Latch → Latch) : (c.modLatch u f).psP = c.psP := rfl
@[simp] theorem Ctx.modLatch_psB (c : Ctx) (u : Fin 15) (f : Latch → Latch) : (c.modLatch u f).psB = c.psB := rfl
@[simp] theorem Ctx.modLatch_k (c : Ctx) (u : Fin 15) (f : Latch → Latch) : (c.modLatch u f).k = c.k := rfl
@[simp] theorem Ctx.modLatch_x (c : Ctx) (u : Fin 15) (f : Latch → Latch) : (c.modLatch u f).x = c.x := rfl
@[simp] theorem Ctx.modLatch_kOld (c : Ctx) (u : Fin 15) (f : Latch → Latch) : (c.modLatch u f).kOld = c.kOld := rfl
@[simp] theorem Ctx.modLatch_w (c : Ctx) (u : Fin 15) (f : Latch → Latch) : (c.modLatch u f).w = c.w := rfl
@[simp] theorem Ctx.modLatch_bsWin (c : Ctx) (u : Fin 15) (f : Latch → Latch) : (c.modLatch u f).bsWin = c.bsWin := rfl
@[simp] theorem Ctx.modLatch_bsCnt (c : Ctx) (u : Fin 15) (f : Latch → Latch) : (c.modLatch u f).bsCnt = c.bsCnt := rfl
@[simp] theorem Ctx.modLatch_fpc (c : Ctx) (u : Fin 15) (f : Latch → Latch) : (c.modLatch u f).fpc = c.fpc := rfl
@[simp] theorem Ctx.modLatch_stat (c : Ctx) (u : Fin 15) (f : Latch → Latch) : (c.modLatch u f).stat = c.stat := rfl
@[simp] theorem Ctx.modLatch_kpol (c : Ctx) (u : Fin 15) (f : Latch → Latch) : (c.modLatch u f).kpol = c.kpol := rfl
@[simp] theorem Ctx.modLatch_ixpol (c : Ctx) (u : Fin 15) (f : Latch → Latch) : (c.modLatch u f).ixpol = c.ixpol := rfl
@[simp] theorem Ctx.modLatch_lc (c : Ctx) (u : Fin 15) (f : Latch → Latch) : (c.modLatch u f).lc = c.lc := rfl
@[simp] theorem Ctx.modLatch_ecCnt (c : Ctx) (u : Fin 15) (f : Latch → Latch) : (c.modLatch u f).ecCnt = c.ecCnt := rfl
@[simp] theorem Ctx.modLatch_gmem (c : Ctx) (u : Fin 15) (f : Latch → Latch) : (c.modLatch u f).gmem = c.gmem := rfl
@[simp] theorem Ctx.modLatch_dbg (c : Ctx) (u : Fin 15) (f : Latch → Latch) : (c.modLatch u f).dbg = c.dbg := rfl
@[simp] theorem Ctx.modLatch_rbseed (c : Ctx) (u : Fin 15) (f : Latch → Latch) : (c.modLatch u f).rbseed = c.rbseed := rfl
@[simp] theorem Ctx.modLatch_rbn (c : Ctx) (u : Fin 15) (f : Latch → Latch) : (c.modLatch u f).rbn = c.rbn := rfl
@[simp] theorem Ctx.modLatch_rbq (c : Ctx) (u : Fin 15) (f : Latch → Latch) : (c.modLatch u f).rbq = c.rbq := rfl
@[simp] theorem Ctx.modLatch_cwm (c : Ctx) (u : Fin 15) (f : Latch → Latch) : (c.modLatch u f).cwm = c.cwm := rfl
@[simp] theorem Ctx.modLatch_nextId (c : Ctx) (u : Fin 15) (f : Latch → Latch) : (c.modLatch u f).nextId = c.nextId := rfl
@[simp] theorem Ctx.modLatch_joinp (c : Ctx) (u : Fin 15) (f : Latch → Latch) : (c.modLatch u f).joinp = c.joinp := rfl
@[simp] theorem Ctx.modLatch_pasid (c : Ctx) (u : Fin 15) (f : Latch → Latch) : (c.modLatch u f).pasid = c.pasid := rfl
@[simp] theorem Ctx.modLatch_savea (c : Ctx) (u : Fin 15) (f : Latch → Latch) : (c.modLatch u f).savea = c.savea := rfl
@[simp] theorem Ctx.modLatch_ld (c : Ctx) (u : Fin 15) (f : Latch → Latch) : (c.modLatch u f).ld = c.ld := rfl
@[simp] theorem Ctx.modLatch_stc (c : Ctx) (u : Fin 15) (f : Latch → Latch) : (c.modLatch u f).stc = c.stc := rfl
@[simp] theorem Ctx.modLatch_cp (c : Ctx) (u : Fin 15) (f : Latch → Latch) : (c.modLatch u f).cp = c.cp := rfl
@[simp] theorem Ctx.modLatch_tl (c : Ctx) (u : Fin 15) (f : Latch → Latch) : (c.modLatch u f).tl = c.tl := rfl
@[simp] theorem Ctx.modLatch_pendS (c : Ctx) (u : Fin 15) (f : Latch → Latch) : (c.modLatch u f).pendS = c.pendS := rfl
@[simp] theorem Ctx.modLatch_pendV (c : Ctx) (u : Fin 15) (f : Latch → Latch) : (c.modLatch u f).pendV = c.pendV := rfl
@[simp] theorem Ctx.modLatch_pendC (c : Ctx) (u : Fin 15) (f : Latch → Latch) : (c.modLatch u f).pendC = c.pendC := rfl
@[simp] theorem Ctx.modLatch_pend (c : Ctx) (u : Fin 15) (f : Latch → Latch) : (c.modLatch u f).pend = c.pend := rfl
@[simp] theorem Ctx.modLatch_stores (c : Ctx) (u : Fin 15) (f : Latch → Latch) : (c.modLatch u f).stores = c.stores := rfl
@[simp] theorem Ctx.modLatch_xfer (c : Ctx) (u : Fin 15) (f : Latch → Latch) : (c.modLatch u f).xfer = c.xfer := rfl
@[simp] theorem Ctx.modLatch_loop (c : Ctx) (u : Fin 15) (f : Latch → Latch) : (c.modLatch u f).loop = c.loop := rfl
@[simp] theorem Ctx.modLatch_applies (c : Ctx) (u : Fin 15) (f : Latch → Latch) : (c.modLatch u f).applies = c.applies := rfl
@[simp] theorem Ctx.modLatch_sb (c : Ctx) (u : Fin 15) (f : Latch → Latch) : (c.modLatch u f).sb = c.sb := rfl
@[simp] theorem Ctx.modLatch_post (c : Ctx) (u : Fin 15) (f : Latch → Latch) : (c.modLatch u f).post = c.post := rfl
@[simp] theorem Ctx.modLatch_seq (c : Ctx) (u : Fin 15) (f : Latch → Latch) : (c.modLatch u f).seq = c.seq := rfl
@[simp] theorem Ctx.modLatch_lastSeq (c : Ctx) (u : Fin 15) (f : Latch → Latch) : (c.modLatch u f).lastSeq = c.lastSeq := rfl
@[simp] theorem Ctx.modLatch_recent (c : Ctx) (u : Fin 15) (f : Latch → Latch) : (c.modLatch u f).recent = c.recent := rfl
@[simp] theorem Ctx.modLatch_waited (c : Ctx) (u : Fin 15) (f : Latch → Latch) : (c.modLatch u f).waited = c.waited := rfl
@[simp] theorem Ctx.modLatch_issued (c : Ctx) (u : Fin 15) (f : Latch → Latch) : (c.modLatch u f).issued = c.issued := rfl
@[simp] theorem Ctx.modLatch_landed (c : Ctx) (u : Fin 15) (f : Latch → Latch) : (c.modLatch u f).landed = c.landed := rfl
@[simp] theorem Ctx.modLatch_bits (c : Ctx) (u : Fin 15) (f : Latch → Latch) : (c.modLatch u f).bits = c.bits := rfl
@[simp] theorem Ctx.modLatch_gbar (c : Ctx) (u : Fin 15) (f : Latch → Latch) : (c.modLatch u f).gbar = c.gbar := rfl
@[simp] theorem Ctx.modLatch_probe (c : Ctx) (u : Fin 15) (f : Latch → Latch) : (c.modLatch u f).probe = c.probe := rfl
@[simp] theorem Ctx.modLatch_qpt (c : Ctx) (u : Fin 15) (f : Latch → Latch) : (c.modLatch u f).qpt = c.qpt := rfl
@[simp] theorem Ctx.modLatch_tw (c : Ctx) (u : Fin 15) (f : Latch → Latch) : (c.modLatch u f).tw = c.tw := rfl
@[simp] theorem Ctx.modLatch_ack (c : Ctx) (u : Fin 15) (f : Latch → Latch) : (c.modLatch u f).ack = c.ack := rfl
@[simp] theorem Ctx.modLatch_due (c : Ctx) (u : Fin 15) (f : Latch → Latch) : (c.modLatch u f).due = c.due := rfl
@[simp] theorem Ctx.modLatch_trap (c : Ctx) (u : Fin 15) (f : Latch → Latch) : (c.modLatch u f).trap = c.trap := rfl
@[simp] theorem Ctx.modLatch_assist (c : Ctx) (u : Fin 15) (f : Latch → Latch) : (c.modLatch u f).assist = c.assist := rfl
@[simp] theorem Ctx.modLatch_preempt (c : Ctx) (u : Fin 15) (f : Latch → Latch) : (c.modLatch u f).preempt = c.preempt := rfl
@[simp] theorem Ctx.modLatch_heldKb (c : Ctx) (u : Fin 15) (f : Latch → Latch) : (c.modLatch u f).heldKb = c.heldKb := rfl
@[simp] theorem Ctx.modLatch_heldMx (c : Ctx) (u : Fin 15) (f : Latch → Latch) : (c.modLatch u f).heldMx = c.heldMx := rfl
@[simp] theorem Ctx.modLatch_dbgHold (c : Ctx) (u : Fin 15) (f : Latch → Latch) : (c.modLatch u f).dbgHold = c.dbgHold := rfl
@[simp] theorem Ctx.modLatch_haltAt (c : Ctx) (u : Fin 15) (f : Latch → Latch) : (c.modLatch u f).haltAt = c.haltAt := rfl
@[simp] theorem Ctx.modLatch_blocked (c : Ctx) (u : Fin 15) (f : Latch → Latch) : (c.modLatch u f).blocked = c.blocked := rfl
@[simp] theorem Ctx.modLatch_quiet (c : Ctx) (u : Fin 15) (f : Latch → Latch) : (c.modLatch u f).quiet = c.quiet := rfl

/-! ### Flags set -/

@[simp] theorem Ctx.flag_st (c : Ctx) (f : BitVec 9) : (c.flag f).st = c.st := rfl
@[simp] theorem Ctx.flag_pc (c : Ctx) (f : BitVec 9) : (c.flag f).pc = c.pc := rfl
@[simp] theorem Ctx.flag_s (c : Ctx) (f : BitVec 9) : (c.flag f).s = c.s := rfl
@[simp] theorem Ctx.flag_v (c : Ctx) (f : BitVec 9) : (c.flag f).v = c.v := rfl
@[simp] theorem Ctx.flag_m (c : Ctx) (f : BitVec 9) : (c.flag f).m = c.m := rfl
@[simp] theorem Ctx.flag_c (c : Ctx) (f : BitVec 9) : (c.flag f).c = c.c := rfl
@[simp] theorem Ctx.flag_psP (c : Ctx) (f : BitVec 9) : (c.flag f).psP = c.psP := rfl
@[simp] theorem Ctx.flag_psB (c : Ctx) (f : BitVec 9) : (c.flag f).psB = c.psB := rfl
@[simp] theorem Ctx.flag_k (c : Ctx) (f : BitVec 9) : (c.flag f).k = c.k := rfl
@[simp] theorem Ctx.flag_x (c : Ctx) (f : BitVec 9) : (c.flag f).x = c.x := rfl
@[simp] theorem Ctx.flag_kOld (c : Ctx) (f : BitVec 9) : (c.flag f).kOld = c.kOld := rfl
@[simp] theorem Ctx.flag_w (c : Ctx) (f : BitVec 9) : (c.flag f).w = c.w := rfl
@[simp] theorem Ctx.flag_lat (c : Ctx) (f : BitVec 9) : (c.flag f).lat = c.lat := rfl
@[simp] theorem Ctx.flag_bsWin (c : Ctx) (f : BitVec 9) : (c.flag f).bsWin = c.bsWin := rfl
@[simp] theorem Ctx.flag_bsCnt (c : Ctx) (f : BitVec 9) : (c.flag f).bsCnt = c.bsCnt := rfl
@[simp] theorem Ctx.flag_fpc (c : Ctx) (f : BitVec 9) : (c.flag f).fpc = c.fpc := rfl
@[simp] theorem Ctx.flag_kpol (c : Ctx) (f : BitVec 9) : (c.flag f).kpol = c.kpol := rfl
@[simp] theorem Ctx.flag_ixpol (c : Ctx) (f : BitVec 9) : (c.flag f).ixpol = c.ixpol := rfl
@[simp] theorem Ctx.flag_lc (c : Ctx) (f : BitVec 9) : (c.flag f).lc = c.lc := rfl
@[simp] theorem Ctx.flag_ecCnt (c : Ctx) (f : BitVec 9) : (c.flag f).ecCnt = c.ecCnt := rfl
@[simp] theorem Ctx.flag_gmem (c : Ctx) (f : BitVec 9) : (c.flag f).gmem = c.gmem := rfl
@[simp] theorem Ctx.flag_dbg (c : Ctx) (f : BitVec 9) : (c.flag f).dbg = c.dbg := rfl
@[simp] theorem Ctx.flag_rbseed (c : Ctx) (f : BitVec 9) : (c.flag f).rbseed = c.rbseed := rfl
@[simp] theorem Ctx.flag_rbn (c : Ctx) (f : BitVec 9) : (c.flag f).rbn = c.rbn := rfl
@[simp] theorem Ctx.flag_rbq (c : Ctx) (f : BitVec 9) : (c.flag f).rbq = c.rbq := rfl
@[simp] theorem Ctx.flag_cwm (c : Ctx) (f : BitVec 9) : (c.flag f).cwm = c.cwm := rfl
@[simp] theorem Ctx.flag_nextId (c : Ctx) (f : BitVec 9) : (c.flag f).nextId = c.nextId := rfl
@[simp] theorem Ctx.flag_joinp (c : Ctx) (f : BitVec 9) : (c.flag f).joinp = c.joinp := rfl
@[simp] theorem Ctx.flag_pasid (c : Ctx) (f : BitVec 9) : (c.flag f).pasid = c.pasid := rfl
@[simp] theorem Ctx.flag_savea (c : Ctx) (f : BitVec 9) : (c.flag f).savea = c.savea := rfl
@[simp] theorem Ctx.flag_ld (c : Ctx) (f : BitVec 9) : (c.flag f).ld = c.ld := rfl
@[simp] theorem Ctx.flag_stc (c : Ctx) (f : BitVec 9) : (c.flag f).stc = c.stc := rfl
@[simp] theorem Ctx.flag_cp (c : Ctx) (f : BitVec 9) : (c.flag f).cp = c.cp := rfl
@[simp] theorem Ctx.flag_tl (c : Ctx) (f : BitVec 9) : (c.flag f).tl = c.tl := rfl
@[simp] theorem Ctx.flag_pendS (c : Ctx) (f : BitVec 9) : (c.flag f).pendS = c.pendS := rfl
@[simp] theorem Ctx.flag_pendV (c : Ctx) (f : BitVec 9) : (c.flag f).pendV = c.pendV := rfl
@[simp] theorem Ctx.flag_pendC (c : Ctx) (f : BitVec 9) : (c.flag f).pendC = c.pendC := rfl
@[simp] theorem Ctx.flag_pend (c : Ctx) (f : BitVec 9) : (c.flag f).pend = c.pend := rfl
@[simp] theorem Ctx.flag_stores (c : Ctx) (f : BitVec 9) : (c.flag f).stores = c.stores := rfl
@[simp] theorem Ctx.flag_xfer (c : Ctx) (f : BitVec 9) : (c.flag f).xfer = c.xfer := rfl
@[simp] theorem Ctx.flag_loop (c : Ctx) (f : BitVec 9) : (c.flag f).loop = c.loop := rfl
@[simp] theorem Ctx.flag_applies (c : Ctx) (f : BitVec 9) : (c.flag f).applies = c.applies := rfl
@[simp] theorem Ctx.flag_sb (c : Ctx) (f : BitVec 9) : (c.flag f).sb = c.sb := rfl
@[simp] theorem Ctx.flag_post (c : Ctx) (f : BitVec 9) : (c.flag f).post = c.post := rfl
@[simp] theorem Ctx.flag_seq (c : Ctx) (f : BitVec 9) : (c.flag f).seq = c.seq := rfl
@[simp] theorem Ctx.flag_lastSeq (c : Ctx) (f : BitVec 9) : (c.flag f).lastSeq = c.lastSeq := rfl
@[simp] theorem Ctx.flag_recent (c : Ctx) (f : BitVec 9) : (c.flag f).recent = c.recent := rfl
@[simp] theorem Ctx.flag_waited (c : Ctx) (f : BitVec 9) : (c.flag f).waited = c.waited := rfl
@[simp] theorem Ctx.flag_issued (c : Ctx) (f : BitVec 9) : (c.flag f).issued = c.issued := rfl
@[simp] theorem Ctx.flag_landed (c : Ctx) (f : BitVec 9) : (c.flag f).landed = c.landed := rfl
@[simp] theorem Ctx.flag_bits (c : Ctx) (f : BitVec 9) : (c.flag f).bits = c.bits := rfl
@[simp] theorem Ctx.flag_gbar (c : Ctx) (f : BitVec 9) : (c.flag f).gbar = c.gbar := rfl
@[simp] theorem Ctx.flag_probe (c : Ctx) (f : BitVec 9) : (c.flag f).probe = c.probe := rfl
@[simp] theorem Ctx.flag_qpt (c : Ctx) (f : BitVec 9) : (c.flag f).qpt = c.qpt := rfl
@[simp] theorem Ctx.flag_tw (c : Ctx) (f : BitVec 9) : (c.flag f).tw = c.tw := rfl
@[simp] theorem Ctx.flag_ack (c : Ctx) (f : BitVec 9) : (c.flag f).ack = c.ack := rfl
@[simp] theorem Ctx.flag_due (c : Ctx) (f : BitVec 9) : (c.flag f).due = c.due := rfl
@[simp] theorem Ctx.flag_trap (c : Ctx) (f : BitVec 9) : (c.flag f).trap = c.trap := rfl
@[simp] theorem Ctx.flag_assist (c : Ctx) (f : BitVec 9) : (c.flag f).assist = c.assist := rfl
@[simp] theorem Ctx.flag_preempt (c : Ctx) (f : BitVec 9) : (c.flag f).preempt = c.preempt := rfl
@[simp] theorem Ctx.flag_heldKb (c : Ctx) (f : BitVec 9) : (c.flag f).heldKb = c.heldKb := rfl
@[simp] theorem Ctx.flag_heldMx (c : Ctx) (f : BitVec 9) : (c.flag f).heldMx = c.heldMx := rfl
@[simp] theorem Ctx.flag_dbgHold (c : Ctx) (f : BitVec 9) : (c.flag f).dbgHold = c.dbgHold := rfl
@[simp] theorem Ctx.flag_haltAt (c : Ctx) (f : BitVec 9) : (c.flag f).haltAt = c.haltAt := rfl
@[simp] theorem Ctx.flag_blocked (c : Ctx) (f : BitVec 9) : (c.flag f).blocked = c.blocked := rfl
@[simp] theorem Ctx.flag_quiet (c : Ctx) (f : BitVec 9) : (c.flag f).quiet = c.quiet := rfl

/-! ### A result recorded -/

@[simp] theorem Ctx.result_st (c : Ctx) (u : Fin 15) (n : Nat) (r : Option Val) (q : Option Val) (fl : BitVec 9) : (c.result u n r q fl).st = c.st := rfl
@[simp] theorem Ctx.result_pc (c : Ctx) (u : Fin 15) (n : Nat) (r : Option Val) (q : Option Val) (fl : BitVec 9) : (c.result u n r q fl).pc = c.pc := rfl
@[simp] theorem Ctx.result_s (c : Ctx) (u : Fin 15) (n : Nat) (r : Option Val) (q : Option Val) (fl : BitVec 9) : (c.result u n r q fl).s = c.s := rfl
@[simp] theorem Ctx.result_v (c : Ctx) (u : Fin 15) (n : Nat) (r : Option Val) (q : Option Val) (fl : BitVec 9) : (c.result u n r q fl).v = c.v := rfl
@[simp] theorem Ctx.result_m (c : Ctx) (u : Fin 15) (n : Nat) (r : Option Val) (q : Option Val) (fl : BitVec 9) : (c.result u n r q fl).m = c.m := rfl
@[simp] theorem Ctx.result_c (c : Ctx) (u : Fin 15) (n : Nat) (r : Option Val) (q : Option Val) (fl : BitVec 9) : (c.result u n r q fl).c = c.c := rfl
@[simp] theorem Ctx.result_psP (c : Ctx) (u : Fin 15) (n : Nat) (r : Option Val) (q : Option Val) (fl : BitVec 9) : (c.result u n r q fl).psP = c.psP := rfl
@[simp] theorem Ctx.result_psB (c : Ctx) (u : Fin 15) (n : Nat) (r : Option Val) (q : Option Val) (fl : BitVec 9) : (c.result u n r q fl).psB = c.psB := rfl
@[simp] theorem Ctx.result_k (c : Ctx) (u : Fin 15) (n : Nat) (r : Option Val) (q : Option Val) (fl : BitVec 9) : (c.result u n r q fl).k = c.k := rfl
@[simp] theorem Ctx.result_x (c : Ctx) (u : Fin 15) (n : Nat) (r : Option Val) (q : Option Val) (fl : BitVec 9) : (c.result u n r q fl).x = c.x := rfl
@[simp] theorem Ctx.result_kOld (c : Ctx) (u : Fin 15) (n : Nat) (r : Option Val) (q : Option Val) (fl : BitVec 9) : (c.result u n r q fl).kOld = c.kOld := rfl
@[simp] theorem Ctx.result_w (c : Ctx) (u : Fin 15) (n : Nat) (r : Option Val) (q : Option Val) (fl : BitVec 9) : (c.result u n r q fl).w = c.w := rfl
@[simp] theorem Ctx.result_lat (c : Ctx) (u : Fin 15) (n : Nat) (r : Option Val) (q : Option Val) (fl : BitVec 9) : (c.result u n r q fl).lat = c.lat := rfl
@[simp] theorem Ctx.result_bsWin (c : Ctx) (u : Fin 15) (n : Nat) (r : Option Val) (q : Option Val) (fl : BitVec 9) : (c.result u n r q fl).bsWin = c.bsWin := rfl
@[simp] theorem Ctx.result_bsCnt (c : Ctx) (u : Fin 15) (n : Nat) (r : Option Val) (q : Option Val) (fl : BitVec 9) : (c.result u n r q fl).bsCnt = c.bsCnt := rfl
@[simp] theorem Ctx.result_fpc (c : Ctx) (u : Fin 15) (n : Nat) (r : Option Val) (q : Option Val) (fl : BitVec 9) : (c.result u n r q fl).fpc = c.fpc := rfl
@[simp] theorem Ctx.result_stat (c : Ctx) (u : Fin 15) (n : Nat) (r : Option Val) (q : Option Val) (fl : BitVec 9) : (c.result u n r q fl).stat = c.stat := rfl
@[simp] theorem Ctx.result_kpol (c : Ctx) (u : Fin 15) (n : Nat) (r : Option Val) (q : Option Val) (fl : BitVec 9) : (c.result u n r q fl).kpol = c.kpol := rfl
@[simp] theorem Ctx.result_ixpol (c : Ctx) (u : Fin 15) (n : Nat) (r : Option Val) (q : Option Val) (fl : BitVec 9) : (c.result u n r q fl).ixpol = c.ixpol := rfl
@[simp] theorem Ctx.result_lc (c : Ctx) (u : Fin 15) (n : Nat) (r : Option Val) (q : Option Val) (fl : BitVec 9) : (c.result u n r q fl).lc = c.lc := rfl
@[simp] theorem Ctx.result_ecCnt (c : Ctx) (u : Fin 15) (n : Nat) (r : Option Val) (q : Option Val) (fl : BitVec 9) : (c.result u n r q fl).ecCnt = c.ecCnt := rfl
@[simp] theorem Ctx.result_gmem (c : Ctx) (u : Fin 15) (n : Nat) (r : Option Val) (q : Option Val) (fl : BitVec 9) : (c.result u n r q fl).gmem = c.gmem := rfl
@[simp] theorem Ctx.result_dbg (c : Ctx) (u : Fin 15) (n : Nat) (r : Option Val) (q : Option Val) (fl : BitVec 9) : (c.result u n r q fl).dbg = c.dbg := rfl
@[simp] theorem Ctx.result_rbseed (c : Ctx) (u : Fin 15) (n : Nat) (r : Option Val) (q : Option Val) (fl : BitVec 9) : (c.result u n r q fl).rbseed = c.rbseed := rfl
@[simp] theorem Ctx.result_rbn (c : Ctx) (u : Fin 15) (n : Nat) (r : Option Val) (q : Option Val) (fl : BitVec 9) : (c.result u n r q fl).rbn = c.rbn := rfl
@[simp] theorem Ctx.result_rbq (c : Ctx) (u : Fin 15) (n : Nat) (r : Option Val) (q : Option Val) (fl : BitVec 9) : (c.result u n r q fl).rbq = c.rbq := rfl
@[simp] theorem Ctx.result_cwm (c : Ctx) (u : Fin 15) (n : Nat) (r : Option Val) (q : Option Val) (fl : BitVec 9) : (c.result u n r q fl).cwm = c.cwm := rfl
@[simp] theorem Ctx.result_nextId (c : Ctx) (u : Fin 15) (n : Nat) (r : Option Val) (q : Option Val) (fl : BitVec 9) : (c.result u n r q fl).nextId = c.nextId := rfl
@[simp] theorem Ctx.result_joinp (c : Ctx) (u : Fin 15) (n : Nat) (r : Option Val) (q : Option Val) (fl : BitVec 9) : (c.result u n r q fl).joinp = c.joinp := rfl
@[simp] theorem Ctx.result_pasid (c : Ctx) (u : Fin 15) (n : Nat) (r : Option Val) (q : Option Val) (fl : BitVec 9) : (c.result u n r q fl).pasid = c.pasid := rfl
@[simp] theorem Ctx.result_savea (c : Ctx) (u : Fin 15) (n : Nat) (r : Option Val) (q : Option Val) (fl : BitVec 9) : (c.result u n r q fl).savea = c.savea := rfl
@[simp] theorem Ctx.result_ld (c : Ctx) (u : Fin 15) (n : Nat) (r : Option Val) (q : Option Val) (fl : BitVec 9) : (c.result u n r q fl).ld = c.ld := rfl
@[simp] theorem Ctx.result_stc (c : Ctx) (u : Fin 15) (n : Nat) (r : Option Val) (q : Option Val) (fl : BitVec 9) : (c.result u n r q fl).stc = c.stc := rfl
@[simp] theorem Ctx.result_cp (c : Ctx) (u : Fin 15) (n : Nat) (r : Option Val) (q : Option Val) (fl : BitVec 9) : (c.result u n r q fl).cp = c.cp := rfl
@[simp] theorem Ctx.result_tl (c : Ctx) (u : Fin 15) (n : Nat) (r : Option Val) (q : Option Val) (fl : BitVec 9) : (c.result u n r q fl).tl = c.tl := rfl
@[simp] theorem Ctx.result_pendS (c : Ctx) (u : Fin 15) (n : Nat) (r : Option Val) (q : Option Val) (fl : BitVec 9) : (c.result u n r q fl).pendS = c.pendS := rfl
@[simp] theorem Ctx.result_pendV (c : Ctx) (u : Fin 15) (n : Nat) (r : Option Val) (q : Option Val) (fl : BitVec 9) : (c.result u n r q fl).pendV = c.pendV := rfl
@[simp] theorem Ctx.result_pendC (c : Ctx) (u : Fin 15) (n : Nat) (r : Option Val) (q : Option Val) (fl : BitVec 9) : (c.result u n r q fl).pendC = c.pendC := rfl
@[simp] theorem Ctx.result_stores (c : Ctx) (u : Fin 15) (n : Nat) (r : Option Val) (q : Option Val) (fl : BitVec 9) : (c.result u n r q fl).stores = c.stores := rfl
@[simp] theorem Ctx.result_xfer (c : Ctx) (u : Fin 15) (n : Nat) (r : Option Val) (q : Option Val) (fl : BitVec 9) : (c.result u n r q fl).xfer = c.xfer := rfl
@[simp] theorem Ctx.result_loop (c : Ctx) (u : Fin 15) (n : Nat) (r : Option Val) (q : Option Val) (fl : BitVec 9) : (c.result u n r q fl).loop = c.loop := rfl
@[simp] theorem Ctx.result_applies (c : Ctx) (u : Fin 15) (n : Nat) (r : Option Val) (q : Option Val) (fl : BitVec 9) : (c.result u n r q fl).applies = c.applies := rfl
@[simp] theorem Ctx.result_sb (c : Ctx) (u : Fin 15) (n : Nat) (r : Option Val) (q : Option Val) (fl : BitVec 9) : (c.result u n r q fl).sb = c.sb := rfl
@[simp] theorem Ctx.result_post (c : Ctx) (u : Fin 15) (n : Nat) (r : Option Val) (q : Option Val) (fl : BitVec 9) : (c.result u n r q fl).post = c.post := rfl
@[simp] theorem Ctx.result_seq (c : Ctx) (u : Fin 15) (n : Nat) (r : Option Val) (q : Option Val) (fl : BitVec 9) : (c.result u n r q fl).seq = c.seq := rfl
@[simp] theorem Ctx.result_lastSeq (c : Ctx) (u : Fin 15) (n : Nat) (r : Option Val) (q : Option Val) (fl : BitVec 9) : (c.result u n r q fl).lastSeq = c.lastSeq := rfl
@[simp] theorem Ctx.result_recent (c : Ctx) (u : Fin 15) (n : Nat) (r : Option Val) (q : Option Val) (fl : BitVec 9) : (c.result u n r q fl).recent = c.recent := rfl
@[simp] theorem Ctx.result_waited (c : Ctx) (u : Fin 15) (n : Nat) (r : Option Val) (q : Option Val) (fl : BitVec 9) : (c.result u n r q fl).waited = c.waited := rfl
@[simp] theorem Ctx.result_issued (c : Ctx) (u : Fin 15) (n : Nat) (r : Option Val) (q : Option Val) (fl : BitVec 9) : (c.result u n r q fl).issued = c.issued := rfl
@[simp] theorem Ctx.result_landed (c : Ctx) (u : Fin 15) (n : Nat) (r : Option Val) (q : Option Val) (fl : BitVec 9) : (c.result u n r q fl).landed = c.landed := rfl
@[simp] theorem Ctx.result_bits (c : Ctx) (u : Fin 15) (n : Nat) (r : Option Val) (q : Option Val) (fl : BitVec 9) : (c.result u n r q fl).bits = c.bits := rfl
@[simp] theorem Ctx.result_gbar (c : Ctx) (u : Fin 15) (n : Nat) (r : Option Val) (q : Option Val) (fl : BitVec 9) : (c.result u n r q fl).gbar = c.gbar := rfl
@[simp] theorem Ctx.result_probe (c : Ctx) (u : Fin 15) (n : Nat) (r : Option Val) (q : Option Val) (fl : BitVec 9) : (c.result u n r q fl).probe = c.probe := rfl
@[simp] theorem Ctx.result_qpt (c : Ctx) (u : Fin 15) (n : Nat) (r : Option Val) (q : Option Val) (fl : BitVec 9) : (c.result u n r q fl).qpt = c.qpt := rfl
@[simp] theorem Ctx.result_tw (c : Ctx) (u : Fin 15) (n : Nat) (r : Option Val) (q : Option Val) (fl : BitVec 9) : (c.result u n r q fl).tw = c.tw := rfl
@[simp] theorem Ctx.result_ack (c : Ctx) (u : Fin 15) (n : Nat) (r : Option Val) (q : Option Val) (fl : BitVec 9) : (c.result u n r q fl).ack = c.ack := rfl
@[simp] theorem Ctx.result_due (c : Ctx) (u : Fin 15) (n : Nat) (r : Option Val) (q : Option Val) (fl : BitVec 9) : (c.result u n r q fl).due = c.due := rfl
@[simp] theorem Ctx.result_trap (c : Ctx) (u : Fin 15) (n : Nat) (r : Option Val) (q : Option Val) (fl : BitVec 9) : (c.result u n r q fl).trap = c.trap := rfl
@[simp] theorem Ctx.result_assist (c : Ctx) (u : Fin 15) (n : Nat) (r : Option Val) (q : Option Val) (fl : BitVec 9) : (c.result u n r q fl).assist = c.assist := rfl
@[simp] theorem Ctx.result_preempt (c : Ctx) (u : Fin 15) (n : Nat) (r : Option Val) (q : Option Val) (fl : BitVec 9) : (c.result u n r q fl).preempt = c.preempt := rfl
@[simp] theorem Ctx.result_heldKb (c : Ctx) (u : Fin 15) (n : Nat) (r : Option Val) (q : Option Val) (fl : BitVec 9) : (c.result u n r q fl).heldKb = c.heldKb := rfl
@[simp] theorem Ctx.result_heldMx (c : Ctx) (u : Fin 15) (n : Nat) (r : Option Val) (q : Option Val) (fl : BitVec 9) : (c.result u n r q fl).heldMx = c.heldMx := rfl
@[simp] theorem Ctx.result_dbgHold (c : Ctx) (u : Fin 15) (n : Nat) (r : Option Val) (q : Option Val) (fl : BitVec 9) : (c.result u n r q fl).dbgHold = c.dbgHold := rfl
@[simp] theorem Ctx.result_haltAt (c : Ctx) (u : Fin 15) (n : Nat) (r : Option Val) (q : Option Val) (fl : BitVec 9) : (c.result u n r q fl).haltAt = c.haltAt := rfl
@[simp] theorem Ctx.result_blocked (c : Ctx) (u : Fin 15) (n : Nat) (r : Option Val) (q : Option Val) (fl : BitVec 9) : (c.result u n r q fl).blocked = c.blocked := rfl
@[simp] theorem Ctx.result_quiet (c : Ctx) (u : Fin 15) (n : Nat) (r : Option Val) (q : Option Val) (fl : BitVec 9) : (c.result u n r q fl).quiet = c.quiet := rfl

/-! ### A store recorded -/

@[simp] theorem Ctx.store_st (c : Ctx) (n : Nat) (a : Fin 4) (wr : List (Nat × Byte)) : (c.store n a wr).st = c.st := rfl
@[simp] theorem Ctx.store_pc (c : Ctx) (n : Nat) (a : Fin 4) (wr : List (Nat × Byte)) : (c.store n a wr).pc = c.pc := rfl
@[simp] theorem Ctx.store_s (c : Ctx) (n : Nat) (a : Fin 4) (wr : List (Nat × Byte)) : (c.store n a wr).s = c.s := rfl
@[simp] theorem Ctx.store_v (c : Ctx) (n : Nat) (a : Fin 4) (wr : List (Nat × Byte)) : (c.store n a wr).v = c.v := rfl
@[simp] theorem Ctx.store_m (c : Ctx) (n : Nat) (a : Fin 4) (wr : List (Nat × Byte)) : (c.store n a wr).m = c.m := rfl
@[simp] theorem Ctx.store_c (c : Ctx) (n : Nat) (a : Fin 4) (wr : List (Nat × Byte)) : (c.store n a wr).c = c.c := rfl
@[simp] theorem Ctx.store_psP (c : Ctx) (n : Nat) (a : Fin 4) (wr : List (Nat × Byte)) : (c.store n a wr).psP = c.psP := rfl
@[simp] theorem Ctx.store_psB (c : Ctx) (n : Nat) (a : Fin 4) (wr : List (Nat × Byte)) : (c.store n a wr).psB = c.psB := rfl
@[simp] theorem Ctx.store_k (c : Ctx) (n : Nat) (a : Fin 4) (wr : List (Nat × Byte)) : (c.store n a wr).k = c.k := rfl
@[simp] theorem Ctx.store_x (c : Ctx) (n : Nat) (a : Fin 4) (wr : List (Nat × Byte)) : (c.store n a wr).x = c.x := rfl
@[simp] theorem Ctx.store_kOld (c : Ctx) (n : Nat) (a : Fin 4) (wr : List (Nat × Byte)) : (c.store n a wr).kOld = c.kOld := rfl
@[simp] theorem Ctx.store_w (c : Ctx) (n : Nat) (a : Fin 4) (wr : List (Nat × Byte)) : (c.store n a wr).w = c.w := rfl
@[simp] theorem Ctx.store_lat (c : Ctx) (n : Nat) (a : Fin 4) (wr : List (Nat × Byte)) : (c.store n a wr).lat = c.lat := rfl
@[simp] theorem Ctx.store_bsWin (c : Ctx) (n : Nat) (a : Fin 4) (wr : List (Nat × Byte)) : (c.store n a wr).bsWin = c.bsWin := rfl
@[simp] theorem Ctx.store_bsCnt (c : Ctx) (n : Nat) (a : Fin 4) (wr : List (Nat × Byte)) : (c.store n a wr).bsCnt = c.bsCnt := rfl
@[simp] theorem Ctx.store_fpc (c : Ctx) (n : Nat) (a : Fin 4) (wr : List (Nat × Byte)) : (c.store n a wr).fpc = c.fpc := rfl
@[simp] theorem Ctx.store_stat (c : Ctx) (n : Nat) (a : Fin 4) (wr : List (Nat × Byte)) : (c.store n a wr).stat = c.stat := rfl
@[simp] theorem Ctx.store_kpol (c : Ctx) (n : Nat) (a : Fin 4) (wr : List (Nat × Byte)) : (c.store n a wr).kpol = c.kpol := rfl
@[simp] theorem Ctx.store_ixpol (c : Ctx) (n : Nat) (a : Fin 4) (wr : List (Nat × Byte)) : (c.store n a wr).ixpol = c.ixpol := rfl
@[simp] theorem Ctx.store_lc (c : Ctx) (n : Nat) (a : Fin 4) (wr : List (Nat × Byte)) : (c.store n a wr).lc = c.lc := rfl
@[simp] theorem Ctx.store_ecCnt (c : Ctx) (n : Nat) (a : Fin 4) (wr : List (Nat × Byte)) : (c.store n a wr).ecCnt = c.ecCnt := rfl
@[simp] theorem Ctx.store_gmem (c : Ctx) (n : Nat) (a : Fin 4) (wr : List (Nat × Byte)) : (c.store n a wr).gmem = c.gmem := rfl
@[simp] theorem Ctx.store_dbg (c : Ctx) (n : Nat) (a : Fin 4) (wr : List (Nat × Byte)) : (c.store n a wr).dbg = c.dbg := rfl
@[simp] theorem Ctx.store_rbseed (c : Ctx) (n : Nat) (a : Fin 4) (wr : List (Nat × Byte)) : (c.store n a wr).rbseed = c.rbseed := rfl
@[simp] theorem Ctx.store_rbn (c : Ctx) (n : Nat) (a : Fin 4) (wr : List (Nat × Byte)) : (c.store n a wr).rbn = c.rbn := rfl
@[simp] theorem Ctx.store_rbq (c : Ctx) (n : Nat) (a : Fin 4) (wr : List (Nat × Byte)) : (c.store n a wr).rbq = c.rbq := rfl
@[simp] theorem Ctx.store_cwm (c : Ctx) (n : Nat) (a : Fin 4) (wr : List (Nat × Byte)) : (c.store n a wr).cwm = c.cwm := rfl
@[simp] theorem Ctx.store_nextId (c : Ctx) (n : Nat) (a : Fin 4) (wr : List (Nat × Byte)) : (c.store n a wr).nextId = c.nextId := rfl
@[simp] theorem Ctx.store_joinp (c : Ctx) (n : Nat) (a : Fin 4) (wr : List (Nat × Byte)) : (c.store n a wr).joinp = c.joinp := rfl
@[simp] theorem Ctx.store_pasid (c : Ctx) (n : Nat) (a : Fin 4) (wr : List (Nat × Byte)) : (c.store n a wr).pasid = c.pasid := rfl
@[simp] theorem Ctx.store_savea (c : Ctx) (n : Nat) (a : Fin 4) (wr : List (Nat × Byte)) : (c.store n a wr).savea = c.savea := rfl
@[simp] theorem Ctx.store_ld (c : Ctx) (n : Nat) (a : Fin 4) (wr : List (Nat × Byte)) : (c.store n a wr).ld = c.ld := rfl
@[simp] theorem Ctx.store_stc (c : Ctx) (n : Nat) (a : Fin 4) (wr : List (Nat × Byte)) : (c.store n a wr).stc = c.stc := rfl
@[simp] theorem Ctx.store_cp (c : Ctx) (n : Nat) (a : Fin 4) (wr : List (Nat × Byte)) : (c.store n a wr).cp = c.cp := rfl
@[simp] theorem Ctx.store_tl (c : Ctx) (n : Nat) (a : Fin 4) (wr : List (Nat × Byte)) : (c.store n a wr).tl = c.tl := rfl
@[simp] theorem Ctx.store_pendS (c : Ctx) (n : Nat) (a : Fin 4) (wr : List (Nat × Byte)) : (c.store n a wr).pendS = c.pendS := rfl
@[simp] theorem Ctx.store_pendV (c : Ctx) (n : Nat) (a : Fin 4) (wr : List (Nat × Byte)) : (c.store n a wr).pendV = c.pendV := rfl
@[simp] theorem Ctx.store_pendC (c : Ctx) (n : Nat) (a : Fin 4) (wr : List (Nat × Byte)) : (c.store n a wr).pendC = c.pendC := rfl
@[simp] theorem Ctx.store_pend (c : Ctx) (n : Nat) (a : Fin 4) (wr : List (Nat × Byte)) : (c.store n a wr).pend = c.pend := rfl
@[simp] theorem Ctx.store_xfer (c : Ctx) (n : Nat) (a : Fin 4) (wr : List (Nat × Byte)) : (c.store n a wr).xfer = c.xfer := rfl
@[simp] theorem Ctx.store_loop (c : Ctx) (n : Nat) (a : Fin 4) (wr : List (Nat × Byte)) : (c.store n a wr).loop = c.loop := rfl
@[simp] theorem Ctx.store_applies (c : Ctx) (n : Nat) (a : Fin 4) (wr : List (Nat × Byte)) : (c.store n a wr).applies = c.applies := rfl
@[simp] theorem Ctx.store_sb (c : Ctx) (n : Nat) (a : Fin 4) (wr : List (Nat × Byte)) : (c.store n a wr).sb = c.sb := rfl
@[simp] theorem Ctx.store_post (c : Ctx) (n : Nat) (a : Fin 4) (wr : List (Nat × Byte)) : (c.store n a wr).post = c.post := rfl
@[simp] theorem Ctx.store_lastSeq (c : Ctx) (n : Nat) (a : Fin 4) (wr : List (Nat × Byte)) : (c.store n a wr).lastSeq = c.lastSeq := rfl
@[simp] theorem Ctx.store_recent (c : Ctx) (n : Nat) (a : Fin 4) (wr : List (Nat × Byte)) : (c.store n a wr).recent = c.recent := rfl
@[simp] theorem Ctx.store_waited (c : Ctx) (n : Nat) (a : Fin 4) (wr : List (Nat × Byte)) : (c.store n a wr).waited = c.waited := rfl
@[simp] theorem Ctx.store_issued (c : Ctx) (n : Nat) (a : Fin 4) (wr : List (Nat × Byte)) : (c.store n a wr).issued = c.issued := rfl
@[simp] theorem Ctx.store_landed (c : Ctx) (n : Nat) (a : Fin 4) (wr : List (Nat × Byte)) : (c.store n a wr).landed = c.landed := rfl
@[simp] theorem Ctx.store_bits (c : Ctx) (n : Nat) (a : Fin 4) (wr : List (Nat × Byte)) : (c.store n a wr).bits = c.bits := rfl
@[simp] theorem Ctx.store_gbar (c : Ctx) (n : Nat) (a : Fin 4) (wr : List (Nat × Byte)) : (c.store n a wr).gbar = c.gbar := rfl
@[simp] theorem Ctx.store_probe (c : Ctx) (n : Nat) (a : Fin 4) (wr : List (Nat × Byte)) : (c.store n a wr).probe = c.probe := rfl
@[simp] theorem Ctx.store_qpt (c : Ctx) (n : Nat) (a : Fin 4) (wr : List (Nat × Byte)) : (c.store n a wr).qpt = c.qpt := rfl
@[simp] theorem Ctx.store_tw (c : Ctx) (n : Nat) (a : Fin 4) (wr : List (Nat × Byte)) : (c.store n a wr).tw = c.tw := rfl
@[simp] theorem Ctx.store_ack (c : Ctx) (n : Nat) (a : Fin 4) (wr : List (Nat × Byte)) : (c.store n a wr).ack = c.ack := rfl
@[simp] theorem Ctx.store_due (c : Ctx) (n : Nat) (a : Fin 4) (wr : List (Nat × Byte)) : (c.store n a wr).due = c.due := rfl
@[simp] theorem Ctx.store_trap (c : Ctx) (n : Nat) (a : Fin 4) (wr : List (Nat × Byte)) : (c.store n a wr).trap = c.trap := rfl
@[simp] theorem Ctx.store_assist (c : Ctx) (n : Nat) (a : Fin 4) (wr : List (Nat × Byte)) : (c.store n a wr).assist = c.assist := rfl
@[simp] theorem Ctx.store_preempt (c : Ctx) (n : Nat) (a : Fin 4) (wr : List (Nat × Byte)) : (c.store n a wr).preempt = c.preempt := rfl
@[simp] theorem Ctx.store_heldKb (c : Ctx) (n : Nat) (a : Fin 4) (wr : List (Nat × Byte)) : (c.store n a wr).heldKb = c.heldKb := rfl
@[simp] theorem Ctx.store_heldMx (c : Ctx) (n : Nat) (a : Fin 4) (wr : List (Nat × Byte)) : (c.store n a wr).heldMx = c.heldMx := rfl
@[simp] theorem Ctx.store_dbgHold (c : Ctx) (n : Nat) (a : Fin 4) (wr : List (Nat × Byte)) : (c.store n a wr).dbgHold = c.dbgHold := rfl
@[simp] theorem Ctx.store_haltAt (c : Ctx) (n : Nat) (a : Fin 4) (wr : List (Nat × Byte)) : (c.store n a wr).haltAt = c.haltAt := rfl
@[simp] theorem Ctx.store_blocked (c : Ctx) (n : Nat) (a : Fin 4) (wr : List (Nat × Byte)) : (c.store n a wr).blocked = c.blocked := rfl
@[simp] theorem Ctx.store_quiet (c : Ctx) (n : Nat) (a : Fin 4) (wr : List (Nat × Byte)) : (c.store n a wr).quiet = c.quiet := rfl

/-! ### A boundary trap becomes due -/

@[simp] theorem Ctx.addDue_st (c : Ctx) (n : Nat) (a : Word) : (c.addDue n a).st = c.st := rfl
@[simp] theorem Ctx.addDue_pc (c : Ctx) (n : Nat) (a : Word) : (c.addDue n a).pc = c.pc := rfl
@[simp] theorem Ctx.addDue_s (c : Ctx) (n : Nat) (a : Word) : (c.addDue n a).s = c.s := rfl
@[simp] theorem Ctx.addDue_v (c : Ctx) (n : Nat) (a : Word) : (c.addDue n a).v = c.v := rfl
@[simp] theorem Ctx.addDue_m (c : Ctx) (n : Nat) (a : Word) : (c.addDue n a).m = c.m := rfl
@[simp] theorem Ctx.addDue_c (c : Ctx) (n : Nat) (a : Word) : (c.addDue n a).c = c.c := rfl
@[simp] theorem Ctx.addDue_psP (c : Ctx) (n : Nat) (a : Word) : (c.addDue n a).psP = c.psP := rfl
@[simp] theorem Ctx.addDue_psB (c : Ctx) (n : Nat) (a : Word) : (c.addDue n a).psB = c.psB := rfl
@[simp] theorem Ctx.addDue_k (c : Ctx) (n : Nat) (a : Word) : (c.addDue n a).k = c.k := rfl
@[simp] theorem Ctx.addDue_x (c : Ctx) (n : Nat) (a : Word) : (c.addDue n a).x = c.x := rfl
@[simp] theorem Ctx.addDue_kOld (c : Ctx) (n : Nat) (a : Word) : (c.addDue n a).kOld = c.kOld := rfl
@[simp] theorem Ctx.addDue_w (c : Ctx) (n : Nat) (a : Word) : (c.addDue n a).w = c.w := rfl
@[simp] theorem Ctx.addDue_lat (c : Ctx) (n : Nat) (a : Word) : (c.addDue n a).lat = c.lat := rfl
@[simp] theorem Ctx.addDue_bsWin (c : Ctx) (n : Nat) (a : Word) : (c.addDue n a).bsWin = c.bsWin := rfl
@[simp] theorem Ctx.addDue_bsCnt (c : Ctx) (n : Nat) (a : Word) : (c.addDue n a).bsCnt = c.bsCnt := rfl
@[simp] theorem Ctx.addDue_fpc (c : Ctx) (n : Nat) (a : Word) : (c.addDue n a).fpc = c.fpc := rfl
@[simp] theorem Ctx.addDue_stat (c : Ctx) (n : Nat) (a : Word) : (c.addDue n a).stat = c.stat := rfl
@[simp] theorem Ctx.addDue_kpol (c : Ctx) (n : Nat) (a : Word) : (c.addDue n a).kpol = c.kpol := rfl
@[simp] theorem Ctx.addDue_ixpol (c : Ctx) (n : Nat) (a : Word) : (c.addDue n a).ixpol = c.ixpol := rfl
@[simp] theorem Ctx.addDue_lc (c : Ctx) (n : Nat) (a : Word) : (c.addDue n a).lc = c.lc := rfl
@[simp] theorem Ctx.addDue_ecCnt (c : Ctx) (n : Nat) (a : Word) : (c.addDue n a).ecCnt = c.ecCnt := rfl
@[simp] theorem Ctx.addDue_gmem (c : Ctx) (n : Nat) (a : Word) : (c.addDue n a).gmem = c.gmem := rfl
@[simp] theorem Ctx.addDue_dbg (c : Ctx) (n : Nat) (a : Word) : (c.addDue n a).dbg = c.dbg := rfl
@[simp] theorem Ctx.addDue_rbseed (c : Ctx) (n : Nat) (a : Word) : (c.addDue n a).rbseed = c.rbseed := rfl
@[simp] theorem Ctx.addDue_rbn (c : Ctx) (n : Nat) (a : Word) : (c.addDue n a).rbn = c.rbn := rfl
@[simp] theorem Ctx.addDue_rbq (c : Ctx) (n : Nat) (a : Word) : (c.addDue n a).rbq = c.rbq := rfl
@[simp] theorem Ctx.addDue_cwm (c : Ctx) (n : Nat) (a : Word) : (c.addDue n a).cwm = c.cwm := rfl
@[simp] theorem Ctx.addDue_nextId (c : Ctx) (n : Nat) (a : Word) : (c.addDue n a).nextId = c.nextId := rfl
@[simp] theorem Ctx.addDue_joinp (c : Ctx) (n : Nat) (a : Word) : (c.addDue n a).joinp = c.joinp := rfl
@[simp] theorem Ctx.addDue_pasid (c : Ctx) (n : Nat) (a : Word) : (c.addDue n a).pasid = c.pasid := rfl
@[simp] theorem Ctx.addDue_savea (c : Ctx) (n : Nat) (a : Word) : (c.addDue n a).savea = c.savea := rfl
@[simp] theorem Ctx.addDue_ld (c : Ctx) (n : Nat) (a : Word) : (c.addDue n a).ld = c.ld := rfl
@[simp] theorem Ctx.addDue_stc (c : Ctx) (n : Nat) (a : Word) : (c.addDue n a).stc = c.stc := rfl
@[simp] theorem Ctx.addDue_cp (c : Ctx) (n : Nat) (a : Word) : (c.addDue n a).cp = c.cp := rfl
@[simp] theorem Ctx.addDue_tl (c : Ctx) (n : Nat) (a : Word) : (c.addDue n a).tl = c.tl := rfl
@[simp] theorem Ctx.addDue_pendS (c : Ctx) (n : Nat) (a : Word) : (c.addDue n a).pendS = c.pendS := rfl
@[simp] theorem Ctx.addDue_pendV (c : Ctx) (n : Nat) (a : Word) : (c.addDue n a).pendV = c.pendV := rfl
@[simp] theorem Ctx.addDue_pendC (c : Ctx) (n : Nat) (a : Word) : (c.addDue n a).pendC = c.pendC := rfl
@[simp] theorem Ctx.addDue_pend (c : Ctx) (n : Nat) (a : Word) : (c.addDue n a).pend = c.pend := rfl
@[simp] theorem Ctx.addDue_stores (c : Ctx) (n : Nat) (a : Word) : (c.addDue n a).stores = c.stores := rfl
@[simp] theorem Ctx.addDue_xfer (c : Ctx) (n : Nat) (a : Word) : (c.addDue n a).xfer = c.xfer := rfl
@[simp] theorem Ctx.addDue_loop (c : Ctx) (n : Nat) (a : Word) : (c.addDue n a).loop = c.loop := rfl
@[simp] theorem Ctx.addDue_applies (c : Ctx) (n : Nat) (a : Word) : (c.addDue n a).applies = c.applies := rfl
@[simp] theorem Ctx.addDue_sb (c : Ctx) (n : Nat) (a : Word) : (c.addDue n a).sb = c.sb := rfl
@[simp] theorem Ctx.addDue_post (c : Ctx) (n : Nat) (a : Word) : (c.addDue n a).post = c.post := rfl
@[simp] theorem Ctx.addDue_seq (c : Ctx) (n : Nat) (a : Word) : (c.addDue n a).seq = c.seq := rfl
@[simp] theorem Ctx.addDue_lastSeq (c : Ctx) (n : Nat) (a : Word) : (c.addDue n a).lastSeq = c.lastSeq := rfl
@[simp] theorem Ctx.addDue_recent (c : Ctx) (n : Nat) (a : Word) : (c.addDue n a).recent = c.recent := rfl
@[simp] theorem Ctx.addDue_waited (c : Ctx) (n : Nat) (a : Word) : (c.addDue n a).waited = c.waited := rfl
@[simp] theorem Ctx.addDue_issued (c : Ctx) (n : Nat) (a : Word) : (c.addDue n a).issued = c.issued := rfl
@[simp] theorem Ctx.addDue_landed (c : Ctx) (n : Nat) (a : Word) : (c.addDue n a).landed = c.landed := rfl
@[simp] theorem Ctx.addDue_bits (c : Ctx) (n : Nat) (a : Word) : (c.addDue n a).bits = c.bits := rfl
@[simp] theorem Ctx.addDue_gbar (c : Ctx) (n : Nat) (a : Word) : (c.addDue n a).gbar = c.gbar := rfl
@[simp] theorem Ctx.addDue_probe (c : Ctx) (n : Nat) (a : Word) : (c.addDue n a).probe = c.probe := rfl
@[simp] theorem Ctx.addDue_qpt (c : Ctx) (n : Nat) (a : Word) : (c.addDue n a).qpt = c.qpt := rfl
@[simp] theorem Ctx.addDue_tw (c : Ctx) (n : Nat) (a : Word) : (c.addDue n a).tw = c.tw := rfl
@[simp] theorem Ctx.addDue_ack (c : Ctx) (n : Nat) (a : Word) : (c.addDue n a).ack = c.ack := rfl
@[simp] theorem Ctx.addDue_trap (c : Ctx) (n : Nat) (a : Word) : (c.addDue n a).trap = c.trap := rfl
@[simp] theorem Ctx.addDue_assist (c : Ctx) (n : Nat) (a : Word) : (c.addDue n a).assist = c.assist := rfl
@[simp] theorem Ctx.addDue_preempt (c : Ctx) (n : Nat) (a : Word) : (c.addDue n a).preempt = c.preempt := rfl
@[simp] theorem Ctx.addDue_heldKb (c : Ctx) (n : Nat) (a : Word) : (c.addDue n a).heldKb = c.heldKb := rfl
@[simp] theorem Ctx.addDue_heldMx (c : Ctx) (n : Nat) (a : Word) : (c.addDue n a).heldMx = c.heldMx := rfl
@[simp] theorem Ctx.addDue_dbgHold (c : Ctx) (n : Nat) (a : Word) : (c.addDue n a).dbgHold = c.dbgHold := rfl
@[simp] theorem Ctx.addDue_haltAt (c : Ctx) (n : Nat) (a : Word) : (c.addDue n a).haltAt = c.haltAt := rfl
@[simp] theorem Ctx.addDue_blocked (c : Ctx) (n : Nat) (a : Word) : (c.addDue n a).blocked = c.blocked := rfl
@[simp] theorem Ctx.addDue_quiet (c : Ctx) (n : Nat) (a : Word) : (c.addDue n a).quiet = c.quiet := rfl

/-! ### An operation counted -/

@[simp] theorem Ctx.note_st (c : Ctx) (k : Fin 4) : (c.note k).st = c.st := rfl
@[simp] theorem Ctx.note_pc (c : Ctx) (k : Fin 4) : (c.note k).pc = c.pc := rfl
@[simp] theorem Ctx.note_s (c : Ctx) (k : Fin 4) : (c.note k).s = c.s := rfl
@[simp] theorem Ctx.note_v (c : Ctx) (k : Fin 4) : (c.note k).v = c.v := rfl
@[simp] theorem Ctx.note_m (c : Ctx) (k : Fin 4) : (c.note k).m = c.m := rfl
@[simp] theorem Ctx.note_c (c : Ctx) (k : Fin 4) : (c.note k).c = c.c := rfl
@[simp] theorem Ctx.note_psP (c : Ctx) (k : Fin 4) : (c.note k).psP = c.psP := rfl
@[simp] theorem Ctx.note_psB (c : Ctx) (k : Fin 4) : (c.note k).psB = c.psB := rfl
@[simp] theorem Ctx.note_k (c : Ctx) (k : Fin 4) : (c.note k).k = c.k := rfl
@[simp] theorem Ctx.note_x (c : Ctx) (k : Fin 4) : (c.note k).x = c.x := rfl
@[simp] theorem Ctx.note_kOld (c : Ctx) (k : Fin 4) : (c.note k).kOld = c.kOld := rfl
@[simp] theorem Ctx.note_w (c : Ctx) (k : Fin 4) : (c.note k).w = c.w := rfl
@[simp] theorem Ctx.note_lat (c : Ctx) (k : Fin 4) : (c.note k).lat = c.lat := rfl
@[simp] theorem Ctx.note_bsWin (c : Ctx) (k : Fin 4) : (c.note k).bsWin = c.bsWin := rfl
@[simp] theorem Ctx.note_bsCnt (c : Ctx) (k : Fin 4) : (c.note k).bsCnt = c.bsCnt := rfl
@[simp] theorem Ctx.note_fpc (c : Ctx) (k : Fin 4) : (c.note k).fpc = c.fpc := rfl
@[simp] theorem Ctx.note_stat (c : Ctx) (k : Fin 4) : (c.note k).stat = c.stat := rfl
@[simp] theorem Ctx.note_kpol (c : Ctx) (k : Fin 4) : (c.note k).kpol = c.kpol := rfl
@[simp] theorem Ctx.note_ixpol (c : Ctx) (k : Fin 4) : (c.note k).ixpol = c.ixpol := rfl
@[simp] theorem Ctx.note_lc (c : Ctx) (k : Fin 4) : (c.note k).lc = c.lc := rfl
@[simp] theorem Ctx.note_ecCnt (c : Ctx) (k : Fin 4) : (c.note k).ecCnt = c.ecCnt := rfl
@[simp] theorem Ctx.note_gmem (c : Ctx) (k : Fin 4) : (c.note k).gmem = c.gmem := rfl
@[simp] theorem Ctx.note_dbg (c : Ctx) (k : Fin 4) : (c.note k).dbg = c.dbg := rfl
@[simp] theorem Ctx.note_rbseed (c : Ctx) (k : Fin 4) : (c.note k).rbseed = c.rbseed := rfl
@[simp] theorem Ctx.note_rbn (c : Ctx) (k : Fin 4) : (c.note k).rbn = c.rbn := rfl
@[simp] theorem Ctx.note_rbq (c : Ctx) (k : Fin 4) : (c.note k).rbq = c.rbq := rfl
@[simp] theorem Ctx.note_cwm (c : Ctx) (k : Fin 4) : (c.note k).cwm = c.cwm := rfl
@[simp] theorem Ctx.note_nextId (c : Ctx) (k : Fin 4) : (c.note k).nextId = c.nextId := rfl
@[simp] theorem Ctx.note_joinp (c : Ctx) (k : Fin 4) : (c.note k).joinp = c.joinp := rfl
@[simp] theorem Ctx.note_pasid (c : Ctx) (k : Fin 4) : (c.note k).pasid = c.pasid := rfl
@[simp] theorem Ctx.note_savea (c : Ctx) (k : Fin 4) : (c.note k).savea = c.savea := rfl
@[simp] theorem Ctx.note_ld (c : Ctx) (k : Fin 4) : (c.note k).ld = c.ld := rfl
@[simp] theorem Ctx.note_stc (c : Ctx) (k : Fin 4) : (c.note k).stc = c.stc := rfl
@[simp] theorem Ctx.note_cp (c : Ctx) (k : Fin 4) : (c.note k).cp = c.cp := rfl
@[simp] theorem Ctx.note_tl (c : Ctx) (k : Fin 4) : (c.note k).tl = c.tl := rfl
@[simp] theorem Ctx.note_pendS (c : Ctx) (k : Fin 4) : (c.note k).pendS = c.pendS := rfl
@[simp] theorem Ctx.note_pendV (c : Ctx) (k : Fin 4) : (c.note k).pendV = c.pendV := rfl
@[simp] theorem Ctx.note_pendC (c : Ctx) (k : Fin 4) : (c.note k).pendC = c.pendC := rfl
@[simp] theorem Ctx.note_pend (c : Ctx) (k : Fin 4) : (c.note k).pend = c.pend := rfl
@[simp] theorem Ctx.note_stores (c : Ctx) (k : Fin 4) : (c.note k).stores = c.stores := rfl
@[simp] theorem Ctx.note_xfer (c : Ctx) (k : Fin 4) : (c.note k).xfer = c.xfer := rfl
@[simp] theorem Ctx.note_loop (c : Ctx) (k : Fin 4) : (c.note k).loop = c.loop := rfl
@[simp] theorem Ctx.note_applies (c : Ctx) (k : Fin 4) : (c.note k).applies = c.applies := rfl
@[simp] theorem Ctx.note_sb (c : Ctx) (k : Fin 4) : (c.note k).sb = c.sb := rfl
@[simp] theorem Ctx.note_post (c : Ctx) (k : Fin 4) : (c.note k).post = c.post := rfl
@[simp] theorem Ctx.note_seq (c : Ctx) (k : Fin 4) : (c.note k).seq = c.seq := rfl
@[simp] theorem Ctx.note_lastSeq (c : Ctx) (k : Fin 4) : (c.note k).lastSeq = c.lastSeq := rfl
@[simp] theorem Ctx.note_waited (c : Ctx) (k : Fin 4) : (c.note k).waited = c.waited := rfl
@[simp] theorem Ctx.note_issued (c : Ctx) (k : Fin 4) : (c.note k).issued = c.issued := rfl
@[simp] theorem Ctx.note_landed (c : Ctx) (k : Fin 4) : (c.note k).landed = c.landed := rfl
@[simp] theorem Ctx.note_bits (c : Ctx) (k : Fin 4) : (c.note k).bits = c.bits := rfl
@[simp] theorem Ctx.note_gbar (c : Ctx) (k : Fin 4) : (c.note k).gbar = c.gbar := rfl
@[simp] theorem Ctx.note_probe (c : Ctx) (k : Fin 4) : (c.note k).probe = c.probe := rfl
@[simp] theorem Ctx.note_qpt (c : Ctx) (k : Fin 4) : (c.note k).qpt = c.qpt := rfl
@[simp] theorem Ctx.note_tw (c : Ctx) (k : Fin 4) : (c.note k).tw = c.tw := rfl
@[simp] theorem Ctx.note_ack (c : Ctx) (k : Fin 4) : (c.note k).ack = c.ack := rfl
@[simp] theorem Ctx.note_due (c : Ctx) (k : Fin 4) : (c.note k).due = c.due := rfl
@[simp] theorem Ctx.note_trap (c : Ctx) (k : Fin 4) : (c.note k).trap = c.trap := rfl
@[simp] theorem Ctx.note_assist (c : Ctx) (k : Fin 4) : (c.note k).assist = c.assist := rfl
@[simp] theorem Ctx.note_preempt (c : Ctx) (k : Fin 4) : (c.note k).preempt = c.preempt := rfl
@[simp] theorem Ctx.note_heldKb (c : Ctx) (k : Fin 4) : (c.note k).heldKb = c.heldKb := rfl
@[simp] theorem Ctx.note_heldMx (c : Ctx) (k : Fin 4) : (c.note k).heldMx = c.heldMx := rfl
@[simp] theorem Ctx.note_dbgHold (c : Ctx) (k : Fin 4) : (c.note k).dbgHold = c.dbgHold := rfl
@[simp] theorem Ctx.note_haltAt (c : Ctx) (k : Fin 4) : (c.note k).haltAt = c.haltAt := rfl
@[simp] theorem Ctx.note_blocked (c : Ctx) (k : Fin 4) : (c.note k).blocked = c.blocked := rfl
@[simp] theorem Ctx.note_quiet (c : Ctx) (k : Fin 4) : (c.note k).quiet = c.quiet := rfl

/-! ### A context stopped -/

@[simp] theorem Ctx.stop_pc (c : Ctx)  : (c.stop ).pc = c.pc := rfl
@[simp] theorem Ctx.stop_s (c : Ctx)  : (c.stop ).s = c.s := rfl
@[simp] theorem Ctx.stop_v (c : Ctx)  : (c.stop ).v = c.v := rfl
@[simp] theorem Ctx.stop_m (c : Ctx)  : (c.stop ).m = c.m := rfl
@[simp] theorem Ctx.stop_c (c : Ctx)  : (c.stop ).c = c.c := rfl
@[simp] theorem Ctx.stop_psP (c : Ctx)  : (c.stop ).psP = c.psP := rfl
@[simp] theorem Ctx.stop_psB (c : Ctx)  : (c.stop ).psB = c.psB := rfl
@[simp] theorem Ctx.stop_k (c : Ctx)  : (c.stop ).k = c.k := rfl
@[simp] theorem Ctx.stop_x (c : Ctx)  : (c.stop ).x = c.x := rfl
@[simp] theorem Ctx.stop_kOld (c : Ctx)  : (c.stop ).kOld = c.kOld := rfl
@[simp] theorem Ctx.stop_lat (c : Ctx)  : (c.stop ).lat = c.lat := rfl
@[simp] theorem Ctx.stop_bsWin (c : Ctx)  : (c.stop ).bsWin = c.bsWin := rfl
@[simp] theorem Ctx.stop_bsCnt (c : Ctx)  : (c.stop ).bsCnt = c.bsCnt := rfl
@[simp] theorem Ctx.stop_fpc (c : Ctx)  : (c.stop ).fpc = c.fpc := rfl
@[simp] theorem Ctx.stop_stat (c : Ctx)  : (c.stop ).stat = c.stat := rfl
@[simp] theorem Ctx.stop_kpol (c : Ctx)  : (c.stop ).kpol = c.kpol := rfl
@[simp] theorem Ctx.stop_ixpol (c : Ctx)  : (c.stop ).ixpol = c.ixpol := rfl
@[simp] theorem Ctx.stop_lc (c : Ctx)  : (c.stop ).lc = c.lc := rfl
@[simp] theorem Ctx.stop_ecCnt (c : Ctx)  : (c.stop ).ecCnt = c.ecCnt := rfl
@[simp] theorem Ctx.stop_gmem (c : Ctx)  : (c.stop ).gmem = c.gmem := rfl
@[simp] theorem Ctx.stop_dbg (c : Ctx)  : (c.stop ).dbg = c.dbg := rfl
@[simp] theorem Ctx.stop_rbseed (c : Ctx)  : (c.stop ).rbseed = c.rbseed := rfl
@[simp] theorem Ctx.stop_rbn (c : Ctx)  : (c.stop ).rbn = c.rbn := rfl
@[simp] theorem Ctx.stop_rbq (c : Ctx)  : (c.stop ).rbq = c.rbq := rfl
@[simp] theorem Ctx.stop_cwm (c : Ctx)  : (c.stop ).cwm = c.cwm := rfl
@[simp] theorem Ctx.stop_nextId (c : Ctx)  : (c.stop ).nextId = c.nextId := rfl
@[simp] theorem Ctx.stop_joinp (c : Ctx)  : (c.stop ).joinp = c.joinp := rfl
@[simp] theorem Ctx.stop_pasid (c : Ctx)  : (c.stop ).pasid = c.pasid := rfl
@[simp] theorem Ctx.stop_savea (c : Ctx)  : (c.stop ).savea = c.savea := rfl
@[simp] theorem Ctx.stop_ld (c : Ctx)  : (c.stop ).ld = c.ld := rfl
@[simp] theorem Ctx.stop_stc (c : Ctx)  : (c.stop ).stc = c.stc := rfl
@[simp] theorem Ctx.stop_cp (c : Ctx)  : (c.stop ).cp = c.cp := rfl
@[simp] theorem Ctx.stop_tl (c : Ctx)  : (c.stop ).tl = c.tl := rfl
@[simp] theorem Ctx.stop_pendS (c : Ctx)  : (c.stop ).pendS = c.pendS := rfl
@[simp] theorem Ctx.stop_pendV (c : Ctx)  : (c.stop ).pendV = c.pendV := rfl
@[simp] theorem Ctx.stop_pendC (c : Ctx)  : (c.stop ).pendC = c.pendC := rfl
@[simp] theorem Ctx.stop_pend (c : Ctx)  : (c.stop ).pend = c.pend := rfl
@[simp] theorem Ctx.stop_stores (c : Ctx)  : (c.stop ).stores = c.stores := rfl
@[simp] theorem Ctx.stop_xfer (c : Ctx)  : (c.stop ).xfer = c.xfer := rfl
@[simp] theorem Ctx.stop_loop (c : Ctx)  : (c.stop ).loop = c.loop := rfl
@[simp] theorem Ctx.stop_applies (c : Ctx)  : (c.stop ).applies = c.applies := rfl
@[simp] theorem Ctx.stop_sb (c : Ctx)  : (c.stop ).sb = c.sb := rfl
@[simp] theorem Ctx.stop_post (c : Ctx)  : (c.stop ).post = c.post := rfl
@[simp] theorem Ctx.stop_seq (c : Ctx)  : (c.stop ).seq = c.seq := rfl
@[simp] theorem Ctx.stop_lastSeq (c : Ctx)  : (c.stop ).lastSeq = c.lastSeq := rfl
@[simp] theorem Ctx.stop_recent (c : Ctx)  : (c.stop ).recent = c.recent := rfl
@[simp] theorem Ctx.stop_waited (c : Ctx)  : (c.stop ).waited = c.waited := rfl
@[simp] theorem Ctx.stop_issued (c : Ctx)  : (c.stop ).issued = c.issued := rfl
@[simp] theorem Ctx.stop_landed (c : Ctx)  : (c.stop ).landed = c.landed := rfl
@[simp] theorem Ctx.stop_bits (c : Ctx)  : (c.stop ).bits = c.bits := rfl
@[simp] theorem Ctx.stop_gbar (c : Ctx)  : (c.stop ).gbar = c.gbar := rfl
@[simp] theorem Ctx.stop_probe (c : Ctx)  : (c.stop ).probe = c.probe := rfl
@[simp] theorem Ctx.stop_qpt (c : Ctx)  : (c.stop ).qpt = c.qpt := rfl
@[simp] theorem Ctx.stop_tw (c : Ctx)  : (c.stop ).tw = c.tw := rfl
@[simp] theorem Ctx.stop_ack (c : Ctx)  : (c.stop ).ack = c.ack := rfl
@[simp] theorem Ctx.stop_due (c : Ctx)  : (c.stop ).due = c.due := rfl
@[simp] theorem Ctx.stop_trap (c : Ctx)  : (c.stop ).trap = c.trap := rfl
@[simp] theorem Ctx.stop_assist (c : Ctx)  : (c.stop ).assist = c.assist := rfl
@[simp] theorem Ctx.stop_preempt (c : Ctx)  : (c.stop ).preempt = c.preempt := rfl
@[simp] theorem Ctx.stop_heldKb (c : Ctx)  : (c.stop ).heldKb = c.heldKb := rfl
@[simp] theorem Ctx.stop_heldMx (c : Ctx)  : (c.stop ).heldMx = c.heldMx := rfl
@[simp] theorem Ctx.stop_dbgHold (c : Ctx)  : (c.stop ).dbgHold = c.dbgHold := rfl
@[simp] theorem Ctx.stop_haltAt (c : Ctx)  : (c.stop ).haltAt = c.haltAt := rfl
@[simp] theorem Ctx.stop_blocked (c : Ctx)  : (c.stop ).blocked = c.blocked := rfl
@[simp] theorem Ctx.stop_quiet (c : Ctx)  : (c.stop ).quiet = c.quiet := rfl

/-! ### A core set -/

@[simp] theorem State.setCore_cur (s : State) (n : Fin 4112) (k : Core) : (s.setCore n k).cur = s.cur := rfl
@[simp] theorem State.setCore_ir (s : State) (n : Fin 4112) (k : Core) : (s.setCore n k).ir = s.ir := rfl
@[simp] theorem State.setCore_act (s : State) (n : Fin 4112) (k : Core) : (s.setCore n k).act = s.act := rfl
@[simp] theorem State.setCore_sched (s : State) (n : Fin 4112) (k : Core) : (s.setCore n k).sched = s.sched := rfl
@[simp] theorem State.setCore_tick (s : State) (n : Fin 4112) (k : Core) : (s.setCore n k).tick = s.tick := rfl
@[simp] theorem State.setCore_time (s : State) (n : Fin 4112) (k : Core) : (s.setCore n k).time = s.time := rfl
@[simp] theorem State.setCore_mem (s : State) (n : Fin 4112) (k : Core) : (s.setCore n k).mem = s.mem := rfl
@[simp] theorem State.setCore_own (s : State) (n : Fin 4112) (k : Core) : (s.setCore n k).own = s.own := rfl
@[simp] theorem State.setCore_flight (s : State) (n : Fin 4112) (k : Core) : (s.setCore n k).flight = s.flight := rfl
@[simp] theorem State.setCore_clus (s : State) (n : Fin 4112) (k : Core) : (s.setCore n k).clus = s.clus := rfl
@[simp] theorem State.setCore_cmds (s : State) (n : Fin 4112) (k : Core) : (s.setCore n k).cmds = s.cmds := rfl
@[simp] theorem State.setCore_nextUid (s : State) (n : Fin 4112) (k : Core) : (s.setCore n k).nextUid = s.nextUid := rfl
@[simp] theorem State.setCore_engines (s : State) (n : Fin 4112) (k : Core) : (s.setCore n k).engines = s.engines := rfl
@[simp] theorem State.setCore_sets (s : State) (n : Fin 4112) (k : Core) : (s.setCore n k).sets = s.sets := rfl
@[simp] theorem State.setCore_groups (s : State) (n : Fin 4112) (k : Core) : (s.setCore n k).groups = s.groups := rfl
@[simp] theorem State.setCore_arrivals (s : State) (n : Fin 4112) (k : Core) : (s.setCore n k).arrivals = s.arrivals := rfl
@[simp] theorem State.setCore_rings (s : State) (n : Fin 4112) (k : Core) : (s.setCore n k).rings = s.rings := rfl
@[simp] theorem State.setCore_pushes (s : State) (n : Fin 4112) (k : Core) : (s.setCore n k).pushes = s.pushes := rfl
@[simp] theorem State.setCore_launch (s : State) (n : Fin 4112) (k : Core) : (s.setCore n k).launch = s.launch := rfl
@[simp] theorem State.setCore_host (s : State) (n : Fin 4112) (k : Core) : (s.setCore n k).host = s.host := rfl
@[simp] theorem State.setCore_pages (s : State) (n : Fin 4112) (k : Core) : (s.setCore n k).pages = s.pages := rfl
@[simp] theorem State.setCore_pri (s : State) (n : Fin 4112) (k : Core) : (s.setCore n k).pri = s.pri := rfl
@[simp] theorem State.setCore_invals (s : State) (n : Fin 4112) (k : Core) : (s.setCore n k).invals = s.invals := rfl
@[simp] theorem State.setCore_invNext (s : State) (n : Fin 4112) (k : Core) : (s.setCore n k).invNext = s.invNext := rfl
@[simp] theorem State.setCore_migrs (s : State) (n : Fin 4112) (k : Core) : (s.setCore n k).migrs = s.migrs := rfl
@[simp] theorem State.setCore_ports (s : State) (n : Fin 4112) (k : Core) : (s.setCore n k).ports = s.ports := rfl
@[simp] theorem State.setCore_devnum (s : State) (n : Fin 4112) (k : Core) : (s.setCore n k).devnum = s.devnum := rfl
@[simp] theorem State.setCore_boot (s : State) (n : Fin 4112) (k : Core) : (s.setCore n k).boot = s.boot := rfl
@[simp] theorem State.setCore_power (s : State) (n : Fin 4112) (k : Core) : (s.setCore n k).power = s.power := rfl

/-! ### A core changed -/

@[simp] theorem State.modCore_cur (s : State) (n : Fin 4112) (f : Core → Core) : (s.modCore n f).cur = s.cur := rfl
@[simp] theorem State.modCore_ir (s : State) (n : Fin 4112) (f : Core → Core) : (s.modCore n f).ir = s.ir := rfl
@[simp] theorem State.modCore_act (s : State) (n : Fin 4112) (f : Core → Core) : (s.modCore n f).act = s.act := rfl
@[simp] theorem State.modCore_sched (s : State) (n : Fin 4112) (f : Core → Core) : (s.modCore n f).sched = s.sched := rfl
@[simp] theorem State.modCore_tick (s : State) (n : Fin 4112) (f : Core → Core) : (s.modCore n f).tick = s.tick := rfl
@[simp] theorem State.modCore_time (s : State) (n : Fin 4112) (f : Core → Core) : (s.modCore n f).time = s.time := rfl
@[simp] theorem State.modCore_mem (s : State) (n : Fin 4112) (f : Core → Core) : (s.modCore n f).mem = s.mem := rfl
@[simp] theorem State.modCore_own (s : State) (n : Fin 4112) (f : Core → Core) : (s.modCore n f).own = s.own := rfl
@[simp] theorem State.modCore_flight (s : State) (n : Fin 4112) (f : Core → Core) : (s.modCore n f).flight = s.flight := rfl
@[simp] theorem State.modCore_clus (s : State) (n : Fin 4112) (f : Core → Core) : (s.modCore n f).clus = s.clus := rfl
@[simp] theorem State.modCore_cmds (s : State) (n : Fin 4112) (f : Core → Core) : (s.modCore n f).cmds = s.cmds := rfl
@[simp] theorem State.modCore_nextUid (s : State) (n : Fin 4112) (f : Core → Core) : (s.modCore n f).nextUid = s.nextUid := rfl
@[simp] theorem State.modCore_engines (s : State) (n : Fin 4112) (f : Core → Core) : (s.modCore n f).engines = s.engines := rfl
@[simp] theorem State.modCore_sets (s : State) (n : Fin 4112) (f : Core → Core) : (s.modCore n f).sets = s.sets := rfl
@[simp] theorem State.modCore_groups (s : State) (n : Fin 4112) (f : Core → Core) : (s.modCore n f).groups = s.groups := rfl
@[simp] theorem State.modCore_arrivals (s : State) (n : Fin 4112) (f : Core → Core) : (s.modCore n f).arrivals = s.arrivals := rfl
@[simp] theorem State.modCore_rings (s : State) (n : Fin 4112) (f : Core → Core) : (s.modCore n f).rings = s.rings := rfl
@[simp] theorem State.modCore_pushes (s : State) (n : Fin 4112) (f : Core → Core) : (s.modCore n f).pushes = s.pushes := rfl
@[simp] theorem State.modCore_launch (s : State) (n : Fin 4112) (f : Core → Core) : (s.modCore n f).launch = s.launch := rfl
@[simp] theorem State.modCore_host (s : State) (n : Fin 4112) (f : Core → Core) : (s.modCore n f).host = s.host := rfl
@[simp] theorem State.modCore_pages (s : State) (n : Fin 4112) (f : Core → Core) : (s.modCore n f).pages = s.pages := rfl
@[simp] theorem State.modCore_pri (s : State) (n : Fin 4112) (f : Core → Core) : (s.modCore n f).pri = s.pri := rfl
@[simp] theorem State.modCore_invals (s : State) (n : Fin 4112) (f : Core → Core) : (s.modCore n f).invals = s.invals := rfl
@[simp] theorem State.modCore_invNext (s : State) (n : Fin 4112) (f : Core → Core) : (s.modCore n f).invNext = s.invNext := rfl
@[simp] theorem State.modCore_migrs (s : State) (n : Fin 4112) (f : Core → Core) : (s.modCore n f).migrs = s.migrs := rfl
@[simp] theorem State.modCore_ports (s : State) (n : Fin 4112) (f : Core → Core) : (s.modCore n f).ports = s.ports := rfl
@[simp] theorem State.modCore_devnum (s : State) (n : Fin 4112) (f : Core → Core) : (s.modCore n f).devnum = s.devnum := rfl
@[simp] theorem State.modCore_boot (s : State) (n : Fin 4112) (f : Core → Core) : (s.modCore n f).boot = s.boot := rfl
@[simp] theorem State.modCore_power (s : State) (n : Fin 4112) (f : Core → Core) : (s.modCore n f).power = s.power := rfl

/-! ### A context set -/

@[simp] theorem State.setCtx_cur (s : State) (d : Cid) (x : Ctx) : (s.setCtx d x).cur = s.cur := rfl
@[simp] theorem State.setCtx_ir (s : State) (d : Cid) (x : Ctx) : (s.setCtx d x).ir = s.ir := rfl
@[simp] theorem State.setCtx_act (s : State) (d : Cid) (x : Ctx) : (s.setCtx d x).act = s.act := rfl
@[simp] theorem State.setCtx_sched (s : State) (d : Cid) (x : Ctx) : (s.setCtx d x).sched = s.sched := rfl
@[simp] theorem State.setCtx_tick (s : State) (d : Cid) (x : Ctx) : (s.setCtx d x).tick = s.tick := rfl
@[simp] theorem State.setCtx_time (s : State) (d : Cid) (x : Ctx) : (s.setCtx d x).time = s.time := rfl
@[simp] theorem State.setCtx_mem (s : State) (d : Cid) (x : Ctx) : (s.setCtx d x).mem = s.mem := rfl
@[simp] theorem State.setCtx_own (s : State) (d : Cid) (x : Ctx) : (s.setCtx d x).own = s.own := rfl
@[simp] theorem State.setCtx_flight (s : State) (d : Cid) (x : Ctx) : (s.setCtx d x).flight = s.flight := rfl
@[simp] theorem State.setCtx_clus (s : State) (d : Cid) (x : Ctx) : (s.setCtx d x).clus = s.clus := rfl
@[simp] theorem State.setCtx_cmds (s : State) (d : Cid) (x : Ctx) : (s.setCtx d x).cmds = s.cmds := rfl
@[simp] theorem State.setCtx_nextUid (s : State) (d : Cid) (x : Ctx) : (s.setCtx d x).nextUid = s.nextUid := rfl
@[simp] theorem State.setCtx_engines (s : State) (d : Cid) (x : Ctx) : (s.setCtx d x).engines = s.engines := rfl
@[simp] theorem State.setCtx_sets (s : State) (d : Cid) (x : Ctx) : (s.setCtx d x).sets = s.sets := rfl
@[simp] theorem State.setCtx_groups (s : State) (d : Cid) (x : Ctx) : (s.setCtx d x).groups = s.groups := rfl
@[simp] theorem State.setCtx_arrivals (s : State) (d : Cid) (x : Ctx) : (s.setCtx d x).arrivals = s.arrivals := rfl
@[simp] theorem State.setCtx_rings (s : State) (d : Cid) (x : Ctx) : (s.setCtx d x).rings = s.rings := rfl
@[simp] theorem State.setCtx_pushes (s : State) (d : Cid) (x : Ctx) : (s.setCtx d x).pushes = s.pushes := rfl
@[simp] theorem State.setCtx_launch (s : State) (d : Cid) (x : Ctx) : (s.setCtx d x).launch = s.launch := rfl
@[simp] theorem State.setCtx_host (s : State) (d : Cid) (x : Ctx) : (s.setCtx d x).host = s.host := rfl
@[simp] theorem State.setCtx_pages (s : State) (d : Cid) (x : Ctx) : (s.setCtx d x).pages = s.pages := rfl
@[simp] theorem State.setCtx_pri (s : State) (d : Cid) (x : Ctx) : (s.setCtx d x).pri = s.pri := rfl
@[simp] theorem State.setCtx_invals (s : State) (d : Cid) (x : Ctx) : (s.setCtx d x).invals = s.invals := rfl
@[simp] theorem State.setCtx_invNext (s : State) (d : Cid) (x : Ctx) : (s.setCtx d x).invNext = s.invNext := rfl
@[simp] theorem State.setCtx_migrs (s : State) (d : Cid) (x : Ctx) : (s.setCtx d x).migrs = s.migrs := rfl
@[simp] theorem State.setCtx_ports (s : State) (d : Cid) (x : Ctx) : (s.setCtx d x).ports = s.ports := rfl
@[simp] theorem State.setCtx_devnum (s : State) (d : Cid) (x : Ctx) : (s.setCtx d x).devnum = s.devnum := rfl
@[simp] theorem State.setCtx_boot (s : State) (d : Cid) (x : Ctx) : (s.setCtx d x).boot = s.boot := rfl
@[simp] theorem State.setCtx_power (s : State) (d : Cid) (x : Ctx) : (s.setCtx d x).power = s.power := rfl

/-! ### A context changed -/

@[simp] theorem State.modCtx_cur (s : State) (d : Cid) (f : Ctx → Ctx) : (s.modCtx d f).cur = s.cur := rfl
@[simp] theorem State.modCtx_ir (s : State) (d : Cid) (f : Ctx → Ctx) : (s.modCtx d f).ir = s.ir := rfl
@[simp] theorem State.modCtx_act (s : State) (d : Cid) (f : Ctx → Ctx) : (s.modCtx d f).act = s.act := rfl
@[simp] theorem State.modCtx_sched (s : State) (d : Cid) (f : Ctx → Ctx) : (s.modCtx d f).sched = s.sched := rfl
@[simp] theorem State.modCtx_tick (s : State) (d : Cid) (f : Ctx → Ctx) : (s.modCtx d f).tick = s.tick := rfl
@[simp] theorem State.modCtx_time (s : State) (d : Cid) (f : Ctx → Ctx) : (s.modCtx d f).time = s.time := rfl
@[simp] theorem State.modCtx_mem (s : State) (d : Cid) (f : Ctx → Ctx) : (s.modCtx d f).mem = s.mem := rfl
@[simp] theorem State.modCtx_own (s : State) (d : Cid) (f : Ctx → Ctx) : (s.modCtx d f).own = s.own := rfl
@[simp] theorem State.modCtx_flight (s : State) (d : Cid) (f : Ctx → Ctx) : (s.modCtx d f).flight = s.flight := rfl
@[simp] theorem State.modCtx_clus (s : State) (d : Cid) (f : Ctx → Ctx) : (s.modCtx d f).clus = s.clus := rfl
@[simp] theorem State.modCtx_cmds (s : State) (d : Cid) (f : Ctx → Ctx) : (s.modCtx d f).cmds = s.cmds := rfl
@[simp] theorem State.modCtx_nextUid (s : State) (d : Cid) (f : Ctx → Ctx) : (s.modCtx d f).nextUid = s.nextUid := rfl
@[simp] theorem State.modCtx_engines (s : State) (d : Cid) (f : Ctx → Ctx) : (s.modCtx d f).engines = s.engines := rfl
@[simp] theorem State.modCtx_sets (s : State) (d : Cid) (f : Ctx → Ctx) : (s.modCtx d f).sets = s.sets := rfl
@[simp] theorem State.modCtx_groups (s : State) (d : Cid) (f : Ctx → Ctx) : (s.modCtx d f).groups = s.groups := rfl
@[simp] theorem State.modCtx_arrivals (s : State) (d : Cid) (f : Ctx → Ctx) : (s.modCtx d f).arrivals = s.arrivals := rfl
@[simp] theorem State.modCtx_rings (s : State) (d : Cid) (f : Ctx → Ctx) : (s.modCtx d f).rings = s.rings := rfl
@[simp] theorem State.modCtx_pushes (s : State) (d : Cid) (f : Ctx → Ctx) : (s.modCtx d f).pushes = s.pushes := rfl
@[simp] theorem State.modCtx_launch (s : State) (d : Cid) (f : Ctx → Ctx) : (s.modCtx d f).launch = s.launch := rfl
@[simp] theorem State.modCtx_host (s : State) (d : Cid) (f : Ctx → Ctx) : (s.modCtx d f).host = s.host := rfl
@[simp] theorem State.modCtx_pages (s : State) (d : Cid) (f : Ctx → Ctx) : (s.modCtx d f).pages = s.pages := rfl
@[simp] theorem State.modCtx_pri (s : State) (d : Cid) (f : Ctx → Ctx) : (s.modCtx d f).pri = s.pri := rfl
@[simp] theorem State.modCtx_invals (s : State) (d : Cid) (f : Ctx → Ctx) : (s.modCtx d f).invals = s.invals := rfl
@[simp] theorem State.modCtx_invNext (s : State) (d : Cid) (f : Ctx → Ctx) : (s.modCtx d f).invNext = s.invNext := rfl
@[simp] theorem State.modCtx_migrs (s : State) (d : Cid) (f : Ctx → Ctx) : (s.modCtx d f).migrs = s.migrs := rfl
@[simp] theorem State.modCtx_ports (s : State) (d : Cid) (f : Ctx → Ctx) : (s.modCtx d f).ports = s.ports := rfl
@[simp] theorem State.modCtx_devnum (s : State) (d : Cid) (f : Ctx → Ctx) : (s.modCtx d f).devnum = s.devnum := rfl
@[simp] theorem State.modCtx_boot (s : State) (d : Cid) (f : Ctx → Ctx) : (s.modCtx d f).boot = s.boot := rfl
@[simp] theorem State.modCtx_power (s : State) (d : Cid) (f : Ctx → Ctx) : (s.modCtx d f).power = s.power := rfl

/-! ### A cluster changed -/

@[simp] theorem State.modClu_cores (s : State) (k : Fin 16) (f : Cluster → Cluster) : (s.modClu k f).cores = s.cores := rfl
@[simp] theorem State.modClu_cur (s : State) (k : Fin 16) (f : Cluster → Cluster) : (s.modClu k f).cur = s.cur := rfl
@[simp] theorem State.modClu_ir (s : State) (k : Fin 16) (f : Cluster → Cluster) : (s.modClu k f).ir = s.ir := rfl
@[simp] theorem State.modClu_act (s : State) (k : Fin 16) (f : Cluster → Cluster) : (s.modClu k f).act = s.act := rfl
@[simp] theorem State.modClu_sched (s : State) (k : Fin 16) (f : Cluster → Cluster) : (s.modClu k f).sched = s.sched := rfl
@[simp] theorem State.modClu_tick (s : State) (k : Fin 16) (f : Cluster → Cluster) : (s.modClu k f).tick = s.tick := rfl
@[simp] theorem State.modClu_time (s : State) (k : Fin 16) (f : Cluster → Cluster) : (s.modClu k f).time = s.time := rfl
@[simp] theorem State.modClu_mem (s : State) (k : Fin 16) (f : Cluster → Cluster) : (s.modClu k f).mem = s.mem := rfl
@[simp] theorem State.modClu_own (s : State) (k : Fin 16) (f : Cluster → Cluster) : (s.modClu k f).own = s.own := rfl
@[simp] theorem State.modClu_flight (s : State) (k : Fin 16) (f : Cluster → Cluster) : (s.modClu k f).flight = s.flight := rfl
@[simp] theorem State.modClu_cmds (s : State) (k : Fin 16) (f : Cluster → Cluster) : (s.modClu k f).cmds = s.cmds := rfl
@[simp] theorem State.modClu_nextUid (s : State) (k : Fin 16) (f : Cluster → Cluster) : (s.modClu k f).nextUid = s.nextUid := rfl
@[simp] theorem State.modClu_engines (s : State) (k : Fin 16) (f : Cluster → Cluster) : (s.modClu k f).engines = s.engines := rfl
@[simp] theorem State.modClu_sets (s : State) (k : Fin 16) (f : Cluster → Cluster) : (s.modClu k f).sets = s.sets := rfl
@[simp] theorem State.modClu_groups (s : State) (k : Fin 16) (f : Cluster → Cluster) : (s.modClu k f).groups = s.groups := rfl
@[simp] theorem State.modClu_arrivals (s : State) (k : Fin 16) (f : Cluster → Cluster) : (s.modClu k f).arrivals = s.arrivals := rfl
@[simp] theorem State.modClu_rings (s : State) (k : Fin 16) (f : Cluster → Cluster) : (s.modClu k f).rings = s.rings := rfl
@[simp] theorem State.modClu_pushes (s : State) (k : Fin 16) (f : Cluster → Cluster) : (s.modClu k f).pushes = s.pushes := rfl
@[simp] theorem State.modClu_launch (s : State) (k : Fin 16) (f : Cluster → Cluster) : (s.modClu k f).launch = s.launch := rfl
@[simp] theorem State.modClu_host (s : State) (k : Fin 16) (f : Cluster → Cluster) : (s.modClu k f).host = s.host := rfl
@[simp] theorem State.modClu_pages (s : State) (k : Fin 16) (f : Cluster → Cluster) : (s.modClu k f).pages = s.pages := rfl
@[simp] theorem State.modClu_pri (s : State) (k : Fin 16) (f : Cluster → Cluster) : (s.modClu k f).pri = s.pri := rfl
@[simp] theorem State.modClu_invals (s : State) (k : Fin 16) (f : Cluster → Cluster) : (s.modClu k f).invals = s.invals := rfl
@[simp] theorem State.modClu_invNext (s : State) (k : Fin 16) (f : Cluster → Cluster) : (s.modClu k f).invNext = s.invNext := rfl
@[simp] theorem State.modClu_migrs (s : State) (k : Fin 16) (f : Cluster → Cluster) : (s.modClu k f).migrs = s.migrs := rfl
@[simp] theorem State.modClu_ports (s : State) (k : Fin 16) (f : Cluster → Cluster) : (s.modClu k f).ports = s.ports := rfl
@[simp] theorem State.modClu_devnum (s : State) (k : Fin 16) (f : Cluster → Cluster) : (s.modClu k f).devnum = s.devnum := rfl
@[simp] theorem State.modClu_boot (s : State) (k : Fin 16) (f : Cluster → Cluster) : (s.modClu k f).boot = s.boot := rfl
@[simp] theorem State.modClu_power (s : State) (k : Fin 16) (f : Cluster → Cluster) : (s.modClu k f).power = s.power := rfl

/-! ### TIME brought up to date -/

@[simp] theorem State.clock_cores (s : State)  : (s.clock ).cores = s.cores := rfl
@[simp] theorem State.clock_cur (s : State)  : (s.clock ).cur = s.cur := rfl
@[simp] theorem State.clock_ir (s : State)  : (s.clock ).ir = s.ir := rfl
@[simp] theorem State.clock_act (s : State)  : (s.clock ).act = s.act := rfl
@[simp] theorem State.clock_sched (s : State)  : (s.clock ).sched = s.sched := rfl
@[simp] theorem State.clock_mem (s : State)  : (s.clock ).mem = s.mem := rfl
@[simp] theorem State.clock_own (s : State)  : (s.clock ).own = s.own := rfl
@[simp] theorem State.clock_flight (s : State)  : (s.clock ).flight = s.flight := rfl
@[simp] theorem State.clock_clus (s : State)  : (s.clock ).clus = s.clus := rfl
@[simp] theorem State.clock_cmds (s : State)  : (s.clock ).cmds = s.cmds := rfl
@[simp] theorem State.clock_nextUid (s : State)  : (s.clock ).nextUid = s.nextUid := rfl
@[simp] theorem State.clock_engines (s : State)  : (s.clock ).engines = s.engines := rfl
@[simp] theorem State.clock_sets (s : State)  : (s.clock ).sets = s.sets := rfl
@[simp] theorem State.clock_groups (s : State)  : (s.clock ).groups = s.groups := rfl
@[simp] theorem State.clock_arrivals (s : State)  : (s.clock ).arrivals = s.arrivals := rfl
@[simp] theorem State.clock_rings (s : State)  : (s.clock ).rings = s.rings := rfl
@[simp] theorem State.clock_pushes (s : State)  : (s.clock ).pushes = s.pushes := rfl
@[simp] theorem State.clock_launch (s : State)  : (s.clock ).launch = s.launch := rfl
@[simp] theorem State.clock_host (s : State)  : (s.clock ).host = s.host := rfl
@[simp] theorem State.clock_pages (s : State)  : (s.clock ).pages = s.pages := rfl
@[simp] theorem State.clock_pri (s : State)  : (s.clock ).pri = s.pri := rfl
@[simp] theorem State.clock_invals (s : State)  : (s.clock ).invals = s.invals := rfl
@[simp] theorem State.clock_invNext (s : State)  : (s.clock ).invNext = s.invNext := rfl
@[simp] theorem State.clock_migrs (s : State)  : (s.clock ).migrs = s.migrs := rfl
@[simp] theorem State.clock_ports (s : State)  : (s.clock ).ports = s.ports := rfl
@[simp] theorem State.clock_devnum (s : State)  : (s.clock ).devnum = s.devnum := rfl
@[simp] theorem State.clock_boot (s : State)  : (s.clock ).boot = s.boot := rfl
@[simp] theorem State.clock_power (s : State)  : (s.clock ).power = s.power := rfl

/-! ### A vector raised -/

@[simp] theorem State.msi_cores (s : State) (v : Fin 8) : (s.msi v).cores = s.cores := rfl
@[simp] theorem State.msi_cur (s : State) (v : Fin 8) : (s.msi v).cur = s.cur := rfl
@[simp] theorem State.msi_ir (s : State) (v : Fin 8) : (s.msi v).ir = s.ir := rfl
@[simp] theorem State.msi_act (s : State) (v : Fin 8) : (s.msi v).act = s.act := rfl
@[simp] theorem State.msi_sched (s : State) (v : Fin 8) : (s.msi v).sched = s.sched := rfl
@[simp] theorem State.msi_tick (s : State) (v : Fin 8) : (s.msi v).tick = s.tick := rfl
@[simp] theorem State.msi_time (s : State) (v : Fin 8) : (s.msi v).time = s.time := rfl
@[simp] theorem State.msi_mem (s : State) (v : Fin 8) : (s.msi v).mem = s.mem := rfl
@[simp] theorem State.msi_own (s : State) (v : Fin 8) : (s.msi v).own = s.own := rfl
@[simp] theorem State.msi_flight (s : State) (v : Fin 8) : (s.msi v).flight = s.flight := rfl
@[simp] theorem State.msi_clus (s : State) (v : Fin 8) : (s.msi v).clus = s.clus := rfl
@[simp] theorem State.msi_cmds (s : State) (v : Fin 8) : (s.msi v).cmds = s.cmds := rfl
@[simp] theorem State.msi_nextUid (s : State) (v : Fin 8) : (s.msi v).nextUid = s.nextUid := rfl
@[simp] theorem State.msi_engines (s : State) (v : Fin 8) : (s.msi v).engines = s.engines := rfl
@[simp] theorem State.msi_sets (s : State) (v : Fin 8) : (s.msi v).sets = s.sets := rfl
@[simp] theorem State.msi_groups (s : State) (v : Fin 8) : (s.msi v).groups = s.groups := rfl
@[simp] theorem State.msi_arrivals (s : State) (v : Fin 8) : (s.msi v).arrivals = s.arrivals := rfl
@[simp] theorem State.msi_rings (s : State) (v : Fin 8) : (s.msi v).rings = s.rings := rfl
@[simp] theorem State.msi_pushes (s : State) (v : Fin 8) : (s.msi v).pushes = s.pushes := rfl
@[simp] theorem State.msi_launch (s : State) (v : Fin 8) : (s.msi v).launch = s.launch := rfl
@[simp] theorem State.msi_pages (s : State) (v : Fin 8) : (s.msi v).pages = s.pages := rfl
@[simp] theorem State.msi_pri (s : State) (v : Fin 8) : (s.msi v).pri = s.pri := rfl
@[simp] theorem State.msi_invals (s : State) (v : Fin 8) : (s.msi v).invals = s.invals := rfl
@[simp] theorem State.msi_invNext (s : State) (v : Fin 8) : (s.msi v).invNext = s.invNext := rfl
@[simp] theorem State.msi_migrs (s : State) (v : Fin 8) : (s.msi v).migrs = s.migrs := rfl
@[simp] theorem State.msi_ports (s : State) (v : Fin 8) : (s.msi v).ports = s.ports := rfl
@[simp] theorem State.msi_devnum (s : State) (v : Fin 8) : (s.msi v).devnum = s.devnum := rfl
@[simp] theorem State.msi_boot (s : State) (v : Fin 8) : (s.msi v).boot = s.boot := rfl
@[simp] theorem State.msi_power (s : State) (v : Fin 8) : (s.msi v).power = s.power := rfl

/-! ### A command changed -/

@[simp] theorem State.modCmd_cores (s : State) (uid : Nat) (f : Cmd → Cmd) : (s.modCmd uid f).cores = s.cores := rfl
@[simp] theorem State.modCmd_cur (s : State) (uid : Nat) (f : Cmd → Cmd) : (s.modCmd uid f).cur = s.cur := rfl
@[simp] theorem State.modCmd_ir (s : State) (uid : Nat) (f : Cmd → Cmd) : (s.modCmd uid f).ir = s.ir := rfl
@[simp] theorem State.modCmd_act (s : State) (uid : Nat) (f : Cmd → Cmd) : (s.modCmd uid f).act = s.act := rfl
@[simp] theorem State.modCmd_sched (s : State) (uid : Nat) (f : Cmd → Cmd) : (s.modCmd uid f).sched = s.sched := rfl
@[simp] theorem State.modCmd_tick (s : State) (uid : Nat) (f : Cmd → Cmd) : (s.modCmd uid f).tick = s.tick := rfl
@[simp] theorem State.modCmd_time (s : State) (uid : Nat) (f : Cmd → Cmd) : (s.modCmd uid f).time = s.time := rfl
@[simp] theorem State.modCmd_mem (s : State) (uid : Nat) (f : Cmd → Cmd) : (s.modCmd uid f).mem = s.mem := rfl
@[simp] theorem State.modCmd_own (s : State) (uid : Nat) (f : Cmd → Cmd) : (s.modCmd uid f).own = s.own := rfl
@[simp] theorem State.modCmd_flight (s : State) (uid : Nat) (f : Cmd → Cmd) : (s.modCmd uid f).flight = s.flight := rfl
@[simp] theorem State.modCmd_clus (s : State) (uid : Nat) (f : Cmd → Cmd) : (s.modCmd uid f).clus = s.clus := rfl
@[simp] theorem State.modCmd_nextUid (s : State) (uid : Nat) (f : Cmd → Cmd) : (s.modCmd uid f).nextUid = s.nextUid := rfl
@[simp] theorem State.modCmd_engines (s : State) (uid : Nat) (f : Cmd → Cmd) : (s.modCmd uid f).engines = s.engines := rfl
@[simp] theorem State.modCmd_sets (s : State) (uid : Nat) (f : Cmd → Cmd) : (s.modCmd uid f).sets = s.sets := rfl
@[simp] theorem State.modCmd_groups (s : State) (uid : Nat) (f : Cmd → Cmd) : (s.modCmd uid f).groups = s.groups := rfl
@[simp] theorem State.modCmd_arrivals (s : State) (uid : Nat) (f : Cmd → Cmd) : (s.modCmd uid f).arrivals = s.arrivals := rfl
@[simp] theorem State.modCmd_rings (s : State) (uid : Nat) (f : Cmd → Cmd) : (s.modCmd uid f).rings = s.rings := rfl
@[simp] theorem State.modCmd_pushes (s : State) (uid : Nat) (f : Cmd → Cmd) : (s.modCmd uid f).pushes = s.pushes := rfl
@[simp] theorem State.modCmd_launch (s : State) (uid : Nat) (f : Cmd → Cmd) : (s.modCmd uid f).launch = s.launch := rfl
@[simp] theorem State.modCmd_host (s : State) (uid : Nat) (f : Cmd → Cmd) : (s.modCmd uid f).host = s.host := rfl
@[simp] theorem State.modCmd_pages (s : State) (uid : Nat) (f : Cmd → Cmd) : (s.modCmd uid f).pages = s.pages := rfl
@[simp] theorem State.modCmd_pri (s : State) (uid : Nat) (f : Cmd → Cmd) : (s.modCmd uid f).pri = s.pri := rfl
@[simp] theorem State.modCmd_invals (s : State) (uid : Nat) (f : Cmd → Cmd) : (s.modCmd uid f).invals = s.invals := rfl
@[simp] theorem State.modCmd_invNext (s : State) (uid : Nat) (f : Cmd → Cmd) : (s.modCmd uid f).invNext = s.invNext := rfl
@[simp] theorem State.modCmd_migrs (s : State) (uid : Nat) (f : Cmd → Cmd) : (s.modCmd uid f).migrs = s.migrs := rfl
@[simp] theorem State.modCmd_ports (s : State) (uid : Nat) (f : Cmd → Cmd) : (s.modCmd uid f).ports = s.ports := rfl
@[simp] theorem State.modCmd_devnum (s : State) (uid : Nat) (f : Cmd → Cmd) : (s.modCmd uid f).devnum = s.devnum := rfl
@[simp] theorem State.modCmd_boot (s : State) (uid : Nat) (f : Cmd → Cmd) : (s.modCmd uid f).boot = s.boot := rfl
@[simp] theorem State.modCmd_power (s : State) (uid : Nat) (f : Cmd → Cmd) : (s.modCmd uid f).power = s.power := rfl

/-! ### A command dropped -/

@[simp] theorem State.dropCmd_cores (s : State) (uid : Nat) : (s.dropCmd uid).cores = s.cores := rfl
@[simp] theorem State.dropCmd_cur (s : State) (uid : Nat) : (s.dropCmd uid).cur = s.cur := rfl
@[simp] theorem State.dropCmd_ir (s : State) (uid : Nat) : (s.dropCmd uid).ir = s.ir := rfl
@[simp] theorem State.dropCmd_act (s : State) (uid : Nat) : (s.dropCmd uid).act = s.act := rfl
@[simp] theorem State.dropCmd_sched (s : State) (uid : Nat) : (s.dropCmd uid).sched = s.sched := rfl
@[simp] theorem State.dropCmd_tick (s : State) (uid : Nat) : (s.dropCmd uid).tick = s.tick := rfl
@[simp] theorem State.dropCmd_time (s : State) (uid : Nat) : (s.dropCmd uid).time = s.time := rfl
@[simp] theorem State.dropCmd_mem (s : State) (uid : Nat) : (s.dropCmd uid).mem = s.mem := rfl
@[simp] theorem State.dropCmd_own (s : State) (uid : Nat) : (s.dropCmd uid).own = s.own := rfl
@[simp] theorem State.dropCmd_clus (s : State) (uid : Nat) : (s.dropCmd uid).clus = s.clus := rfl
@[simp] theorem State.dropCmd_nextUid (s : State) (uid : Nat) : (s.dropCmd uid).nextUid = s.nextUid := rfl
@[simp] theorem State.dropCmd_engines (s : State) (uid : Nat) : (s.dropCmd uid).engines = s.engines := rfl
@[simp] theorem State.dropCmd_sets (s : State) (uid : Nat) : (s.dropCmd uid).sets = s.sets := rfl
@[simp] theorem State.dropCmd_groups (s : State) (uid : Nat) : (s.dropCmd uid).groups = s.groups := rfl
@[simp] theorem State.dropCmd_arrivals (s : State) (uid : Nat) : (s.dropCmd uid).arrivals = s.arrivals := rfl
@[simp] theorem State.dropCmd_rings (s : State) (uid : Nat) : (s.dropCmd uid).rings = s.rings := rfl
@[simp] theorem State.dropCmd_pushes (s : State) (uid : Nat) : (s.dropCmd uid).pushes = s.pushes := rfl
@[simp] theorem State.dropCmd_launch (s : State) (uid : Nat) : (s.dropCmd uid).launch = s.launch := rfl
@[simp] theorem State.dropCmd_host (s : State) (uid : Nat) : (s.dropCmd uid).host = s.host := rfl
@[simp] theorem State.dropCmd_pages (s : State) (uid : Nat) : (s.dropCmd uid).pages = s.pages := rfl
@[simp] theorem State.dropCmd_pri (s : State) (uid : Nat) : (s.dropCmd uid).pri = s.pri := rfl
@[simp] theorem State.dropCmd_invals (s : State) (uid : Nat) : (s.dropCmd uid).invals = s.invals := rfl
@[simp] theorem State.dropCmd_invNext (s : State) (uid : Nat) : (s.dropCmd uid).invNext = s.invNext := rfl
@[simp] theorem State.dropCmd_migrs (s : State) (uid : Nat) : (s.dropCmd uid).migrs = s.migrs := rfl
@[simp] theorem State.dropCmd_ports (s : State) (uid : Nat) : (s.dropCmd uid).ports = s.ports := rfl
@[simp] theorem State.dropCmd_devnum (s : State) (uid : Nat) : (s.dropCmd uid).devnum = s.devnum := rfl
@[simp] theorem State.dropCmd_boot (s : State) (uid : Nat) : (s.dropCmd uid).boot = s.boot := rfl
@[simp] theorem State.dropCmd_power (s : State) (uid : Nat) : (s.dropCmd uid).power = s.power := rfl

/-! ### Granules granted -/

@[simp] theorem State.grantAll_cores (s : State) (gs : List Nat) : (s.grantAll gs).cores = s.cores := rfl
@[simp] theorem State.grantAll_cur (s : State) (gs : List Nat) : (s.grantAll gs).cur = s.cur := rfl
@[simp] theorem State.grantAll_ir (s : State) (gs : List Nat) : (s.grantAll gs).ir = s.ir := rfl
@[simp] theorem State.grantAll_act (s : State) (gs : List Nat) : (s.grantAll gs).act = s.act := rfl
@[simp] theorem State.grantAll_sched (s : State) (gs : List Nat) : (s.grantAll gs).sched = s.sched := rfl
@[simp] theorem State.grantAll_tick (s : State) (gs : List Nat) : (s.grantAll gs).tick = s.tick := rfl
@[simp] theorem State.grantAll_time (s : State) (gs : List Nat) : (s.grantAll gs).time = s.time := rfl
@[simp] theorem State.grantAll_mem (s : State) (gs : List Nat) : (s.grantAll gs).mem = s.mem := rfl
@[simp] theorem State.grantAll_flight (s : State) (gs : List Nat) : (s.grantAll gs).flight = s.flight := rfl
@[simp] theorem State.grantAll_clus (s : State) (gs : List Nat) : (s.grantAll gs).clus = s.clus := rfl
@[simp] theorem State.grantAll_cmds (s : State) (gs : List Nat) : (s.grantAll gs).cmds = s.cmds := rfl
@[simp] theorem State.grantAll_nextUid (s : State) (gs : List Nat) : (s.grantAll gs).nextUid = s.nextUid := rfl
@[simp] theorem State.grantAll_engines (s : State) (gs : List Nat) : (s.grantAll gs).engines = s.engines := rfl
@[simp] theorem State.grantAll_sets (s : State) (gs : List Nat) : (s.grantAll gs).sets = s.sets := rfl
@[simp] theorem State.grantAll_groups (s : State) (gs : List Nat) : (s.grantAll gs).groups = s.groups := rfl
@[simp] theorem State.grantAll_arrivals (s : State) (gs : List Nat) : (s.grantAll gs).arrivals = s.arrivals := rfl
@[simp] theorem State.grantAll_rings (s : State) (gs : List Nat) : (s.grantAll gs).rings = s.rings := rfl
@[simp] theorem State.grantAll_pushes (s : State) (gs : List Nat) : (s.grantAll gs).pushes = s.pushes := rfl
@[simp] theorem State.grantAll_launch (s : State) (gs : List Nat) : (s.grantAll gs).launch = s.launch := rfl
@[simp] theorem State.grantAll_host (s : State) (gs : List Nat) : (s.grantAll gs).host = s.host := rfl
@[simp] theorem State.grantAll_pages (s : State) (gs : List Nat) : (s.grantAll gs).pages = s.pages := rfl
@[simp] theorem State.grantAll_pri (s : State) (gs : List Nat) : (s.grantAll gs).pri = s.pri := rfl
@[simp] theorem State.grantAll_invals (s : State) (gs : List Nat) : (s.grantAll gs).invals = s.invals := rfl
@[simp] theorem State.grantAll_invNext (s : State) (gs : List Nat) : (s.grantAll gs).invNext = s.invNext := rfl
@[simp] theorem State.grantAll_migrs (s : State) (gs : List Nat) : (s.grantAll gs).migrs = s.migrs := rfl
@[simp] theorem State.grantAll_ports (s : State) (gs : List Nat) : (s.grantAll gs).ports = s.ports := rfl
@[simp] theorem State.grantAll_devnum (s : State) (gs : List Nat) : (s.grantAll gs).devnum = s.devnum := rfl
@[simp] theorem State.grantAll_boot (s : State) (gs : List Nat) : (s.grantAll gs).boot = s.boot := rfl
@[simp] theorem State.grantAll_power (s : State) (gs : List Nat) : (s.grantAll gs).power = s.power := rfl

/-! ### A core with a context set -/

@[simp] theorem Core.setAt_running (k : Core) (i : Fin 4) (x : Ctx) : (k.setAt i x).running = k.running := rfl
@[simp] theorem Core.setAt_gated (k : Core) (i : Fin 4) (x : Ctx) : (k.setAt i x).gated = k.gated := rfl
@[simp] theorem Core.setAt_stalled (k : Core) (i : Fin 4) (x : Ctx) : (k.setAt i x).stalled = k.stalled := rfl
@[simp] theorem Core.setAt_icache (k : Core) (i : Fin 4) (x : Ctx) : (k.setAt i x).icache = k.icache := rfl
@[simp] theorem Core.setAt_wins (k : Core) (i : Fin 4) (x : Ctx) : (k.setAt i x).wins = k.wins := rfl
@[simp] theorem Core.setAt_pair (k : Core) (i : Fin 4) (x : Ctx) : (k.setAt i x).pair = k.pair := rfl
@[simp] theorem Core.setAt_kbq (k : Core) (i : Fin 4) (x : Ctx) : (k.setAt i x).kbq = k.kbq := rfl
@[simp] theorem Core.setAt_kbRun (k : Core) (i : Fin 4) (x : Ctx) : (k.setAt i x).kbRun = k.kbRun := rfl
@[simp] theorem Core.setAt_tiles (k : Core) (i : Fin 4) (x : Ctx) : (k.setAt i x).tiles = k.tiles := rfl
@[simp] theorem Core.setAt_mxCfg (k : Core) (i : Fin 4) (x : Ctx) : (k.setAt i x).mxCfg = k.mxCfg := rfl
@[simp] theorem Core.setAt_mxq (k : Core) (i : Fin 4) (x : Ctx) : (k.setAt i x).mxq = k.mxq := rfl
@[simp] theorem Core.setAt_mxRun (k : Core) (i : Fin 4) (x : Ctx) : (k.setAt i x).mxRun = k.mxRun := rfl

end Sys2Proof.Machine
end

