-- ==== Sys2Proof/Laws/Traps.lean ====
section
/-! SUPPORT. What a step that completes keeps, and what taking a trap, blocking and the boundary do: the lemmas that
proofs about bundles cite instead of unfolding those operations. -/

namespace Sys2Proof.Machine

/-! ### The canonical form of memory -/

theorem commit_inv {s : State} (h : s.Inv) (e : Eff) : (commit s e).Inv := Mem.wf_applyAll h e.wr

theorem done_inv {s t : State} {e : Eff} (h : s.Inv) (ht : done s e = .next t) : t.Inv := by
  rw [done_eq_next] at ht
  exact ht ▸ commit_inv h e

theorem stutter_inv {s t : State} (h : s.Inv) (ht : stutter s = .next t) : t.Inv := by
  rw [stutter_eq_next] at ht
  exact ht ▸ h

theorem issueWith_inv {sl : List Slot} {s t : State} (h : s.Inv) (ht : issueWith sl s = .next t) : t.Inv := by
  simp only [issueWith] at ht
  split at ht
  · split at ht <;> exact done_inv h ht
  · cases ht

theorem issueOne_inv {g : Guard} {src : Src} {o : Op} {s t : State} (h : s.Inv) (ht : issueOne g src o s = .next t) : t.Inv :=
  issueWith_inv h ht

theorem issueTyped_inv {b : Bool} {g : Guard} {src : Src} {o : Op} {s t : State} (h : s.Inv)
    (ht : issueTyped b g src o s = .next t) : t.Inv :=
  issueWith_inv h ht

/-- A bundle never stops with a refusal. -/
theorem issueWith_not_refused (sl : List Slot) (s : State) (r : Refusal) : issueWith sl s ≠ .refused r := by
  simp only [issueWith]
  split
  · split <;> simp [done]
  · simp

/-! ### Taking a trap (R347) -/

/-- The context as a trap leaves it: halting, with the cause and the argument recorded. -/
theorem takeTrap_eq (e : Eff) (cid : Cid) (cause : Nat) (arg : Word) :
    e.takeTrap cid cause arg = e.ctx cid (fun c => { c with
      st := .halting, trap := some ⟨cause, arg, none⟩, blocked := false, quiet := false, preempt := false }) := rfl

/-- A trap halts its context and records its cause and argument; nothing else of the context changes but the marks of
waiting. -/
theorem takeTrap_ctx (e : Eff) (cid : Cid) (cause : Nat) (arg : Word) :
    (e.takeTrap cid cause arg).st.ctx cid =
      { e.st.ctx cid with st := .halting, trap := some ⟨cause, arg, none⟩, blocked := false, quiet := false,
                          preempt := false } := by
  simp [takeTrap_eq]

/-- It touches no other context. -/
theorem takeTrap_ctx_ne (e : Eff) {cid d : Cid} (h : d ≠ cid) (cause : Nat) (arg : Word) :
    (e.takeTrap cid cause arg).st.ctx d = e.st.ctx d := by
  simp [takeTrap_eq, h]

/-! ### The trap log (R369) -/

/-- While TLOGB is 0 there is no trap log. -/
theorem logTrap_off (e : Eff) (cid : Cid) (cause : Nat) (arg : Word) (h : e.st.host.tlogb.toNat / 4096 = 0) :
    e.logTrap cid cause arg = e := by
  simp [Eff.logTrap, h]

/-- The trap log touches no context. -/
@[simp] theorem logTrap_cores (e : Eff) (cid : Cid) (cause : Nat) (arg : Word) :
    (e.logTrap cid cause arg).st.cores = e.st.cores := by
  simp only [Eff.logTrap]
  split <;> rfl

@[simp] theorem logTrap_ctx (e : Eff) (cid d : Cid) (cause : Nat) (arg : Word) :
    (e.logTrap cid cause arg).st.ctx d = e.st.ctx d := State.ctx_congr (logTrap_cores ..) d

@[simp] theorem logTrap_launch (e : Eff) (cid : Cid) (cause : Nat) (arg : Word) :
    (e.logTrap cid cause arg).st.launch = e.st.launch := by
  simp only [Eff.logTrap]
  split <;> rfl

@[simp] theorem logTrap_dbg (e : Eff) (cid : Cid) (cause : Nat) (arg : Word) :
    (e.logTrap cid cause arg).st.host.dbg = e.st.host.dbg := by
  simp only [Eff.logTrap]
  split <;> rfl

/-- The report of a launch in which no detected fault is kept needs no further entry. -/
theorem logReported_none (e : Eff) (cid : Cid) (h : e.st.launch.fault = none) : e.logReported cid = e := by
  simp [Eff.logReported, h]

/-! ### What firmware does with a saved trap (R347) -/

/-- Pre-emption is no trap. -/
@[simp] theorem firmware_preempt (e : Eff) (cid : Cid) (arg : Word) : e.firmware cid 0 arg = e := by
  simp [Eff.firmware]

/-- Firmware does nothing at once with an ASSIST. -/
@[simp] theorem firmware_assist (e : Eff) (cid : Cid) (arg : Word) : e.firmware cid causeAssist arg = e := by
  simp [Eff.firmware]

/-- Firmware logs a TRAP_SW and does no more. -/
@[simp] theorem firmware_sw (e : Eff) (cid : Cid) (arg : Word) : e.firmware cid causeSw arg = e.logTrap cid causeSw arg := by
  simp [Eff.firmware, causeSw, causeAssist]

/-- Firmware holds the context of an OWNER_DBG or PEND_DBG for an attached debugger. -/
theorem firmware_held (e : Eff) (cid : Cid) (cause : Nat) (arg : Word) (hc : cause = causeOwner ∨ cause = causePend)
    (hd : (e.logTrap cid cause arg).st.host.dbg = true) :
    e.firmware cid cause arg = (e.logTrap cid cause arg).ctx cid (fun c => { c with dbgHold := true }) := by
  have h0 : cause ≠ 0 := by rcases hc with h | h <;> subst h <;> decide
  have h1 : cause ≠ causeAssist := by rcases hc with h | h <;> subst h <;> decide
  have h2 : cause ≠ causeSw := by rcases hc with h | h <;> subst h <;> decide
  simp only [Eff.firmware, h0, h1, h2, hc, hd, if_false, or_self, and_self, if_true]

/-- Every other trap, where no boundary trap is due beside it and no detected fault is kept for the report, is logged and ends
the launch. -/
theorem firmware_ends (e : Eff) (cid : Cid) (cause : Nat) (arg : Word) (h0 : cause ≠ 0) (ha : cause ≠ causeAssist)
    (hs : cause ≠ causeSw) (hd : ¬((cause = causeOwner ∨ cause = causePend) ∧ (e.logTrap cid cause arg).st.host.dbg = true))
    (hn : (e.st.ctx cid).due = []) (hf : e.st.launch.fault = none) :
    e.firmware cid cause arg =
      (e.logTrap cid cause arg).on (fun s => s.endLaunch (if cause = causeRas then .fault else .trap) cause cid arg) := by
  simp only [Eff.firmware, h0, ha, hs, hd, hn, logTrap_ctx, if_false, or_self, List.foldl_nil]
  rw [logReported_none _ _ (by simpa using hf)]

/-! ### Blocking (R35, R89) -/

/-- A bundle that waits on its operands performs the stores of its context and leaves every register; the context is then
marked as blocked, and as having tried a bundle since its last operation (R300). -/
theorem block_ctx (e : Eff) (cid : Cid) :
    (e.block cid []).st.ctx cid = { e.st.ctx cid with stores := [], blocked := true, lastSeq := (e.st.ctx cid).seq } := by
  simp [Eff.block, Eff.stores]

/-- It writes what those stores hold, in trigger order, and nothing else. -/
theorem block_wr (e : Eff) (cid : Cid) :
    (e.block cid []).wr = e.wr ++ ((e.st.ctx cid).stores.map (fun p => wrPairs p.wr)).flatten := by
  simp [Eff.block, Eff.stores]

/-- It touches no other context. -/
theorem block_ctx_ne (e : Eff) {cid d : Cid} (h : d ≠ cid) : (e.block cid []).st.ctx d = e.st.ctx d := by
  simp [Eff.block, Eff.stores, h]

end Sys2Proof.Machine
end

