-- ==== Sys2Proof/Tests/Slice0.lean ====
section
/-! SUPPORT. The model's own tests: words that the spec's encodings give, a term that each check of WellFormed refuses,
a concrete case that meets the hypotheses of each statement of Certificates/Slice0/Obligations.lean, and steps on small
states whose results the spec's rules give. -/

namespace Sys2Proof.Tests
open Sys2Proof Sys2Proof.Machine

-- One theorem at a time: the kernel's evaluations below would otherwise each hold a thread of their own.
set_option Elab.async false

/-! ### Words written out from the encodings of R24 to R31 and R53 to R66 -/

/-- S: bus 0; GUARD 10 (c1), SRC 9 (s9), DST 0x100 + 11 (DIV, W = 1): 0xA0250B. -/
theorem test_decode_scalar : decode [0x01, 0x02, 0x0B, 0x25, 0xA0] = .ok (.div 0 (.c 1) (.s 9) true, 5) := by decide

/-- V: bus 3; SRC 0x45 (v5), DST 0x100 + 8 * 3 + 1 (VFMA.BF16): 0x011519. -/
theorem test_decode_vector : decode [0x08, 0x02, 0x19, 0x15, 0x01] = .ok (.vfma 1 .always (.v 5) .bf16, 5) := by decide

/-- X: bus 8, so bank 1; GUARD 15 (not c2), SRC 0x40 (v0), DST 0x100 + 8 + 2 (XRSQ.F16): 0xF1010A. -/
theorem test_decode_special : decode [0x01, 0x03, 0x0A, 0x01, 0xF1] = .ok (.xrsq (.nc 2) (.v 0) .f16, 5) := by decide

/-- U: bus 4; SRC 0x5F (v31), DST 0x100 + 3 (UNPK6Z): 0x017D03. -/
theorem test_decode_unpack : decode [0x10, 0x02, 0x03, 0x7D, 0x01] = .ok (.unpk6z .always (.v 31), 5) := by decide

/-- P: bus 5; SRC 0x080 + 8 * 3 (VA1.r), DST 0x100 + 4 * 7 + 3 (PACKE5, nearest with saturation): 0x02611F. -/
theorem test_decode_pack : decode [0x20, 0x02, 0x1F, 0x61, 0x02] = .ok (.packe5 .always (.latR 3) .rnes, 5) := by decide

/-- M: bus 6; GUARD 8 (ps7), SRC 12 (s12), DST 0x100 + 4 * 25 + 2 (AMOCAS, class 2): 0x803166. -/
theorem test_decode_memory : decode [0x40, 0x02, 0x66, 0x31, 0x80] = .ok (.amocas (.ps 7) (.s 12) 2, 5) := by decide

/-- C: bus 7; SRC 0x3FC (the immediate -4), DST 0x100 + 24 (LOOPI): 0x0FF118. -/
theorem test_decode_control : decode [0x80, 0x02, 0x18, 0xF1, 0x0F] = .ok (.loopi .always (.imm (-4)), 5) := by decide

/-- T: bus 9; SRC 1 (s1), DST 0x100 + 3 (MMA, sparse, tile a1): 0x000503. -/
theorem test_decode_matrix : decode [0x02, 0x03, 0x03, 0x05, 0x00] = .ok (.mma .always (.s 1) true true, 5) := by decide

/-- Y: bus 10; SRC 63 (s63), DST 0x100 + 6 (ATOMNR): 0x00FD06. -/
theorem test_decode_copy : decode [0x04, 0x03, 0x06, 0xFD, 0x00] = .ok (.atomnr .always (.s 63), 5) := by decide

/-- G: bus 11; SRC 0x6F (m7), DST 0x100 + 15 (TPOOL): 0x01BD0F. -/
theorem test_decode_index : decode [0x08, 0x03, 0x0F, 0xBD, 0x01] = .ok (.tpool .always (.m 7), 5) := by decide

/-- W: bus 12; SRC 0x074 (PSW), DST 0x100 + 24 + 5 (WSKIP of w5): 0x01D11D. -/
theorem test_decode_stream : decode [0x10, 0x03, 0x1D, 0xD1, 0x01] = .ok (.wskip .always .psw 5, 5) := by decide

/-- B: bus 13; SRC 0x73 (c3), DST 0x100 + 16 * 6 + 2 (RECLU, FIT): 0x01CD62. -/
theorem test_decode_codebook : decode [0x20, 0x03, 0x62, 0xCD, 0x01] = .ok (.reclu .always (.c 3) 2, 5) := by decide

/-- L: bus 14; SRC 0x1F0 (random bits), DST 0x100 + 10 (RKMAPI): 0x07C10A. -/
theorem test_decode_rink : decode [0x40, 0x03, 0x0A, 0xC1, 0x07] = .ok (.rkmapi .always .rnd, 5) := by decide

/-- Three long words, LIC 3: SRC 0x1FA, 0x07E900 for ADD.I64 on bus 0, then L0, L1 and L2 (R30). -/
theorem test_decode_long : decode [0x01, 0x0E, 0x00, 0xE9, 0x07, 0x11, 0x22, 0x33, 0x44, 0x55, 0x66, 0x77, 0x88, 0x00] =
    .ok (.add 0 .always (.l2 0x8877665544332211) false, 14) := by decide

/-- Two packets: SA0 ADD from s1 in bank 0 without STOP, then the move v2 := w3 on bus 9 (SRC 0x63, DST 0x42: 0x018C42). -/
theorem test_decode_two_packets :
    decode [0x01, 0x00, 0x00, 0x05, 0x00, 0x02, 0x03, 0x42, 0x8C, 0x01] =
      .ok (.bundleIssue [⟨0, .always, .s 1, .trig 0⟩, ⟨9, .always, .pop 3, .v 2⟩], 10) := by decide

/-- Reserved codes of R29, R31, R53 and R30, each refused by name. -/
theorem test_decode_refuses :
    decode [0x01, 0x02, 0x00, 0xD5, 0x01] = .error .src ∧ decode [0x01, 0x02, 0x60, 0x04, 0x00] = .error .dst ∧
    decode [0x01, 0x02, 0x3D, 0x05, 0x00] = .error .trigger ∧ decode [0x01, 0x02, 0x00, 0xE1, 0x07] = .error .longWord ∧
    decode [0x03, 0x02, 0x01, 0x04, 0x00, 0x01, 0x08, 0x00] = .error .sameDst ∧
    decode [0x03, 0x02, 0x41, 0x80, 0x01, 0x42, 0x80, 0x01] = .error .limit ∧
    decode [0x80, 0x03, 0x00, 0x05, 0x00] = .error .trigger ∧ decode [0x01, 0x02, 0x00] = .error .short := by decide

/-! ### WellFormed: a term that each check refuses, beside one that passes -/

/-- R55: a type that the row of the operation does not list. -/
theorem test_types_refused :
    [Instr.vand 0 .always (.v 0) .f32, .vabs 0 .always (.v 0) .n32, .vcmpun 0 .always (.v 0) .i32, .vmulh 1 .always (.v 0) .f16,
     .vsar 0 .always (.v 0) .n16, .vcntm 0 .always (.v 0) .f16, .vdot2 0 .always (.v 0) .f32, .vtbl 1 .always (.v 0) .i16].all
      (fun i => !i.wf) = true ∧
    [Instr.vand 0 .always (.v 0) .n32, .vabs 0 .always (.v 0) .i16, .vcmpun 0 .always (.v 0) .f16, .vmulh 1 .always (.v 0) .n16,
     .vsar 0 .always (.v 0) .i32, .vcntm 0 .always (.v 0) .i16, .vdot2 0 .always (.v 0) .i16, .vtbl 1 .always (.v 0) .bf16].all
      Instr.wf = true := by decide

/-- R36: one pop of the random-bit queue in a bundle. -/
theorem test_random_pops_refused : (Instr.packe4 .always .rnd .sr).wf = false ∧ (Instr.packe4 .always .rnd .rne).wf = true := by
  decide

/-- R24: moves in ascending bus order. -/
theorem test_bus_order_refused :
    (Instr.bundleIssue [⟨1, .always, .s 1, .s 2⟩, ⟨0, .always, .s 2, .s 3⟩]).wf = false ∧
    (Instr.bundleIssue [⟨0, .always, .s 2, .s 3⟩, ⟨1, .always, .s 1, .s 2⟩]).wf = true := by decide

/-- R53: a trigger code that the bus does not define. -/
theorem test_code_refused :
    (Instr.bundleIssue [⟨0, .always, .s 1, .trig 61⟩, ⟨1, .always, .s 1, .s 2⟩]).wf = false ∧
    (Instr.bundleIssue [⟨0, .always, .s 1, .trig 60⟩, ⟨1, .always, .s 1, .s 2⟩]).wf = true := by decide

/-- R30: the moves of one packet share its long words. -/
theorem test_long_words_refused :
    (Instr.bundleIssue [⟨0, .always, .l0 1, .s 1⟩, ⟨1, .always, .l1 2, .s 2⟩]).wf = false ∧
    (Instr.bundleIssue [⟨8, .always, .l0 1, .s 1⟩, ⟨9, .always, .l1 2, .s 2⟩]).wf = false ∧
    (Instr.bundleIssue [⟨0, .always, .l0 1, .s 1⟩, ⟨9, .always, .l1 2, .s 2⟩]).wf = true := by decide

/-- R36 and R37: two pops of one stream, and two moves to one destination. -/
theorem test_limits_refused :
    (Instr.bundleIssue [⟨0, .always, .pop 0, .s 1⟩, ⟨1, .always, .pop 0, .s 2⟩]).wf = false ∧
    (Instr.bundleIssue [⟨0, .always, .s 2, .s 1⟩, ⟨1, .always, .s 3, .s 1⟩]).wf = false ∧
    (Instr.bundleIssue [⟨0, .c 1, .s 2, .s 1⟩, ⟨1, .nc 1, .s 3, .s 1⟩]).wf = true := by decide

/-- A trigger alone is its own constructor. -/
theorem test_lone_trigger_refused : (Instr.bundleIssue [⟨0, .always, .s 1, .trig 0⟩]).wf = false := by decide

/-! ### Small states -/

/-- Context `cid` live in a running launch, at program counter 0x1000, changed by `f`; it is the context that issues and
the one that the steps of parts name. -/
def liveAt (cid : Cid) (f : Ctx → Ctx) : State :=
  State.modCtx { State.reset with cur := cid, act := { cid := cid }, ir := 5, launch := { State.reset.launch with st := .running } }
    cid (fun c => f { c with st := .live, pc := 0x1000 })

/-- Context 0 of core 0. -/
def live (f : Ctx → Ctx) : State := liveAt ⟨0, 0⟩ f

/-- Context 0 of the CSC of cluster 0. -/
def csc (f : Ctx → Ctx) : State := liveAt ⟨4096, 0⟩ f

/-- The operand latches of a unit. -/
def lat (u : Fin 15) (o1 o2 o3 : Word) (c : Ctx) : Ctx := c.modLatch u (fun l => { l with o1 := .sc o1, o2 := .sc o2, o3 := o3 })

/-- `Ready` as a test. -/
def readyB (s : State) (g : Guard) (src : Src) : Bool :=
  (s.ctx s.cur).st == .live && !(s.ctx s.cur).ended && s.issuer.due == [] && !s.issuer.preempt &&
  !s.issuer.guardPending g && s.issuer.guard g && !s.issuer.sourceWaits src &&
  !(src == .latR 13 && s.boundaryState.recluOut s.cur) && s.issuer.popMiss src == none && s.issuer.pend.length < 16

theorem ready_of {s : State} {g : Guard} {src : Src} (h : readyB s g src = true) : Ready s g src := by
  simp only [readyB, Bool.and_eq_true, beq_iff_eq, Bool.not_eq_true', decide_eq_true_eq] at h
  obtain ⟨⟨⟨⟨⟨⟨⟨⟨⟨h1, h2⟩, h3⟩, h4⟩, h5⟩, h6⟩, h7⟩, h8⟩, h9⟩, h10⟩ := h
  exact ⟨h1, h2, ⟨h3, h4⟩, h5, h6, h7, h8, h9, h10⟩

/-! ### A case that meets the hypotheses of each statement: encoding, fetch, moves -/

/-- BundleRoundTrip: a trigger alone, and bundles of no move, of two packets, and with a long immediate. -/
theorem test_witness_round_trip :
    [Instr.div 1 (.nc 0) (.l2 0xFFFFFFFFFFFFFFFF) true, .bundleIssue [],
      .bundleIssue [⟨0, .always, .s 1, .trig 0⟩, ⟨9, .ps 3, .l1 0x800000000000, .v 2⟩]].all
      (fun i => i.wf && (movesOfInstr i).isSome && decode (encode i ++ [0xFF]) == .ok (i, (encode i).length)) = true := by
  decide +kernel

/-- ReservedHeadersRefused: the least reserved header; masks of 0; bank 1 without STOP; two packets of bank 0. -/
theorem test_witness_reserved_headers :
    16 ≤ (0x10 : Byte).toNat ∧ ((0x03 : Byte).toNat < 16 ∧ (0x03 : Byte) ≠ 2) ∧
    packetOf [0x01, 0x01, 0x00, 0x05, 0x00] = .ok (1, false, [⟨8, .always, .s 1, .trig 0⟩], []) ∧
    packetOf [0x01, 0x00, 0x00, 0x05, 0x00, 0x00, 0x02] = .ok (0, false, [⟨0, .always, .s 1, .trig 0⟩], [0x00, 0x02]) ∧
    packetOf [0x00, 0x02] = .ok (0, true, [], []) ∧
    packetOf [0x01, 0x00, 0x00, 0x05, 0x00, 0x01, 0x01, 0x00, 0x05, 0x00] =
      .ok (0, false, [⟨0, .always, .s 1, .trig 0⟩], [0x01, 0x01, 0x00, 0x05, 0x00]) ∧
    bundleOf [0x80, 0x03, 0x02, 0x04, 0x00] = .ok ([⟨15, .always, .s 1, .s 2⟩], 5) ∧
    bundleOf [0x00, 0x00] = .error .mask := ⟨by decide, by decide, rfl, rfl, rfl, rfl, rfl, rfl⟩

/-- StepRunsDecoded: SA0.ADD.I64 s1 placed where core 0 fetches; and a step of a part. -/
theorem test_witness_step :
    let s := placeBytes (live id) [0x01, 0x02, 0x00, 0x05, 0x00]
    s.sched = [.issue 0] ∧ (s.core 0).gated = false ∧ (s.ctx ⟨0, 0⟩).st = .live ∧ (s.ctx ⟨0, 0⟩).ended = false ∧
    mustSwitch { s with sched := [], tick := s.tick + 1 } 0 = false ∧ canonical (s.ctx ⟨0, 0⟩).nextPc = true ∧
    bundleAt (s.core 0).icache (s.ctx ⟨0, 0⟩).nextPc = .inl [0x01, 0x02, 0x00, 0x05, 0x00] ∧
    rangeHeld s (s.ctx ⟨0, 0⟩) (s.ctx ⟨0, 0⟩).nextPc 5 = false ∧
    decode [0x01, 0x02, 0x00, 0x05, 0x00] = .ok (.add 0 .always (.s 1) false, 5) ∧
    movesOfInstr .powerCapTick = none := by decide +kernel

/-- IllegalBytesTrap: a reserved header at a canonical program counter; a program counter that is not canonical, where nothing
is cached; one whose page the host has reported as not present. -/
theorem test_witness_illegal :
    let s := placeBytes (live id) [0x00, 0x10]
    let t : State := { live (fun c => { c with pc := 0x8000000000001000 }) with sched := [.issue 0] }
    let p : State := { live (fun c => { c with pc := 0x10FFE }) with sched := [.issue 0], pages := [(0, absentPage 0x10FFE)] }
    [s, t, p].all (fun s => s.sched == [.issue 0] && !(s.core 0).gated && (s.ctx ⟨0, 0⟩).st == .live && !(s.ctx ⟨0, 0⟩).ended &&
      !mustSwitch { s with sched := [], tick := s.tick + 1 } 0 && ((boundaryEff { s with sched := [], tick := s.tick + 1 }).st.ctx ⟨0, 0⟩).due == [] &&
      !((boundaryEff { s with sched := [], tick := s.tick + 1 }).st.ctx ⟨0, 0⟩).preempt && s.cur == ⟨0, 0⟩) = true ∧
    canonical (s.ctx ⟨0, 0⟩).nextPc = true ∧ bundleAt (s.core 0).icache (s.ctx ⟨0, 0⟩).nextPc = .inl [0x00, 0x10] ∧
    decode [0x00, 0x10] = .error .header ∧ canonical (t.ctx ⟨0, 0⟩).nextPc = false ∧
    rangeHeld s (s.ctx ⟨0, 0⟩) (s.ctx ⟨0, 0⟩).nextPc 2 = false ∧
    canonical (p.ctx ⟨0, 0⟩).nextPc = true ∧ bundleAt (p.core 0).icache (p.ctx ⟨0, 0⟩).nextPc = .inr 0x10FFE ∧
    rangeHeld p (p.ctx ⟨0, 0⟩) (p.ctx ⟨0, 0⟩).nextPc 1 = false ∧ canonical 0x10FFE = true ∧
    translateX p 0 (p.ctx ⟨0, 0⟩).pasid (sectorOf 0x10FFE) = .absent := by decide +kernel

/-- Whether a step answers a next state. -/
def goesOn (o : Host.Outcome State Fault Refusal) : Bool := match o with | .next _ => true | _ => false

/-- StepKeepsMemory: memory in canonical form, and a step that answers a next state. -/
theorem test_witness_step_keeps_memory :
    let s := placeBytes (live id) [0x01, 0x02, 0x00, 0x05, 0x00]
    s.mem.wf = true ∧ goesOn (step s) = true := by decide +kernel

/-- MemoryReadsBack: memory in canonical form that lists bytes before, inside and after the eight written. -/
theorem test_witness_memory :
    let m : Mem := ⟨[(3, 1), (5, 7), (12, 2)]⟩
    m.wf = true ∧ 0xFF00000000000102 < 256 ^ 8 ∧ (m.applyAll (wrNat 4 8 0xFF00000000000102)).nat 4 8 = 0xFF00000000000102 ∧
    (m.applyAll (wrNat 4 8 0xFF00000000000102)).cells = [(3, 1), (4, 2), (5, 1), (11, 0xFF), (12, 2)] := by decide

/-- AddressClasses: the last and the first address beyond each class. -/
theorem test_witness_addresses :
    classify 0x8000000000027FFF = .own 0x27FFF ∧ classify 0x8000000000028000 = .bad ∧
    classify 0x8100000003FE7FFF = .peer 255 0x27FFF ∧ classify 0x8100000004000000 = .bad ∧
    classify 0x8200000000FFFFFF = .slice 255 0xFFFF ∧ classify 0x8200000001000000 = .bad ∧
    classify 0x8300000003FFFFFF = .chip 0x3FFFFFF ∧ classify 0x8300000004000000 = .bad ∧
    classify 0x00FFFFFFFFFFFFFF = .glob 0x00FFFFFFFFFFFFFF ∧ classify 0x0100000000000000 = .bad ∧
    classify 0xFF00000000000000 = .glob 0xFF00000000000000 ∧ classify 0xFEFFFFFFFFFFFFFF = .bad ∧
    localKey 5 (classify 0x8100000000140010) = some (coreKey 5 0x10) ∧ coreIx 5 = 5 := by decide

/-- The hypotheses that MovesReadThenWrite sets for both of its cases. -/
def bundleReady (ms : List Move) (s : State) : Bool :=
  let c := s.issuer
  let sl := ms.map slotOf
  let act := sl.filter (fun x => c.guard x.mv.guard)
  limitsOk ms && dstsOk ms && sl.all (fun x => (match x.mv.dst with | .trig _ => false | _ => true) || x.op.isSome) &&
  (s.ctx s.cur).st == .live && !(s.ctx s.cur).ended && c.due == [] && !c.preempt && ms.all (fun m => !c.guardPending m.guard) &&
  act.all (fun x => !moveWaits s.boundaryState s.cur x.mv && (c.popMiss x.mv.src).isNone) && c.xfer.isNone && c.pend.isEmpty

/-- The operations of a bundle whose guards are true, with what they read. -/
def bundleOps (ms : List Move) (s : State) : List (Op × In) :=
  let c := s.issuer
  (ms.map slotOf).filterMap (fun x => if c.guard x.mv.guard then x.op.map (fun o => (o,
    { cid := s.cur, s := s.boundaryState, b := c.source x.mv.src, o1 := (c.latch o.bus).o1, o2 := (c.latch o.bus).o2,
      o3 := (c.latch o.bus).o3, rnd := c.rndWord })) else none)

/-- MovesReadThenWrite: two registers change places beside two ADDs and an STX, and a move whose guard is false; an ADD beside
a load that is misaligned and a BR. -/
theorem test_witness_moves :
    let ms : List Move := [⟨0, .always, .s 1, .trig 0⟩, ⟨1, .always, .s 2, .trig 0⟩, ⟨2, .always, .s 1, .s 2⟩,
      ⟨3, .always, .s 2, .s 1⟩, ⟨6, .always, .l2 0x8300000000000008, .trig 76⟩, ⟨9, .c 0, .v 1, .v 2⟩]
    let ns : List Move := [⟨0, .always, .s 1, .trig 0⟩, ⟨6, .always, .l2 0x8000000000000001, .trig 8⟩, ⟨7, .always, .s 1, .trig 0⟩]
    let s := live (fun c => { c with s := (c.s.set 1 11).set 2 22 })
    bundleReady ms s = true ∧ bundleReady ns s = true ∧
    (bundleOps ms s).map (fun p => p.1.bus.val) = [0, 1, 6] ∧ (bundleOps ns s).map (fun p => p.1.bus.val) = [0, 6, 7] ∧
    (bundleOps ms s).all (fun p => !p.1.rnd && !p.1.xf p.2 && !p.1.priv && !p.1.pv p.2 && (p.1.chk p.2).isNone && !p.1.blk p.2 &&
      (p.1.asst p.2).isNone && (p.1.sw p.2).isNone && (p.1.left p.2).isEmpty) = true ∧ s.boundaryState.fenced s.cur = false ∧
    (bundleOps ns s).map (fun p => (p.1.chk p.2).map (·.1)) = [none, some 3, none] := by decide +kernel

/-- The same bundle: R33 gives s1 the old s2 and s2 the old s1. -/
theorem test_moves_swap :
    let s := live (fun c => { c with s := (c.s.set 1 11).set 2 22 })
    (match exec (.bundleIssue [⟨0, .always, .s 1, .s 2⟩, ⟨1, .always, .s 2, .s 1⟩]) s with
     | .next t => ((t.ctx ⟨0, 0⟩).readS 1, (t.ctx ⟨0, 0⟩).readS 2, (t.ctx ⟨0, 0⟩).pc)
     | _ => (0, 0, 0)) = (22, 11, 0x1005) := by decide +kernel

/-- FalseGuardDoesNothing: a guard that is false, and one that names a pending predicate. -/
theorem test_witness_false_guard :
    let i : Instr := .add 0 (.c 0) (.s 3) true
    let s := live id
    let t := live (fun c => { c with pendC := 1 })
    trigOf i = some (0, 1, .c 0, .s 3) ∧ i.wf = true ∧
    [s, t].all (fun s => (s.ctx s.cur).st == .live && !(s.ctx s.cur).ended && s.issuer.due == [] && !s.issuer.preempt &&
      s.issuer.pend.length ≤ 16) = true ∧
    s.issuer.guardPending (.c 0) = false ∧ s.issuer.guard (.c 0) = false ∧ t.issuer.guardPending (.c 0) = true := by
  decide +kernel

/-- A RECLU in the core's queue. -/
def recluOp : KbOp := { ctx := 0, seq := 0, t := 96, b := 0, o1 := 0, o2 := 0, kpol := 0, win := none }

/-- A stream that owes its next vector. -/
def owing : Strm :=
  let r : Reader := { pos := 0, lit := 0, zero := 0, acc := 0, accN := 0 }
  { seq := 0, desc := 0x8300000000000000, win := none, vj := 0, cj := false, kpol := 0, words := [], capt := false, ka := KReg.empty,
    kb := KReg.empty, kd := KReg.empty, xr := 0, tmap := [], dense := false, st := .active, reason := 0, koor := false, ovr := 0,
    popped := 0, made := 0, parsed := 0, skip := 0, rdA := r, rdB := r, elq := [], vecs := [], marks := [], start := { a := r, b := r, elq := [] }, buf := [], miss := none }

/-- PendingOperandsWait: a pending s register, v register and predicate, an empty stream, KB.r, and ERET in a CSC. -/
theorem test_witness_pending :
    let calm (s : State) (g : Guard) : Bool := (s.ctx s.cur).st == .live && !(s.ctx s.cur).ended && s.issuer.due == [] &&
      !s.issuer.preempt && !s.issuer.guardPending g && s.issuer.guard g && s.issuer.xfer == none
    let s := live (fun c => { c with pendS := 8, pendV := 8, pendC := 8, w := c.w.set 2 (some owing) })
    let t := State.modCore (live id) 0 (fun k => { k with kbq := [recluOp] })
    let u := csc (fun c => { c with pendS := 8 })
    trigOf (.vadd 0 .always (.v 3) .f32) = some (2, 0, .always, .v 3) ∧ (Instr.vadd 0 .always (.v 3) .f32).wf = true ∧
    calm s .always = true ∧ calm t .always = true ∧ calm u .always = true ∧ isCsc u.cur = true ∧
    [Src.s 3, .v 3, .c 3, .pop 2].all s.issuer.sourceWaits = true ∧ t.boundaryState.recluOut t.cur = true ∧
    trigOf (.eret .always (.s 3)) = some (7, 76, .always, .s 3) ∧ u.issuer.sourceWaits (.s 3) = true := by decide +kernel
/-! ### The same for the operations of the units -/

/-- What the operation of a unit reads in a bundle whose source is the long immediate `x`. -/
def given (s : State) (u : Fin 15) (x : Word) : In := s.reads u (.l2 x)

/-- ScalarOperations, ScalarDivision, VectorOperations, SpecialUnpackPack, StreamTriggers, RegisterFrame: a ready bundle,
from a register and from a long immediate; with a word in the random-bit queue while FPC.SRE is 1. -/
theorem test_witness_ready :
    Ready (live id) .always (.s 3) ∧ Ready (live id) (.nc 2) (.l2 0x8000000000000140) ∧
    (live (fun c => { c with rbq := [7] })).issuer.sourceWaits .rnd = false ∧
    Ready (live (fun c => { c with rbq := [7] })) .always (.s 3) :=
  ⟨ready_of (by decide +kernel), ready_of (by decide +kernel), by decide +kernel, ready_of (by decide +kernel)⟩

/-- VectorOperations: no lane of zeros needs the assist, and no counted operation writes k0. -/
theorem test_witness_vector :
    let s := live id
    let v := (s.reads (vaUnit 0) (.s 3)).v
    [VTy.f32, .bf16, .f16, .i32, .i16, .n32, .n16].all (fun ty => !(fnVadd ty v).sub && !(fnVmul ty v).sub) = true ∧
    (fnVtbl .f32 v).sub = false ∧ (fnVdot2 .bf16 v).sub = false ∧ (vSpecial .sqrt .f32 (s.reads 8 (.s 3)).v).sub = false ∧
    (packE .e4m3 .sr (s.reads 5 (.s 3)).v).sub = false ∧ s.boundaryState.kbWrites s.cur false 0 = false := by decide +kernel

/-- IntegerPacks: the widths, with the last selector of each. -/
theorem test_witness_packs : [(2, 448), (4, 192), (6, 192), (8, 64)].all (fun p => [2, 4, 6, 8].contains p.1 && p.2 ≤ 448) = true := by
  decide

/-- The least normal F32 number times one half is subnormal; FPC.FZW is 0. -/
def tiny : State := live (fun c => lat (vaUnit 0) 0x00800000 0 0 { c with fpc := 0 })

/-- AssistTaken: VMUL.F32 of the least normal number and one half. -/
theorem test_witness_assist :
    trigOf (.vmul 0 .always (.imm 63) .f32) = some (2, 16, .always, .imm 63) ∧
    trigOf (.vmul 0 .always (.l0 0x3F0000) .f32) = some (2, 16, .always, .l0 0x3F0000) ∧
    (Instr.vmul 0 .always (.l2 0x3F000000) .f32).wf = true ∧ readyB tiny .always (.l2 0x3F000000) = true ∧
    ((opOf (.vmul 0 .always (.l2 0x3F000000) .f32)).any (fun o =>
      (o.asst (tiny.reads o.bus (.l2 0x3F000000))).isSome && !o.rnd && !o.blk (tiny.reads o.bus (.l2 0x3F000000)))) = true := by
  decide +kernel

/-- FixedLoads and FixedStores: the last aligned vector of the own scratchpad and of the own slice. -/
theorem test_witness_fixed :
    let s := live (lat 6 1 2 0xFFFFFFFF)
    readyB s .always (.l2 0x8000000000027F80) = true ∧ s.boundaryState.fenced s.cur = false ∧ s.issuer.dbg = 0 ∧
    s.issuer.dbgOwn = false ∧
    fixedKey s.boundaryState s.cur.core (given s 6 0x8000000000027F80).b.word = some (coreKey 0 0x27F80) ∧
    fixedKey s.boundaryState s.cur.core (given s 6 0x820000000000FF80).b.word = some (sliceKey 0 0xFF80) ∧
    (given s 6 0x8000000000027F80).b.word.toNat % 128 = 0 ∧
    (∀ x, x < 128 → s.boundaryState.engineOwns (granuleOf (coreKey 0 0x27F80 + x)) = false) ∧
    (∀ x, x < 128 → x % 4 = 0 → behindAccess s.boundaryState s.cur s.issuer.seq 0 (coreKey 0 0x27F80 + x) 4 = false) := by
  decide +kernel

/-- MisalignedTraps: one byte off, and the first address beyond the scratchpad; a lane offset of 1024; a base of .o2 that is
one byte off, and one in reach with a lane beyond the scratchpad; a global address in no window. -/
theorem test_witness_misaligned :
    let s := live (lat 6 0 0x8000000000000001 0xFFFFFFFF)
    let t := live (lat 6 0 0x8000000000027C00 1)
    [0x8000000000000141, 0x8000000000028000, 1024, 0x10000].all (fun x => readyB s .always (.l2 x)) = true ∧
    (given s 6 0x8000000000000141).b.word.toNat % 2 ≠ 0 ∧
    fixedKey s.boundaryState s.cur.core (given s 6 0x8000000000028000).b.word = none ∧
    laneOf 32 ((given s 6 1024).b.lanes 32).toNat 0 = 1024 ∧ (given s 6 1024).o2.word.toNat % 4 ≠ 0 ∧
    readyB t .always (.l2 1024) = true ∧ (given t 6 1024).baseLoc.isSome = true ∧ (given t 6 1024).o3.getLsbD 0 = true ∧
    (given t 6 1024).lanePlace (laneOf 32 ((given t 6 1024).b.lanes 32).toNat 0) = none ∧ classify 0x8000000000028000 = .bad ∧
    canonical 0x10000 = true ∧ (s.boundaryState.core s.cur.core).coverOf 0x10000 = none := by decide +kernel

/-- MisalignedTraps: DBG.OWN and DBG.PEND with a granule that an engine owns and a store that is pending, for an access, for a
lane slice and for a gather's lanes. -/
theorem test_witness_debug :
    let st (k : Nat) : PStore := { seq := 0, a := 0, wr := pairsAt k (leBytes 4 7), rem := 3 }
    let s : State := { live (fun c => lat 6 0 0x8000000000000000 1 { c with dbg := 2 }) with own := [(granuleOf (coreKey 0 0), 1)] }
    let t := live (fun c => lat 6 0 0x8000000000000000 1 { c with dbg := 1, stores := [st (coreKey 0 0x44), st (laneKey 0 0 0x44)] })
    [s, t].all (fun s => readyB s .always (.l2 0x8000000000000000) && readyB s .always (.l2 0x44)) = true ∧
    s.issuer.dbgOwn = true ∧ t.issuer.dbgPend = true ∧ t.issuer.dbgOwn = false ∧
    fixedKey s.boundaryState 0 0x8000000000000000 = some (coreKey 0 0) ∧
    s.boundaryState.engineOwns (coreKey 0 0 / 1024) = true ∧ t.issuer.wordPending (coreKey 0 0x44) = true ∧
    t.issuer.wordPending (laneKey 0 0 0x44) = true ∧ (given s 6 0x44).baseLoc.isSome = true ∧ (given t 6 0x44).baseLoc.isSome = true ∧
    (given t 6 0x44).lanePlace 0x44 = some (coreKey 0 0x44) ∧
    (∀ k, k < 32 → laneOf 32 ((given t 6 0x44).b.lanes 32).toNat k = 0x44) := by decide +kernel

/-- LanesGathersScatters: every lane at offset 1020 of its slice; a base in the own scratchpad, with every lane in it. -/
theorem test_witness_lanes :
    let s := live (lat 6 0x8000000000000100 0x8000000000000100 0xFFFFFFFF)
    let i := given s 6 1020
    readyB s .always (.l2 1020) = true ∧ s.issuer.dbg = 0 ∧ s.boundaryState.fenced s.cur = false ∧
    (∀ k, k < 32 → laneOf 32 (i.b.lanes 32).toNat k % 4 = 0 ∧ laneOf 32 (i.b.lanes 32).toNat k < 1024) ∧
    i.baseLoc.isSome = true ∧
    (∀ k, k < 32 → ((i.lanePlace (laneOf 32 (i.b.lanes 32).toNat k)).any (fun x =>
      !s.boundaryState.engineOwns (granuleOf x) && !behindAccess s.boundaryState s.cur s.issuer.seq 0 x 4)) = true) := by
  decide +kernel

/-- A window of slot 3 on the addresses from 0x10000 up to but not 0x12000. -/
def win3 : Win := { g0 := 0x10000, glog := 13, slog := 12, boff := 0x4000, shared := false, dying := false, lines := [], parts := [] }

/-- Context 0 of core 0 with that window. -/
def windowed (f : Ctx → Ctx) : State := (live f).modCore 0 (fun k => { k with wins := k.wins.set 3 (some win3) })

/-- ScoreboardedTriggers: a local address, an address in a window, and room in the counters. -/
theorem test_witness_scoreboarded :
    let s := windowed (fun c => lat 6 5 3 6 { c with ld := 31, stc := 31 })
    readyB s .always (.l2 0x8300000003FFFF80) = true ∧ readyB s .always (.l2 0x11F80) = true ∧
    classify 0x8300000003FFFF80 = .chip 0x3FFFF80 ∧ classify 0x11F80 = .glob 0x11F80 ∧
    ((s.boundaryState.core s.cur.core).coverOf 0x11F80).isSome = true ∧ 0x3FFFF80 % 128 = 0 ∧ 0x11F80 % 128 = 0 ∧
    s.issuer.ld < 32 ∧ s.issuer.stc < 32 ∧ s.issuer.pendS = 0 ∧ s.issuer.pendV = 0 ∧ s.boundaryState.fenced s.cur = false := by
  decide +kernel

/-- WindowAndOwnerTriggers: a MAP that is allowed beside another window, and one whose backing lies outside; an OWNSET of the
last granules of the own scratchpad, a grant that would pass 255; UNMAP of an active, a dying and a free slot. -/
theorem test_witness_windows :
    let s := windowed (lat 6 (5 + 8 + 2 ^ 8 * 12 + 2 ^ 12 * 13 + 2 ^ 20 * 0x5000) 0 0)
    let t := windowed (lat 6 (5 + 2 ^ 8 * 12 + 2 ^ 12 * 13 + 2 ^ 20 * 0x27800) 0 0)
    let u : State := { live (lat 6 (1 + 256 * 254 + 2 ^ 16) 0 0) with own := [(granuleOf (coreKey 0 0x27C00), 1)] }
    let v : State := { live (lat 6 (1 + 256 * 255 + 2 ^ 16) 0 0) with own := [(granuleOf (coreKey 0 0x27C00), 1)] }
    let w := State.modCore (windowed id) 0 (fun k => { k with wins := k.wins.set 4 (some { win3 with dying := true }) })
    [s, t].all (fun s => readyB s .always (.l2 0x20000)) = true ∧ [u, v].all (fun s => readyB s .always (.l2 0x8000000000027C00)) = true ∧
    mapped s.boundaryState 0 = [(3, win3)] ∧ canonical 0x20000 = true ∧ win3.g0.toNat + 2 ^ win3.glog ≤ 0x20000 ∧
    win3.boff + 2 ^ win3.slog ≤ 0x5000 ∧ 0x5000 + 2 ^ 12 ≤ 0x27F00 ∧ 0x27F00 < 0x27800 + 2 ^ 12 ∧ 2 ^ win3.slog + 2 ^ 12 ≤ 0x10000 ∧
    classify 0x8000000000027C00 = .own 0x27C00 ∧ 0x27C00 + 1024 * 1 ≤ 0x28000 ∧
    ownGet u.boundaryState.ownAhead (granuleOf (coreKey 0 0x27C00)) + 254 = 255 ∧
    ownGet v.boundaryState.ownAhead (granuleOf (coreKey 0 0x27C00)) + 255 = 256 ∧
    u.boundaryState.granuleBusy (granuleOf (coreKey 0 0x27C00)) = false ∧
    w.issuer.stc < 32 ∧ readyB w .always (.imm 3) = true ∧
    ((w.boundaryState.core 0).wins.get 3).any (fun x => !x.dying) = true ∧
    ((w.boundaryState.core 0).wins.get 4).any (fun x => x.dying) = true ∧ (w.boundaryState.core 0).wins.get 5 = none := by
  decide +kernel

/-- AtomicMemoryOperations: an AMOADD and an AMOFADD in the scoreboard, both in chip scratchpad. -/
def amoAt (k : SbKind) : State :=
  live (fun c => { c with sb := [{ seq := 0, kind := k, a := 0, addr := 0x8300000000000008, win := none }], seq := 1, lastSeq := 1, ld := 1 })

theorem test_witness_amo :
    [SbKind.amoAdd 3 9, .amoMin 3 9, .amoMax 3 9, .amoSwap 3 0, .amoCas 3 0 63, .amoFadd 0x3F800000 9].all (fun k =>
      let s := amoAt k
      s.mem.wf && ((s.ctx s.act.cid).sbAt s.act.num).any (fun o => o.kind.isAmo && !(s.ctx s.act.cid).young o.seq && sbTurn s s.act.cid o &&
        sbTarget s s.act.cid o == .at (chipKey 8))) = true := by decide +kernel

/-- ScoreboardedAccesses: a load, a vector load, a store and a masked vector store; a store through a window whose page
permits writing, and one whose page does not. -/
theorem test_witness_accesses :
    [SbKind.ldx 3 true 9, .vldx 31, .stx 0 0x1FF, .vstx (BitVec.ofNat 1024 7) 0x80000001].all (fun k =>
      let s := live (fun c => { c with seq := 1, lastSeq := 1,
                                       sb := [{ seq := 0, kind := k, a := 0, addr := 0x8300000000000080, win := none }] })
      s.mem.wf && ((s.ctx s.act.cid).sbAt s.act.num).any (fun o => sbTurn s s.act.cid o && !(s.ctx s.act.cid).young o.seq &&
        sbTarget s s.act.cid o == .at (chipKey 0x80) && windowFate s s.act.cid o.win o.addr == .ok 0)) = true ∧
    [true, false].all (fun wr =>
      let line : Line := { slot := 0, tag := 0, scope := .sys, dirty := 0 }
      let s := (live (fun c => { c with sb := [{ seq := 0, kind := .stx 3 5, a := 0, addr := 0x10008, win := some 3 }], seq := 1 })).modCore 0
        (fun k => { k with wins := k.wins.set 3 (some { win3 with lines := [line] }) })
      let s : State := { s with pages := [(0, { va := 0x10000, lg := 12, pa := 0x5000, rd := true, wr := wr, ex := none })] }
      ((s.ctx s.act.cid).sbAt s.act.num).any (fun o => sbTurn s s.act.cid o &&
        sbTarget s s.act.cid o == .at (coreKey 0 0x4008) &&
          windowFate s s.act.cid o.win o.addr == (if wr then .ok 0x5000 else .absent))) = true := by
  decide +kernel


/-- ScoreboardedAccesses: a store and a masked vector store whose page the host has been asked about and has not answered. -/
theorem test_witness_access_waits :
    [SbKind.stx 3 5, .vstx (BitVec.ofNat 1024 7) 1].all (fun k =>
      let line : Line := { slot := 0, tag := 0, scope := .sys, dirty := 0 }
      let s := (live (fun c => { c with sb := [{ seq := 0, kind := k, a := 0, addr := 0x10000, win := some 3 }], seq := 1 })).modCore 0
        (fun k => { k with wins := k.wins.set 3 (some { win3 with lines := [line] }) })
      s.mem.wf && ((s.ctx s.act.cid).sbAt s.act.num).any (fun o => sbTurn s s.act.cid o &&
        sbTarget s s.act.cid o == .at (coreKey 0 0x4000) && windowFate s s.act.cid o.win o.addr == .wait)) = true := by
  decide +kernel
/-! ### Control -/

/-- Bytes in core 0's instruction cache from 0x1000 on. -/
def cached (bs : List Byte) (f : Ctx → Ctx) : State := (live f).modCore 0 (fun k => { k with icache := overlay [] 0x1000 bs })

/-- ControlTransfers: no transfer is pending, the two bundles after the CALL's own are cached (two empty ones), LC is not
zero; or it is zero and EC.CNT is 255, 1 or 0. -/
theorem test_witness_transfers :
    let s := cached [0, 0, 0, 0, 0, 0, 2, 0, 2] (fun c => { c with lc := 1 })
    readyB s .always (.l2 0x2000) = true ∧ s.issuer.xfer = none ∧ s.issuer.pendC.getLsbD 3 = false ∧ s.issuer.lc ≠ 0 ∧
    lenAt (s.boundaryState.core s.cur.core).icache (s.issuer.pc + BitVec.ofNat 64 s.ir) = some 2 ∧
    lenAt (s.boundaryState.core s.cur.core).icache (s.issuer.pc + BitVec.ofNat 64 s.ir + BitVec.ofNat 64 2) = some 2 ∧
    [255, 1, 0].all (fun n => readyB (live (fun c => { c with ecCnt := n })) .always (.s 3) &&
      (live (fun c => { c with ecCnt := n })).issuer.ecCnt == n && (live (fun c => { c with ecCnt := n })).issuer.lc == 0) = true := by
  decide +kernel

/-- A pending transfer with one bundle left. -/
def leaving (c : Ctx) : Ctx := { c with xfer := some { kind := .transfer, target := 0x5000, left := 1 }, lc := 1 }

/-- SecondTransferIllegal: a transfer is pending; a predicate that is 1 and one that is 0. -/
theorem test_witness_second_transfer :
    let s := live (fun c => leaving { c with c := c.c.set 0 true })
    readyB s .always (.l2 0x2000) = true ∧ s.issuer.xfer.isSome = true ∧ s.issuer.pendC = 0 ∧ s.issuer.c.get 0 = true ∧
    s.issuer.c.get 3 = false ∧ s.issuer.lc ≠ 0 := by decide +kernel

/-- ControlRegisters: the numbers at the ends of each clause. -/
theorem test_witness_csrs :
    let s := live id
    let t := csc id
    [0, 7, 8, 9, 12, 13, 14, 15, 16].all (fun n => readyB s .always (.l2 n) && readyB t .always (.l2 n) &&
      (given s 7 n).b.word == n && (given t 7 n).b.word == n) = true ∧ isCsc s.cur = false ∧ isCsc t.cur = true := by decide +kernel

/-- WaitIssues: every counter at its field, no counter and no entry, and one counter above its field. -/
theorem test_witness_wait :
    let s := live (fun c => { c with ld := 15, stc := 15, cp := 15, tl := 15 })
    let t := live (fun c => { c with tl := 1 })
    [s, t, live id].all (fun s => readyB s .always (.l2 0xFFFFFFFFFFFF0FFF) && readyB s .always (.l2 0xFFFFFFFFFFFFFFFF) &&
      readyB s .always (.imm 0)) = true ∧
    (s.issuer.ld ≤ 0xFFFF % 16 ∧ s.issuer.stc ≤ 0xFFFF / 16 % 16 ∧ s.issuer.cp ≤ 0xFFFF / 256 % 16 ∧ s.issuer.tl ≤ 0xFFFF / 4096 % 16) ∧
    (live id).issuer.post = [] ∧ ¬ t.issuer.tl ≤ 0x0FFF / 4096 % 16 := by decide +kernel

/-- QuiescentBundles: no counter, no entry, JOINP zero, shared and neither; no invalidation is left, or only later ones; a
counter that is not zero. -/
theorem test_witness_quiescent :
    let s := live id
    let t := live (fun c => { c with joinp := 0x8300000000000040, qpt := some 3 })
    let t : State := { t with invals := [{ num := 3, pasid := 0, lo := 0, hi := 4096, fired := false }], invNext := 4,
                              pages := [(0, { va := 0x10000, lg := 12, pa := 0x5000, rd := true, wr := true, ex := none })] }
    let t := t.modCtx t.cur (lat 7 1 0 0)
    let u := live (fun c => { c with cp := 1 })
    let v := live (fun c => { c with joinp := 0x8300000000000041 })
    [s, t, u, v].all (fun s => readyB s .always (.l2 0x10000) && s.issuer.xfer.isNone && s.issuer.post.isEmpty) = true ∧
    s.issuer.joinp = 0 ∧ sharedAddr t.issuer.joinp = true ∧ v.issuer.joinp ≠ 0 ∧ sharedAddr v.issuer.joinp = false ∧
    s.boundaryState.invals = [] ∧ (∀ q ∈ t.boundaryState.invals, t.issuer.qpt.getD t.boundaryState.invNext ≤ q.num) ∧
    probeBad (given t 7 0x10000) = false ∧ (given t 7 0x10000).probeNext = none ∧ u.issuer.cp ≠ 0 := by decide +kernel

/-- QuiescentBundles: the ends of a local window, a page in a peer that no port reaches, a page that is not present, unasked,
refused, granted, and tried four times. -/
theorem test_witness_probe :
    let p (f : Option Probe) (g : Page) (code : Option PriCode) : State :=
      { live (fun c => { c with probe := f }) with
        pages := [(0, g)], pri := [{ uid := 5, pasid := 0, page := 0x10000, write := true, code := code }] }
    let far : Page := { va := 0x10000, lg := 12, pa := 0xC0 * 2 ^ 56 + 2 ^ 48, rd := true, wr := true, ex := none }
    let no := absentPage 0x10000
    let asked : Option Probe := some { page := 0x10000, tries := 1, asked := some 5 }
    classify 0x8000000000027FFF = .own 0x27FFF ∧ classify 0x8400000000000000 = .bad ∧
    [p none far none, p none no none, p asked no (some .invalid), p asked no (some .success),
      p (some { page := 0x10000, tries := 4, asked := none }) no none].all (fun s =>
        readyB s .always (.l2 0x10000) && s.issuer.post.isEmpty && !probeBad (given s 7 0x10000)) = true ∧
    (given (p none far none) 7 0x10000).probeNext = some (0x10000, .noPort) ∧
    (given (p none no none) 7 0x10000).probeNext = some (0x10000, .absent) ∧
    (given (p asked no (some .success)) 7 0x10000).probeNext = some (0x10000, .absent) ∧
    (p asked no (some .invalid)).boundaryState.priCode 5 = some .invalid ∧
    ((p none no none).boundaryState.pri.filter (fun r => r.code.isNone)).length < 512 := by decide +kernel

/-- PostsAndBarriers: room for one entry more, shared addresses and one that is not, a bit that is set, and the groups of
a slot: none, broken, and whole with a later phase than the recorded one. -/
theorem test_witness_posts :
    let p : Post := { seq := 0, kind := .spawn 0x1000 0 0 0 }
    let s := live (fun c => lat 7 0x8300000000000040 0 0 { c with
      post := List.replicate 7 p, gmem := (c.gmem.set 0 (some 3)).set 1 (some 255), gbar := c.gbar.set 0 (some 4) })
    let s : State := { s with mem := ⟨[(chipKey 0x40, 8)]⟩, groups := [(3, { members := 3, arrived := 0, phase := 5, broken := false }),
                              (255, { members := 3, arrived := 0, phase := 5, broken := true })] }
    let t := live (lat 7 0x8300000000000041 0x8300000000000041 0)
    readyB s .always (.imm 3) = true ∧ readyB t .always (.l2 0x8300000000000040) = true ∧ readyB t .always (.imm 3) = true ∧
    (given s 7 3).o2.word = 0 ∧ s.issuer.post.length < 8 ∧ sharedAddr 0x8300000000000040 = true ∧
    (given t 7 3).o2.word ≠ 0 ∧ sharedAddr (given t 7 3).o2.word = false ∧ sharedAddr 3 = false ∧
    sharedAddr ((given t 7 3).o1.word + BitVec.ofNat 64 (576 * (3 / 64))) = false ∧
    accessKey s.boundaryState s.cur.core s.issuer.pasid 0x8300000000000040 false = .ok (chipKey 0x40) ∧
    keyHeld s.boundaryState (chipKey 0x40) 64 = false ∧ atomicHeld s.boundaryState (chipKey 0x40) 8 = false ∧
    s.boundaryState.fenced s.cur = false ∧ (s.boundaryState.mem.word (chipKey 0x40)).getLsbD 3 = true ∧
    s.issuer.gmem.get 2 = none ∧ s.issuer.gmem.get 0 = some 3 ∧ (groupsGet s.boundaryState.groups 3).broken = false ∧
    s.issuer.gbar.get 0 = some 4 ∧ (groupsGet s.boundaryState.groups 3).phase ≠ 4 ∧
    (groupsGet s.boundaryState.groups 255).broken = true ∧
    (let w : State := { live (lat 7 0x10000 0 0) with pages := [(0, absentPage 0x10000)] }
     readyB w .always (.imm 3) = true ∧ sharedAddr 0x10000 = true ∧
     accessKey w.boundaryState w.cur.core w.issuer.pasid 0x10000 false = .absent) := by decide +kernel

/-- A trap log at bus address 0x100000 (TLOGB, R366). -/
def logged (s : State) : State := { s with host := { s.host with tlogb := 0x100000 } }

/-- SoftwareTrap and ReturnFromTrap: with and without a trap log; in a stream core, and in a CSC whose cluster's context 1
of core 255 is halted. -/
theorem test_witness_traps :
    readyB (live id) .always (.imm 5) = true ∧ readyB (logged (live id)) .always (.imm 5) = true ∧
    (logged (live id)).host.tlogb.toNat / 4096 ≠ 0 ∧ (live id).host.tlogb.toNat / 4096 = 0 ∧ isCsc (live id).cur = false ∧
    (let s := State.modCtx (csc id) ⟨255, 1⟩ (fun c => { c with st := .halted })
     readyB s .always (.l2 0x1FF) = true ∧ isCsc s.cur = true ∧ s.issuer.xfer = none ∧
     (s.boundaryState.ctx ⟨255, 1⟩).st = .halted ∧ s.boundaryState.launch.st = .running) := by decide +kernel


/-- PostsAndBarriers: TWAITB of a bit whose read has returned it set, one that waits for another bit, one that has not begun,
and a page in a peer that no port reaches. -/
theorem test_witness_twaitb :
    let s (tw : Option (Word × Nat × Bool)) : State := live (fun c => lat 7 0x8300000000000040 0 0 { c with tw := tw })
    let far : State := { live (lat 7 0x10000 0 0) with
      pages := [(0, { va := 0x10000, lg := 12, pa := 0xC0 * 2 ^ 56 + 2 ^ 48, rd := true, wr := true, ex := none })] }
    [some (0x8300000000000040, 3, true), some (0x8300000000000040, 4, true), some (0x8300000000000040, 3, false), none].all (fun tw =>
      readyB (s tw) .always (.imm 3) && !(s tw).boundaryState.fenced (s tw).cur && (s tw).issuer.tw == tw &&
      !(s tw).boundaryState.turned (s tw).cur 0x8300000000000040 64 &&
      (match accessKey (s tw).boundaryState 0 0 0x8300000000000040 false with | .ok _ => true | _ => false)) = true ∧
    sharedAddr 0x8300000000000040 = true ∧ readyB far .always (.imm 3) = true ∧ far.boundaryState.turned far.cur 0x10000 64 = false ∧
    accessKey far.boundaryState 0 0 0x10000 false = .noPort := by decide +kernel
/-! ### Engines, MX, KB and streams: triggers -/

/-- Whether fewer than the limit of commands of a unit are in flight and the token register of `.o3` is not pending. -/
def tokenFree (s : State) (u : Fin 15) : Bool :=
  inFlight s.boundaryState s.cur.core u.val < flightLimit u.val && !s.issuer.pendS.getLsbD (sReg (s.issuer.latch u).o3).val

/-- An ATOMNR of its context that has not been performed (R258). -/
def atomnr0 : Cmd :=
  { uid := 0, cid := ⟨0, 0⟩, seq := 0, bus := 10, t := 6, b := 0x8300000000000000, o1 := 0x8000000000000000, o2 := 0, tok := none,
    dst2 := none, id := 1, ixpol := 0, kregs := [], preds := [], xreg := 0, st := .queued, desc := [], opnd := [], gran := [],
    touch := [], left := 0, res := [], prog := 0, cnt := 0, bits := 0, parked := 0, reason := 0, trapAt := none, miss := [],
    val2 := 0, key := 0, status := 0, slices := [], seen := [] }

/-- CopyAndRinkTriggers: 47 transfers and 31 rink commands in flight; an ATOMNR whose checks pass and one whose sector is
misaligned; no ATOMNR left. -/
theorem test_witness_engine_triggers :
    let s := live (fun c => lat 10 0x8000000000000000 (2 ^ 16) 5 (lat 14 0 0 5 c))
    let s : State := { s with cmds := List.replicate 47 { atomnr0 with t := 0, cid := ⟨0, 1⟩ } ++
                              List.replicate 31 { atomnr0 with bus := 14, cid := ⟨0, 1⟩ } }
    readyB s .always (.l2 0x10020) = true ∧ tokenFree s 10 = true ∧ tokenFree s 14 = true ∧ s.issuer.pendC = 0 ∧
    (∀ q, q < 16 → s.boundaryState.kbWrites s.cur false q = false) ∧
    (∀ q, q < 4 → s.boundaryState.kbWrites s.cur true q = false) ∧
    inFlight s.boundaryState s.cur.core 10 < 48 ∧ s.boundaryState.fenced s.cur = false ∧
    atomBad s.cur.core 0x10020 (given s 10 0).o1.word (given s 10 0).o2.word = none ∧
    readyB s .always (.l2 0x10021) = true ∧
    (atomBad s.cur.core 0x10021 (given s 10 0).o1.word (given s 10 0).o2.word).isSome = true ∧
    (∀ m ∈ s.boundaryState.cmds, ¬ (m.cid = s.cur ∧ m.bus = 10 ∧ m.t = 6)) := by decide +kernel

/-- IndexAndTreeTriggers: 31 commands in flight; in a stream core and in a CSC. -/
theorem test_witness_index_triggers :
    [live (lat 11 0 7 5), csc (lat 11 0 7 5)].all (fun s =>
      let s : State := { s with cmds := List.replicate 31 { atomnr0 with bus := 11, cid := ⟨s.cur.core, 1⟩ } }
      readyB s .always (.l2 0x8300000000000000) && inFlight s.boundaryState s.cur.core 11 < 32 && !s.boundaryState.fenced s.cur &&
      !s.issuer.pendS.getLsbD (sReg (given s 11 0).o3).val && !s.issuer.pendS.getLsbD (sReg (given s 11 0).o2.word).val) = true ∧
    isCsc (csc id).cur = true ∧ isCsc (live id).cur = false := by decide +kernel

/-- MatrixTriggers: seven operations in the queue; bases in chip scratchpad and global, in the own scratchpad and slice,
and outside the reach; MSETQ with and without bit 1. -/
theorem test_witness_matrix_triggers :
    let op : MxOp := { ctx := 1, seq := 0, t := 16, b := 0, o1 := 0, o2 := 0 }
    let s := (live (lat 9 0x10000 0 0)).modCore 0 (fun k => { k with mxq := List.replicate 7 op })
    let t := live (lat 9 0x8000000000000002 0 0)
    [0x8300000000000000, 0x10000, 0x8000000000000000, 0x8200000000000000, 0x8100000000000000, 0].all (fun x =>
      readyB s .always (.l2 x) && readyB t .always (.l2 x)) = true ∧
    s.boundaryState.fenced s.cur = false ∧ t.boundaryState.fenced t.cur = false ∧
    (s.boundaryState.core s.cur.core).mxq.length < 8 ∧ (t.boundaryState.core t.cur.core).mxq.length < 8 ∧
    classify 0x8300000000000000 = .chip 0 ∧ classify (given s 9 0).o1.word = .glob 0x10000 ∧
    classify (given t 9 0).o1.word = .own 2 ∧ classify 0x8200000000000000 = .slice (coreIx s.cur.core) 0 ∧
    classify 0x8100000000000000 = .peer 0 0 ∧ (given s 9 0).o1.word.getLsbD 1 = false ∧
    (given t 9 0).o1.word.getLsbD 1 = true := by decide +kernel

/-- CodebookTriggers: fifteen operations outstanding; addresses that are local, in a window, in none, at its end, of no
class and misaligned; the pair buffer free and the context's own. -/
theorem test_witness_codebook_triggers :
    let s := (windowed id).modCore 0 (fun k => { k with kbq := List.replicate 15 recluOp })
    let t := (windowed id).modCore 0 (fun k => { k with pair := { k.pair with holder := some 0 } })
    [0x8300000000000000, 0x10000, 0x11DF8, 0x11E00, 0x12000, 0x8000000000027F00, 0x8400000000000000, 0x8000000000000004].all (fun x =>
      readyB s .always (.l2 x)) = true ∧ (s.boundaryState.kbOps s.cur).length < 16 ∧ (t.boundaryState.kbOps t.cur).length < 16 ∧
    s.boundaryState.fenced s.cur = false ∧ t.boundaryState.fenced t.cur = false ∧
    (s.boundaryState.core 0).coverOf 0x11DF8 = some 3 ∧ (s.boundaryState.core 0).coverOf 0x12000 = none ∧
    0x11DF8 + 520 ≤ win3.g0.toNat + 2 ^ win3.glog ∧ win3.g0.toNat + 2 ^ win3.glog < 0x11E00 + 520 ∧
    extentOk 0x8300000000000000 520 = true ∧ extentOk 0x8000000000027F00 520 = false ∧ canonical 0x8300000000000000 = false ∧
    classify 0x8400000000000000 = .bad ∧ (s.boundaryState.core 0).pair.holder = none ∧
    (t.boundaryState.core 0).pair.holder = some 0 ∧ readyB t .always (.imm 0) = true := by decide +kernel

/-- CodebookEdits: no operation stands in the way; each bit of b that a clause names; the pair buffer the context's own and
free. -/
theorem test_witness_codebook_edits :
    let s := live id
    let t := s.modCore 0 (fun k => { k with pair := { k.pair with holder := some 0, st := .remap, na := 3, nb := 256 } })
    [s, t].all (fun s => [0, 0xFFF, 0x1000, 0x1FF3, 0x2000].all (fun x => readyB s .always (.l2 x)) && !s.boundaryState.recluOut s.cur &&
      (List.range 16).all (fun n => !s.boundaryState.kbWrites s.cur false n && !s.boundaryState.kbReads s.cur false n &&
        !writeHeld s.boundaryState s.cur s.issuer.seq (.k n)) &&
      (List.range 4).all (fun n => !s.boundaryState.kbWrites s.cur true n && !s.boundaryState.kbReads s.cur true n &&
        !writeHeld s.boundaryState s.cur s.issuer.seq (.x n)) &&
      (s.boundaryState.kbOps s.cur).isEmpty && !writeHeld s.boundaryState s.cur s.issuer.seq .pair) = true ∧
    ((s.boundaryState.core 0).pair.holder, (t.boundaryState.core 0).pair.holder) = (none, some 0) ∧
    (0x1FF3 : Word).getLsbD 12 = true ∧ (0xFFF : Word).getLsbD 12 = false ∧ (0x2000 : Word).getLsbD 13 = true := by decide +kernel

/-- StreamTriggers: descriptors that are local, in a window, in none, and of no class; a stream that is captured, one whose
descriptor has not arrived, and an unbound register. -/
theorem test_witness_stream_triggers :
    let s := windowed (fun c => { c with w := (c.w.set 1 (some owing)).set 2 (some { owing with capt := true, made := 2, vecs := [5, 6] }) })
    [0x8300000000000040, 0x10040, 0x12040, 0x8400000000000000].all (fun x => readyB s .always (.l2 x)) = true ∧
    s.issuer.pendC = 0 ∧ s.boundaryState.fenced s.cur = false ∧ (s.boundaryState.core 0).coverOf 0x10040 = some 3 ∧ (s.boundaryState.core 0).coverOf 0x12040 = none ∧
    classify 0x12040 = .glob 0x12040 ∧ (s.moved (.imm 3) false).w.get 0 = none ∧
    ((s.moved (.imm 3) false).w.get 1).any (fun st => !st.capt) = true ∧
    ((s.moved (.imm 3) false).w.get 2).any (fun st => st.capt) = true := by decide +kernel

/-! ### Steps of a context's boundary, of its core and of the core's units -/

/-- A line of a window with scope CORE whose first eight bytes a store wrote. -/
def coreLine : Line := { slot := 0, tag := 0, scope := .core, dirty := 0xFF }

/-- The host's answer that the page of 0x10000 is not there. -/
def nopage : BitVec 20 × Page := (0, absentPage 0x10000)

/-- A page of 4 KiB at 0x10000 whose home is 0x5000. -/
def page (wr : Bool) : BitVec 20 × Page := (0, { va := 0x10000, lg := 12, pa := 0x5000, rd := true, wr := wr, ex := some true })

/-- BoundarySteps: a due result behind one that is not due, a due transfer, loop state, MAP and OWNSET (a grant that passes
255 on its first granule, a reclaim of a granule at rest and of one that an engine writes), and a due store beside one that is
not. -/
theorem test_witness_boundary :
    let p : Pend := { u := 14, r := some (.sc 5), q := none, fl := 0x100, rem := 0 }
    let l : LoopSt := { lc := some 0, cnt := none, win := some (0x80, 7), rem := 0 }
    let c (a : ApplyKind) := (live (fun c => { c with
      pend := [p], loop := [l], applies := [{ kind := a, rem := 0 }],
      xfer := some { kind := .transfer, target := 0x5000, left := 0 },
      stores := [{ seq := 0, a := 0, wr := [(0, 1)], rem := 0 }, { seq := 1, a := 0, wr := [(1, 1)], rem := 1 }] })).ctx ⟨0, 0⟩
    (c (.map 7 0x10000 13 12 0x4000 true)).pend.filter (fun p => p.rem == 0) = [p] ∧
    (c (.own [3, 4] true 255)).loop = [l] ∧ l.rem = 0 ∧
    (c (.map 7 0x10000 13 12 0x4000 true)).xfer = some { kind := .transfer, target := 0x5000, left := 0 } ∧
    (c (.map 7 0x10000 13 12 0x4000 true)).applies = [{ kind := .map 7 0x10000 13 12 0x4000 true, rem := 0 }] ∧
    (c (.own [3, 4] true 255)).applies = [{ kind := .own [3, 4] true 255, rem := 0 }] ∧
    (c (.own [3, 4] false 1)).applies = [{ kind := .own [3, 4] false 1, rem := 0 }] ∧
    (let a : Pend := { p with rem := 3, q := some (.sc 1) }
     (live (fun c => { c with pend := [a, p] })).ctx ⟨0, 0⟩ |>.pend) = [{ p with rem := 3, q := some (.sc 1) }, p] ∧
    [3, 4].Nodup ∧ (([(3, 1)] : List (Nat × Nat)).map (·.1)).Pairwise (· < ·) ∧ 255 < ownGet [(3, 1)] 3 + 255 ∧
    (live id).granuleBusy 3 = false ∧
    (let s := live id; { s with flight := [{ of := .cmd 0, wr := [(coreKey 0 (1024 * 3), 1)], src := [], grp := 0 }] }).granuleBusy
      (granuleOf (coreKey 0 (1024 * 3))) = true := by decide +kernel

/-- OwnerCounts: counts 255 and 1 in rising order. -/
theorem test_witness_owner_counts : (([(2, 255), (5, 1)] : List (Nat × Nat)).map (·.1)).Pairwise (· < ·) ∧
    ownGet (grantOne [(2, 255), (5, 1)] 2) 2 = 255 ∧ releaseOne [(2, 255), (5, 1)] 5 = [(2, 255)] := by decide

/-- An access through slot 3 whose line is not there. -/
def missing (pages : List (BitVec 20 × Page)) : State :=
  let s := windowed (fun c => { c with sb := [{ seq := 0, kind := .ldx 3 false 9, a := 0, addr := 0x10008, win := some 3 }], ld := 1 })
  { s with pages := pages }

/-- WindowSteps: a fill whose page is present, and one whose page is not; a fill that displaces a CORE line. -/
theorem test_witness_fill :
    [missing [page true], missing [nopage]].all (fun s => s.mem.wf && !s.act.flag && s.act.hi == 0 && s.act.pick == none &&
      accessMiss s s.act.cid s.act.num == some (3, 0x10008) && (s.core 0).wins.get 3 == some win3 &&
      (s.flightsOf (.win 0)).isEmpty && win3.lines.isEmpty &&
      lineFree s 0 (s.ctx s.act.cid).pasid (win3.g0.toNat + 128 * win3.lineNo 0x10008) false &&
      !s.turned s.act.cid 0x10000 128) = true ∧
    translate (missing [page true]) 0 0 0x10000 false = .ok 0x5000 ∧ translate (missing [nopage]) 0 0 0x10000 false = .absent ∧
    (let w := { win3 with lines := [{ coreLine with tag := 32 }] }
     let s := (missing [page true, (0, { va := 0x11000, lg := 12, pa := 0x7000, rd := true, wr := true, ex := none })]).modCore 0
       (fun k => { k with wins := k.wins.set 3 (some w) })
     s.act.later = false ∧ accessMiss s s.act.cid s.act.num = some (3, 0x10008) ∧ (s.core 0).wins.get 3 = some w ∧
     w.lines.filter (fun m => m.slot == w.place (w.lineNo 0x10008)) = [{ coreLine with tag := 32 }] ∧
     lineFree s 0 0 0x10000 false = true ∧ translate s 0 0 (w.lineAddr { coreLine with tag := 32 }) true = .ok 0x7000 ∧
     atomicHeld s 0x7000 128 = false ∧ s.turned s.act.cid (BitVec.ofNat 64 (w.lineAddr { coreLine with tag := 32 })) 128 = false ∧ translate s 0 0 0x10000 false = .ok 0x5000 ∧
     0x7000 + 128 ≤ coreKey 0 (w.boff + 128 * w.place 0)) := by
  decide +kernel

/-- A DRAIN or UNMAP alone in the scoreboard, with a CORE line in slot 3. -/
def draining (k : SbKind) (dying : Bool) (pages : List (BitVec 20 × Page)) : State :=
  let s := (live (fun c => { c with sb := [{ seq := 0, kind := k, a := 0, addr := 0, win := none }], stc := 1 })).modCore 0
    (fun k => { k with wins := k.wins.set 3 (some { win3 with dying := dying, lines := [coreLine] }) })
  { s with pages := pages }

/-- WindowSteps: DRAIN of the least and the greatest scope, and UNMAP, of a line with a home and of one that has none. -/
theorem test_witness_drain :
    [[page true], [nopage]].all (fun ps =>
      [draining (.drain 0) false ps, draining (.drain 1) false ps, draining (.drain 3) false ps, draining (.unmap 3) true ps].all
        (fun s => ((s.ctx s.act.cid).sbAt s.act.num).any (fun o => accessesDone s s.act.cid o.seq) &&
          drainFree s s.act.cid (fun _ _ _ => true) && !s.act.later && s.act.pick == none &&
          (s.flightsOf (.win 0)).isEmpty) &&
      windowQuiet (draining (.unmap 3) true ps) 0 3 &&
      drainFree (draining (.unmap 3) true ps) ⟨0, 0⟩ (fun i _ _ => i == 3)) = true ∧
    homeless (draining (.drain 3) false [page true]) 0 0 (fun _ _ _ => true) = none ∧
    homeless (draining (.drain 3) false [nopage]) 0 0 (fun _ _ _ => true) = some 0x10000 ∧
    homeless (draining (.unmap 3) true [page true]) 0 0 (fun i _ _ => i == 3) = none ∧
    homeless (draining (.unmap 3) true [nopage]) 0 0 (fun i _ _ => i == 3) = some 0x10000 := by decide +kernel

/-- WindowSteps: a fill of the last sector of a line, and one of a sector with others still to copy; a DRAIN of SYS in a SHARED
window of which a fill has copied a sector. -/
theorem test_witness_parts :
    let of (l : List Nat) (j : Nat) : State :=
      let s := (missing [page true]).modCore 0 (fun k => { k with wins := k.wins.set 3 (some { win3 with parts := [(0, l)] }) })
      { s with act := { s.act with pick := some j } }
    let all (s : State) (j : Nat) : Bool := [0, 1, 2, 3].all (fun i =>
      ((s.core 0).wins.get 3).any (fun w => (w.copied 0).contains i) || i == j)
    let shared := (draining (.drain 3) false [page true]).modCore 0 (fun k =>
      { k with wins := k.wins.set 4 (some { win3 with g0 := 0x20000, boff := 0x8000, shared := true, parts := [(1, [2])] }) })
    [of [0, 1, 3] 2, of [] 2].map (all · 2) = [true, false] ∧
    [of [0, 1, 3] 2, of [] 2].all (fun s => s.mem.wf && accessMiss s s.act.cid s.act.num == some (3, 0x10008) &&
      lineFree s 0 0 0x10000 false && (s.flightsOf (.win 0)).isEmpty && !s.turned s.act.cid 0x10000 128) = true ∧
    drainFree shared ⟨0, 0⟩ (fun _ _ _ => true) = true ∧ homeless shared 0 0 (fun _ _ _ => true) = none ∧
    (shared.core 0).slots.any (fun p => p.2.shared && p.2.parts != []) = true := by decide +kernel

/-- CoreSteps: with the running context blocked: another that can issue; none; and, with the core stalled, one that can by now. -/
theorem test_witness_switch :
    let two (f g : Ctx → Ctx) (stalled : Bool) : State :=
      let t := State.modCtx (placeBytes (live (fun c => { c with pc := 0x2000 })) [0x00, 0x02]) ⟨0, 1⟩
        (fun c => f { c with st := .live, pc := 0x2000 })
      let t := (t.modCtx ⟨0, 0⟩ (fun c => g { c with blocked := true, st := .joining })).modCore 0 (fun k => { k with stalled := stalled })
      { t with act := { t.act with cid := ⟨0, 1⟩ } }
    let can (s : State) (j : Fin 4) : Bool := canIssue s ⟨0, j⟩ || stirs s ⟨0, j⟩
    let a := two id id false
    let b := two (fun c => { c with st := .joining }) id false
    let d := two id id true
    [a, b, d].all (fun s => !(s.core 0).gated && leavesOff s 0) = true ∧
    [0, 1, 2, 3].map (can a) = [false, true, false, false] ∧ [0, 1, 2, 3].map (can b) = [false, false, false, false] ∧
    can d 1 = true ∧ [a, b, d].map (fun s => (s.core 0).stalled) = [false, false, true] := by decide +kernel

/-- CoreSteps: no sector is cached and the page may be executed; a running context that has blocked beside one that can
issue; queues of unlike lengths. -/
theorem test_witness_core :
    let s : State := { live (fun c => { c with pc := 0x10FFE }) with pages := [page false] }
    let t := State.modCtx (placeBytes (live (fun c => { c with pc := 0x2000 })) [0x00, 0x02]) ⟨0, 1⟩ (fun c => { c with st := .live, pc := 0x2000 })
    let t := t.modCtx ⟨0, 0⟩ (fun c => { c with blocked := true, st := .joining })
    let u := State.modCtx (live (fun c => { c with rbq := List.replicate 8 0 })) ⟨0, 2⟩ (fun c => { c with rbq := [1] })
    bundleAt (s.core 0).icache (s.ctx ⟨0, 0⟩).nextPc = .inr 0x10FFE ∧ canonical 0x10FFE = true ∧
    fetchHeld s (s.ctx ⟨0, 0⟩) (0x10FFE / 32 * 32) = false ∧ translateX s 0 0 (0x10FFE / 32 * 32) = .ok 0x5FE0 ∧
    (t.core 0).gated = false ∧ leavesOff t 0 = true ∧ switchTo t 0 = some 1 ∧ (t.core 0).running = 0 ∧
    [0, 1, 2, 3].all (fun j => decide ((u.ctx ⟨0, 1⟩).rbq.length ≤ (u.ctx ⟨0, j⟩).rbq.length)) = true ∧
    (u.ctx ⟨0, 1⟩).rbq.length < (u.ctx ⟨0, 0⟩).rbq.length ∧ (u.ctx ⟨0, 1⟩).rbq.length < 8 := by decide +kernel

/-- A KSORT of k0. -/
def sortOp : KbOp := { recluOp with t := 80 }

/-- CodebookAndStreamSteps: a KSORT at the head of the queue, and one that runs. -/
theorem test_witness_codebook_steps :
    let s := (live id).modCore 0 (fun k => { k with kbq := [sortOp, recluOp] })
    let t := (live (fun c => { c with tl := 1, lastSeq := 1 })).modCore 0 (fun k =>
      { k with kbRun := some (sortOp, kbCompute sortOp (k.at 0) k.pair) })
    (s.core 0).kbRun = none ∧ (s.core 0).kbq = [sortOp, recluOp] ∧ kbHeld s ⟨0, 0⟩ sortOp = false ∧ sortOp.extent = 0 ∧
    (t.core 0).kbRun.isSome = true ∧ (t.ctx ⟨0, 0⟩).young sortOp.seq = false := by decide +kernel

/-- Core 0 with a KLD, KST, KXLD or KXST at the head of its queue, of 2 F32 entries at chip scratchpad 0x100. -/
def kbAccess (n : Nat) (tag : Nat) : State :=
  let o : KbOp := { recluOp with t := 16 * n, b := 0x8300000000000100 }
  let s := (live (fun c => { c with k := c.k.set 0 { KReg.empty with n := 2 } })).modCore 0 (fun k => { k with kbq := [o, recluOp] })
  { s with mem := Mem.applyAll ⟨[]⟩ (wrNat (chipKey 0x100) 8 (2 + tag * 2 ^ 16)) }

/-- CodebookAndStreamSteps: the four accesses with their bytes at hand, at distinct places whose lines may be written; a
header that names a tag, and one that names none. -/
theorem test_witness_codebook_accesses :
    [(0, 0, 16), (0, 3, 8), (11, 0, 256), (1, 0, 16), (12, 0, 256)].all (fun p =>
      let s := kbAccess p.1 p.2.1
      s.mem.wf && (s.core 0).kbRun.isNone && (s.core 0).kbq.head?.any (fun o => o.n == p.1 && !kbHeld s ⟨0, 0⟩ o && kbTurn s ⟨0, 0⟩ o &&
        kbLength s ⟨0, 0⟩ o == p.2.2 && (List.range p.2.2).all (fun j => kbTarget s ⟨0, 0⟩ o j == .at (chipKey 0x100 + j) &&
          (match windowFate s ⟨0, 0⟩ o.win (o.byteAt j) with | .ok _ => true | _ => false)))) = true ∧
    (∀ i j, chipKey 0x100 + i = chipKey 0x100 + j → i = j) := ⟨by decide +kernel, fun _ _ h => by omega⟩

/-- A descriptor in chip scratchpad for a stream of `ne` F32 elements, one after another, or with a reserved format. -/
def streamed (ne fmt : Nat) (skip : Nat) : State :=
  let m : Mem := ⟨[]⟩
  let s := live (fun c => { c with w := c.w.set 0 (some { owing with skip := skip }), lastSeq := 1 })
  { s with mem := m.applyAll (wrNat (chipKey 0) 8 0x8300000000000200 ++ wrNat (chipKey 16) 8 (2 ^ 40 + 2 ^ 24 + 256) ++
      wrNat (chipKey 32) 8 fmt ++ wrNat (chipKey 40) 8 ne ++ wrNat (chipKey 0x200) 4 0x3F800000) }

/-- The stream with its descriptor's words. -/
def described (s : State) : Strm := { owing with words := descWords s.mem (chipKey 0) 8 }

/-- What its capture answers. -/
def captured (s : State) : Strm := (described s).capture (s.ctx ⟨0, 0⟩) (s.core 0).pair 0

/-- CodebookAndStreamSteps: descriptors that are legal and illegal, before and after their words are read; a last and an
earlier vector; a k-register within its capacity. -/
theorem test_witness_stream_steps :
    [streamed 33 0 5, streamed 33 15 0].all (fun s => (s.ctx s.act.cid).streamsRun &&
      ((s.ctx s.act.cid).w.get s.act.strm).any (fun st => !st.capt && st.words.isEmpty && storesDone (s.ctx s.act.cid) st.seq &&
        (s.kbOps s.act.cid).all (fun o => st.seq ≤ o.seq) && targetOf s s.act.cid st.win st.desc 64 == .at (chipKey 0)) &&
      !otherPremap (s.ctx s.act.cid) s.act.strm && !(described s).words.isEmpty && !(described s).capt) = true ∧
    ((captured (streamed 33 0 5)).bad false, (captured (streamed 33 15 0)).bad false) = (false, true) ∧
    [(32, 1), (33, 2)].all (fun p =>
      let s := (streamed p.1 0 0).modCtx ⟨0, 0⟩ (fun c => c.setW 0 (some (captured (streamed p.1 0 0))))
      !s.act.flag && s.act.pick == none && (s.ctx ⟨0, 0⟩).streamsRun && ((s.ctx ⟨0, 0⟩).w.get 0).any (fun st =>
        st.mayProduce && storesDone (s.ctx ⟨0, 0⟩) st.seq && !(s.ctx ⟨0, 0⟩).young st.seq && st.total == p.2 &&
        (match (parseVector s ⟨0, 0⟩ 130 st).2 with | .got _ => true | _ => false))) = true ∧
    KReg.empty.n ≤ KReg.empty.tag.cap := by decide +kernel

/-- An MMA of K elements on tile a0. -/
def mma0 (k : Nat) : MxOp := { ctx := 0, seq := 0, t := 0, b := 0x8300000000001000, o1 := 0x8300000000000000, o2 := BitVec.ofNat 64 k }

/-- Core 0 with an MX queue, a configuration and, where given, a running operation; the tile's type. -/
def mxState (q : List MxOp) (fmt : Word) (lda : Nat) (int : Bool) (status : BitVec 4) (r : Option MxRun) : State :=
  (live (fun c => { c with tl := 1 })).modCore 0 (fun k =>
    let a := k.tiles.get 0
    { k with mxq := q, mxRun := r, mxCfg := k.mxCfg.set 0 { fmt := fmt, lda := lda, ldb := 64 },
             tiles := k.tiles.set 0 { a with int := int, status := status } })

/-- MatrixSteps: an operation that is no MMA, an MMA on a poisoned tile, under an invalid configuration (fmt bit 3), on a
tile of the wrong type, misplaced (its rows leave chip scratchpad), of no element, and of 49 elements. -/
theorem test_witness_matrix_starts :
    [mxState [{ mma0 0 with t := 16 }] 0 64 false 0 none, mxState [mma0 1] 0 64 false 2 none, mxState [mma0 1] 8 64 false 0 none,
      mxState [mma0 1] 0 64 true 0 none, mxState [mma0 1] 0 (2 ^ 26) false 0 none, mxState [mma0 0] 0 64 false 0 none,
      mxState [mma0 49] 0 64 false 0 none].map (fun s =>
        ((s.core 0).mxRun == none) && (s.core 0).mxq.all (fun o => storesDone (s.ctx ⟨0, 0⟩) o.seq)) =
      [true, true, true, true, true, true, true] ∧
    [mxState [{ mma0 1 with t := 16 }] 0 64 false 0 none, mxState [mma0 1] 0 64 false 2 none, mxState [mma0 1] 8 64 false 0 none,
      mxState [mma0 1] 0 64 true 0 none, mxState [mma0 1] 0 (2 ^ 26) false 0 none, mxState [mma0 0] 0 64 false 0 none,
      mxState [mma0 49] 0 64 false 0 none].map (fun s => (s.core 0).mxq.flatMap (fun o =>
        let m := mmaOf ((s.core 0).mxCfg.get 0) o
        [o.n == 0, ((s.core 0).tiles.get o.tile).poisoned, ((s.core 0).mxCfg.get 0).valid,
          mmaPairs m false ((s.core 0).tiles.get o.tile).int, m.placed])) =
      [[false, false, true, true, true], [true, true, true, true, true], [true, false, false, true, true],
       [true, false, true, false, true], [true, false, true, true, false], [true, false, true, true, true],
       [true, false, true, true, true]] := by decide +kernel

/-- The MMA of one element, running: its lines, all at hand where `full`. -/
def mmaRunning (k : Nat) (full : Bool) (a : Word) : State :=
  let m := mmaOf { fmt := 0, lda := 64, ldb := 64 } { mma0 k with o1 := a }
  let ls : List TileLine := if full then (m.lines 0).map (fun x => { addr := x, key := 0, pin := false, way := 0, bytes := some [] }) else []
  mxState [] 0 64 false 0 (some { op := { mma0 k with o1 := a }, chunk := 0, kreg := KReg.empty, fin := false, lines := ls, sum := none })

/-- MatrixSteps: the first line of A from chip scratchpad, and from a page that is not present; a last chunk and an earlier
one whose lines are at hand. -/
theorem test_witness_matrix_steps :
    [(0x8300000000000000, true), (0x10000, false)].all (fun p =>
      let s : State := { mmaRunning 1 false p.1 with act := { word := p.1 }, pages := [nopage] }
      (mmaRuns s 0).any (fun x => (x.2.lines x.1.chunk).contains p.1 && x.1.lines.all (fun l => l.addr != p.1)) &&
      !localHeld s 0 p.1 128 && extentQuiet s ⟨0, 0⟩ (s.ctx ⟨0, 0⟩).pasid p.1 128 &&
      (match accessKey s 0 (s.ctx ⟨0, 0⟩).pasid p.1 false with | .ok _ => true | _ => false) == p.2) = true ∧
    [1, 49].all (fun k => (mmaRuns (mmaRunning k true 0x8300000000000000) 0).any (fun x =>
      (x.2.lines 0).all (fun a => x.1.lines.any (fun l => l.addr == a)))) = true := by decide +kernel

/-- Core 0 with an MX operation that may complete; the page of 0x10000 is not there. -/
def mxEnding (n : Nat) (b o1 : Word) (m : Mem) : State :=
  let s := mxState [] 0 64 false 0 (some { op := { mma0 1 with t := 16 * n, b := b, o1 := o1 }, chunk := 0, kreg := KReg.empty,
                                           lines := [], fin := true, sum := none })
  { s with mem := m, pages := [nopage, (0, absentPage 0x11000)] }

/-- How an operation's read of its table ends: 0 misplaced, 1 read, 2 on a page that is not there. -/
def tableRead (s : State) (b : Word) (al len : Nat) : Nat :=
  if b.toNat % al ≠ 0 ∨ extentOk b len = false then 0
  else if localHeld s 0 b len || !extentQuiet s ⟨0, 0⟩ (s.ctx ⟨0, 0⟩).pasid b len then 3
  else if firstBad s 0 (s.ctx ⟨0, 0⟩).pasid b len false = none then 1 else 2

/-- A descriptor of MSETD with a row stride of `stride` bytes. -/
def setd (stride : Nat) : Mem := Mem.applyAll ⟨[]⟩ (wrNat (chipKey 0) 8 0x8300000000001000 ++ wrNat (chipKey 8) 8 stride)

/-- MatrixSteps: an MMA, MZERO and MCFG that may complete; MLOAD, MSETQ and MSETD of a table that is misplaced, of one that is
read, and of one on a page that is not there; a descriptor that is valid, and one that is not; MDRAIN without a descriptor,
with and without a summary word. -/
theorem test_witness_matrix_ends :
    [mxEnding 0 0 0 ⟨[]⟩, mxEnding 3 0x8300000000000000 3 ⟨[]⟩, mxEnding 5 0x10000 0 (setd 128)].all (fun s => s.mem.wf &&
      s.act.pick == none && !s.act.later && (s.flightsOf (.mx 0)).isEmpty && (s.core 0).mxRun.any (fun r =>
        r.fin && r.sum == none && r.lines.isEmpty)) = true ∧
    [0, 1, 2, 3, 4, 5, 6].all (fun n => ((mxEnding n 0 0 ⟨[]⟩).core 0).mxRun.any (fun r => r.op.n == n)) = true ∧
    [(128, 4224), (8, 256), (64, 64)].map (fun p => ([0x8300000000000004, 0x83FFFFFFFFFFFFC0, 0x8300000000000000, 0x10000] :
      List Word).map (fun b => tableRead (mxEnding 3 b 1 ⟨[]⟩) b p.1 p.2)) = [[0, 0, 1, 2], [0, 0, 1, 2], [0, 0, 1, 2]] ∧
    [128, 130].map (fun n => ((setd n).wf, field ((setd n).word (chipKey 8)) 32 3, (setd n).word (chipKey 0) == 0x8300000000001000,
      mxReach 0 0x8300000000001000, n % 4, extentOk 0x8300000000001000 (31 * n + 128))) =
      [(true, 0, true, true, 0, true), (true, 0, true, true, 2, true)] ∧
    (((mxEnding 2 0 0 ⟨[]⟩).core 0).tiles.get 0).drain = none ∧
    [0, 0x8300000000000008].map summaryAt = [false, true] ∧
    (let s := mxEnding 2 0x8300000000000008 0 ⟨[]⟩
     localHeld s 0 0x8300000000000008 8 = false ∧ extentQuiet s ⟨0, 0⟩ 0 0x8300000000000008 8 = true ∧
     accessKey s 0 0 0x8300000000000008 true = .ok (chipKey 8)) := by decide +kernel

/-- A drain of F32 elements to chip scratchpad 0x1000, with residuals from 0x3000 where `res`. -/
def drain32 (res : Bool) : List Word := [0x8300000000001000, 128, if res then 0x8300000000003000 else 0, 128, 0, 0, 0, 0]

/-- Core 0 with an MDRAIN that may complete, its summary word at chip scratchpad 0x8000. -/
def mdraining (res : Bool) : State :=
  (mxEnding 2 0x8300000000008000 0 ⟨[]⟩).modCore 0 (fun k =>
    { k with tiles := k.tiles.set 0 { k.tiles.get 0 with drain := some (drain32 res) } })

/-- The drain's elements and residuals may be reached, one after another. -/
theorem test_drain_reach : [false, true].all (fun res => (List.range 1024).all (fun e =>
      let s := mdraining res
      let d := drain32 res
      !localHeld s 0 (drainOut d e) (dSize d) && extentQuiet s ⟨0, 0⟩ 0 (drainOut d e) (dSize d) &&
      (accessKey s 0 0 (drainOut d e) true == .ok (chipKey 0x1000 + 4 * e)) &&
      (!res || (!localHeld s 0 (drainRes d e) (dResSize d) && extentQuiet s ⟨0, 0⟩ 0 (drainRes d e) (dResSize d) &&
        (accessKey s 0 0 (drainRes d e) false == .ok (chipKey 0x3000 + 4 * e)))))) = true := by decide +kernel

/-- MatrixSteps: an MDRAIN with residuals or without, whose elements, residuals and summary word lie apart. -/
theorem test_witness_drain_apart :
    (∀ e f, e < 1024 → f < 1024 → (e ≠ f → chipKey 0x1000 + 4 * e + 4 ≤ chipKey 0x1000 + 4 * f ∨
        chipKey 0x1000 + 4 * f + 4 ≤ chipKey 0x1000 + 4 * e) ∧
      (chipKey 0x3000 + 4 * e + 4 ≤ chipKey 0x1000 + 4 * f ∨ chipKey 0x1000 + 4 * f + 4 ≤ chipKey 0x3000 + 4 * e) ∧
      (chipKey 0x8000 + 8 ≤ chipKey 0x1000 + 4 * e ∨ chipKey 0x1000 + 4 * e + 4 ≤ chipKey 0x8000)) ∧
    [false, true].all (fun res =>
      let s := mdraining res
      let d := drain32 res
      ((s.core 0).tiles.get 0).drain == some d && (hasResidual ((s.core 0).tiles.get 0) d == res) && dSize d == 4 &&
        dResSize d == 4 && summaryAt 0x8300000000008000 && !localHeld s 0 0x8300000000008000 8 &&
        extentQuiet s ⟨0, 0⟩ 0 0x8300000000008000 8 && accessKey s 0 0 0x8300000000008000 true == .ok (chipKey 0x8000)) = true := by
  have h : chipKey 0x3000 = chipKey 0x1000 + 0x2000 ∧ chipKey 0x8000 = chipKey 0x1000 + 0x7000 := by decide
  refine ⟨fun e f _ _ => ?_, by decide +kernel⟩
  omega

/-- A captured stream whose pattern A is 256 bytes from `a`, with word 4 of its descriptor `ctl` and NE `ne`. -/
def fetched (a : Word) (ctl ne : Nat) : Strm :=
  { owing with words := [a, 0, 2 ^ 40 + 2 ^ 24 + 256, 0, BitVec.ofNat 64 ctl, BitVec.ofNat 64 ne, 0, 0], capt := true }

/-- CodebookAndStreamSteps: streams whose source does not exist, or ends before the vector; a held skip whose total is known,
and one whose total is not (DEC with IXOP = 2 before the capture). -/
theorem test_witness_stream_fails :
    [(0x8400000000000000, 33, 2), (0x8300000000000200, 33, 4)].all (fun p =>
      let st := { fetched p.1 0 p.2.1 with parsed := if p.2.2 = 4 then 1 else 0, rdA := { owing.rdA with pos := if p.2.2 = 4 then 256 else 0 } }
      let s := live (fun c => { c with w := c.w.set 0 (some st), lastSeq := 1 })
      !s.act.flag && s.act.pick == none && (s.ctx ⟨0, 0⟩).streamsRun && st.mayProduce && storesDone (s.ctx ⟨0, 0⟩) st.seq &&
        !(s.ctx ⟨0, 0⟩).young st.seq && st.st == .active &&
        (match (parseVector s ⟨0, 0⟩ 130 st).2 with | .fail r => r == p.2.2 | _ => false)) = true ∧
    (let q := fetched 0 5 33
     let u := { fetched 0 (5 + 2 ^ 14 + 2 ^ 17) 33 with capt := false }
     q.words ≠ [] ∧ q.capt = true ∧ u.words ≠ [] ∧ u.capt = false ∧ u.cvt = false ∧ u.indexed = true ∧ u.ixop = 2) := by
  decide +kernel

/-- CodebookAndStreamSteps: the kinds of an element: a value, SN4, an index alone, mapped, paired, paired and mapped, and
decoded; the groups of a single element, of a run of 48 and of 256. -/
theorem test_witness_stream_elements :
    let k (q : Strm) := (decide (q.ifmt < 5), q.indexed, q.pairs, q.ixop, q.sp)
    [0, 9, 5, 8 + 2 ^ 13, 5 + 2 ^ 7, 5 + 2 ^ 7 + 2 ^ 14, 0x10, 0x15].map (fun x => k (fetched 0 x 1)) =
      [(true, false, false, 0, 0), (false, false, false, 0, 0), (false, true, false, 0, 0), (false, true, false, 1, 0),
       (false, true, true, 0, 0), (false, true, true, 2, 0), (true, false, false, 0, 1), (false, true, false, 0, 1)] ∧
    [true, false].map (fun d => ({ fetched 0 (5 + 2 ^ 7 + 2 ^ 14) 1 with dense := d }).dense) = [true, false] ∧
    [0, 1, 2, 3, 4, 5].map (fun n => (fetched 0 (5 + 2 ^ 7 + 2 ^ 14 + n * 2 ^ 10) 1).ch 10 3) = [0, 1, 2, 3, 4, 5] := by
  decide +kernel

/-- CodebookAndStreamSteps: a vector of 4-bit indices whose bytes are at hand; a control byte of zeros, and one of literals
with the byte after it. -/
theorem test_witness_stream_bytes :
    let s : State := { live id with mem := Mem.applyAll ⟨[]⟩ (wrNat (chipKey 0x200) 2 0x4183) }
    let q := fetched 0x8300000000000200 6 32
    let z := fetched 0x8300000000000200 (6 + 2 ^ 6) 32
    let got (st : Strm) (i : Nat) : Bool :=
      (st.addrA i).any (fun a => match sourceByte s ⟨0, 0⟩ st a with | .got x => x == (s.mem.get (chipKey (0x200 + i))).toNat | _ => false)
    (q.zr, q.sp, q.ifmt, q.pairs) = (false, 0, 6, false) ∧ q.elq = [] ∧ (q.needs, q.width) = (32, 4) ∧
    (List.range 16).all (got q) = true ∧ q.rdA = { pos := 0, lit := 0, zero := 0, acc := 0, accN := 0 } ∧
    z.zr = true ∧ z.rdA.zero = 0 ∧ z.rdA.lit = 0 ∧ [0, 1, 2].all (got z) = true ∧
    128 ≤ (s.mem.get (chipKey 0x200)).toNat ∧ (s.mem.get (chipKey 0x201)).toNat < 128 ∧ z.addrA 256 = none ∧
    (fetched 0x8400000000000000 6 32).addrA 0 = some 0x8400000000000000 ∧
    (fetched 0x8400000000000000 6 32).sector 0x8400000000000000 = none ∧
    (targetOf s ⟨0, 0⟩ ((s.core 0).coverOf 0x8400000000000000) 0x8400000000000000 1 == .gone) = true := by decide +kernel

/-- MatrixSteps: the codes of an MMA of one element in empty memory: of SN4 blocks, of a dense format, and of a sparse one in
which every position names index 0. -/
theorem test_witness_matrix_codes :
    let of (f sp : Nat) : Mma := { a := 0x8300000000000000, b := 0x8300000000001000, k := 1, afmt := 0, bfmt := f, sp := sp, lda := 64, ldb := 128 }
    let num (m : Mma) (j x n : Nat) : Nat := lineNat ⟨[]⟩ [] (m.b + BitVec.ofNat 64 (j * m.ldb + x)) n
    (∀ j, j < 32 → num (of 6 0) j (136 * (0 / 256)) 136 = 0 ∧ num (of 0 0) j (0 * 8 / 8) (max 1 (8 / 8)) = 0 ∧
      num (of 0 3) j ((12 * 3 * 8 / 8 + 3 * 3) * 0) (12 * 3 * 8 / 8 + 3 * 3) = 0) ∧
    (∀ q, q < 3 → 0 / 2 ^ (12 * 3 * 8 + 2 * (0 / 4 * 3 + q)) % 4 = 0 % 4) := by decide +kernel
/-! ### Steps of the engines -/

/-- Core 0 with one class Y, G or L command, number 0; the first 128 granules of chip scratchpad are the engines'. -/
def commanded (m : Cmd) : State :=
  let s := live (fun c => { c with cp := 1, issued := [1], lastSeq := 1 })
  { s with cmds := [m], own := (List.range 128).map (fun i => (granuleOf (chipKey 0) + i, 1)) }

/-- A CPY within chip scratchpad of the length and conversion of `ctl`. -/
def cpy (ctl : Word) : Cmd :=
  { atomnr0 with t := 0, tok := some 5, b := 0x8300000000010FF0, o1 := 0x8300000000000FF0, o2 := ctl, val2 := ctl }

/-- CopySteps: dispatch of copies with a reserved conversion, of no byte, out of chip scratchpad, of two pages; of a FILL; to
a peer that no port reaches. -/
theorem test_witness_copy_dispatch :
    let s (m : Cmd) : State := { commanded m with pages := [(0, { va := 0x10000, lg := 12, pa := 0xC0 * 2 ^ 56 + 2 ^ 48, rd := true, wr := true, ex := none })] }
    let far : Cmd := { cpy 16 with b := 0x10000 }
    [cpy (7 * 2 ^ 32 + 4), cpy 0, { cpy 0x20 with b := 0x8300000003FFFFF0 }, cpy 0x20, { cpy 0x20 with t := 3 }, far].map (fun m =>
      (((s m).dispatchHead ⟨0, 0⟩).map (fun m => m.uid) == some 0) && ((s m).cmd 0).isSome && storesDone ((s m).ctx ⟨0, 0⟩) m.seq &&
      m.known (s m))
      = [true, true, true, true, true, true] ∧
    [cpy (7 * 2 ^ 32 + 4), cpy 0, { cpy 0x20 with b := 0x8300000003FFFFF0 }, cpy 0x20, { cpy 0x20 with t := 3 }, far].map (fun m =>
      [m.badOpnd, m.badAddr, m.badLink (s m), m.rowLen == 0]) =
      [[true, false, false, false], [false, false, false, true], [false, true, false, false], [false, false, false, false],
       [false, false, false, false], [false, false, true, false]] := by decide +kernel

/-- A CPY2D or CPY3D of `n` rows of 16 bytes with its descriptor at chip scratchpad 0x40. -/
def rowsOf (t : Nat) (b n : Word) : State :=
  { commanded { cpy 0 with t := t, b := b } with mem := Mem.applyAll ⟨[]⟩ (wrBytes (chipKey 0x40)
    (([0x8300000000001000, 0x8300000000003000, 16, n, 0x100, 0x200, 0x1000, 0x2000] : List Word).flatMap (fun x => leBytes 8 x.toNat))) }

/-- CopySteps: 2D and 3D copies with a misplaced descriptor, of no row, and that start; an ATOM with bad operands, one whose
sector is not global, and one that starts; an ATOMNR; a page's end within an extent. -/
theorem test_witness_copy_rows :
    [1, 2].all (fun t => [(0x8300000000000048, 0), (0x8300000000000040, 0), (0x8300000000000040, 2 + 3 * 2 ^ 32)].all (fun (p : Word × Word) =>
      let s := rowsOf t p.1 p.2
      (s.dispatchHead ⟨0, 0⟩).any (fun m =>
        let m' : Cmd := let w := readWords s 0 (s.pasidOf m) m.b 8
          { m with desc := w, val2 := w.getD 2 0, kregs := [m.kregs.getD (field (w.getD 2 0) 40 4) KReg.empty] }
        s.cmd m.uid == some m && storesDone (s.ctx ⟨0, 0⟩) m.seq &&
        (if p.1 = 0x8300000000000048 then m.b.toNat % 64 != 0
         else m.b.toNat % 64 == 0 && nearAddr 0 m.b 64 && engineFree s ⟨0, 0⟩ (s.pasidOf m) m.b 64 && (m'.badOpnd == (p.2 == 0)) &&
           !m'.badAddr && !m'.badLink s && m'.known s && m'.rowLen == 16)))) = true ∧
    ([(5, 0x10021, 0), (5, 0x8300000000000020, 0), (5, 0x10020, 0), (6, 0x10020, 0)] : List (Nat × Word × Word)).map (fun p =>
      let m : Cmd := { atomnr0 with t := p.1, b := p.2.1, o2 := p.2.2 }
      let s : State := { commanded m with own := [(granuleOf (coreKey 0 0), 1)] }
      (s.dispatchHead ⟨0, 0⟩ == some m && s.cmd m.uid == some m && engineFree s ⟨0, 0⟩ (s.pasidOf m) m.o1 32,
        decide (7 < field m.o2 0 4 ∨ (3 < field m.o2 0 4 ∧ field m.o2 4 2 = 3) ∨ m.b.toNat % 32 ≠ 0 ∨ m.o1.toNat % 32 ≠ 0),
        canonical m.b && extentOk m.b 32 && extentOk m.o1 32 && (match locOf 0 m.o1 with | .own _ => true | _ => false))) =
      [(true, true, true), (true, false, false), (true, false, true), (true, false, true)] ∧
    (0x10FF0 : Word).toNat + 0x20 ≤ 2 ^ 64 ∧ (pagePieces 0x10FF0 0x20).map (·.2) = [0x10, 0x10] := by decide +kernel

/-- A work item of the command 0. -/
def item0 : Item := { uid := 0, k := 0, row := 0, src := 0x8300000000000FF0, dst := 0x8300000000010FF0, n := 16, ord := 0, got := 0, buf := [] }

/-- Engines 5 and 127 with three items and one, and the engine of the step. -/
def engined (m : Cmd) (e : Fin 128) : State :=
  { commanded m with engines := [(5, [item0, { item0 with k := 1 }, { item0 with k := 2 }]), (127, [item0])], act := { eng := e } }

/-- CopySteps: the first of two items and the last, of a CPY and of a FILL; engines whose nearest neighbour, and whose
farthest neighbour alone, holds items. -/
theorem test_witness_copy_items :
    [(0, 2), (0, 1), (3, 2), (3, 1)].all (fun p =>
      let m : Cmd := { cpy 0x20 with t := p.1, st := .started, left := p.2 }
      let s := engined m 5
      engGet s.engines 5 == [item0, { item0 with k := 1 }, { item0 with k := 2 }] && (s.cmd 0).isSome && decide (0 < m.left) &&
      s.mayStart item0 && !s.launch.clearing && s.act.pick == none && s.act.num == 0 && !s.act.later && (s.flightsOf (.cmd 0)).isEmpty &&
      (firstBad s 0 0 item0.dst 16 true).isNone && engineFree s ⟨0, 0⟩ 0 item0.dst 16 && cwCv m.val2 == 0 &&
      (firstBad s 0 0 item0.src 16 false).isNone && engineFree s ⟨0, 0⟩ 0 item0.src 16) = true ∧
    [(4, 0), (126, 0)].all (fun p : Fin 128 × Nat =>
      let s := engined (cpy 0) p.1
      (engGet s.engines p.1.val).isEmpty && !(engGet s.engines ((p.1.val + p.2 + 1) % 128)).isEmpty) = true ∧
    (let s : State := { engined (cpy 0) 5 with engines := [(4, [item0])] }
     (engGet s.engines 5).isEmpty && !(engGet s.engines ((5 + 126 + 1) % 128)).isEmpty &&
       (List.range 126).all (fun j => (engGet s.engines ((5 + j + 1) % 128)).isEmpty)) = true := by decide +kernel

/-- CopySteps: an item of each conversion, with its source at hand and the room that it fills. -/
theorem test_witness_copy_conversions :
    [(1, 8), (2, 8), (3, 32), (4, 32), (5, 64), (6, 32)].all (fun p =>
      let m : Cmd := { cpy (BitVec.ofNat 64 (16 + p.1 * 2 ^ 32)) with st := .started, left := 2, kregs := [KReg.empty] }
      let s := engined m 5
      s.cmd 0 == some m && s.mayStart item0 && item0.n % 2 == 0 && item0.buf == [] && field m.val2 32 3 == p.1 &&
      (firstBad s 0 0 item0.src 16 false).isNone && engineFree s ⟨0, 0⟩ 0 item0.src 16 &&
      (firstBad s 0 0 item0.dst p.2 true).isNone && engineFree s ⟨0, 0⟩ 0 item0.dst p.2) = true := by decide +kernel

/-- CopySteps: a CPST that stores and one that adds, alone in its context; a CPY that is over, with token s63 and s0. -/
theorem test_witness_copy_ends :
    [0, 1].all (fun x =>
      let m : Cmd := { cpy 0 with t := 4, b := 0x8300000000000008, o1 := 7, o2 := x, st := .started }
      let s := commanded m
      s.mem.wf && (s.cmd s.act.num).isSome && s.lowerDone m && engineFree s ⟨0, 0⟩ (s.pasidOf m) m.b 8 &&
      accessKey s 0 (s.pasidOf m) m.b true == .ok (chipKey 8)) = true ∧
    [63, 0].all (fun r =>
      let m : Cmd := { cpy 0 with tok := some r, st := .fin }
      let s := commanded m
      (s.cmd s.act.num).isSome && !s.behindRink m && m.dst2.isNone && m.trapAt.isNone && (s.ctx m.cid).landed == [] &&
      !(s.ctx m.cid).young m.seq && (s.ctx m.cid).st == .live &&
      (s.ctx m.cid).issued == [m.id]) = true := by decide +kernel

/-- A page at 0x10000 whose home is 0x5000 of device memory. -/
def homePage (wr : Bool) : BitVec 20 × Page := (0, { va := 0x10000, lg := 12, pa := 0x5000, rd := true, wr := wr, ex := none })

/-- AtomicAndMigrationSteps: an ATOM and an ATOMNR on a page that is present, and on one that is not. -/
theorem test_witness_atomic_accept :
    [5, 6].all (fun t =>
      let m : Cmd := { atomnr0 with t := t, b := 0x10020, st := .started }
      let s : State := { commanded m with pages := [homePage true] }
      (s.cmd s.act.num).isSome && !s.behindAtomic m && !s.turned m.cid m.b 32 && accessKey s 0 (s.pasidOf m) m.b true == .ok 0x5020 &&
      (let t : State := { commanded m with pages := [nopage] }
       !t.behindAtomic m && !t.turned m.cid m.b 32 && accessKey t 0 (t.pasidOf m) m.b true == .absent)) = true := by decide +kernel

/-- An accepted atomic of the sector at 0x5020 with control word `x`. -/
def accepted (t : Nat) (x : Word) : Cmd :=
  { atomnr0 with t := t, b := 0x10020, o2 := x, st := .accepted, key := 0x5020,
                 opnd := (List.range 64).map (fun i => if i % 4 = 0 then 1 else 0) }

/-- AtomicAndMigrationSteps: an ADD of doublewords, a near BF16 ADD and a CAS may perform; a move of the first and the last
line; a write to a moved line; a marker that is not the last, and the last one. -/
theorem test_witness_atomic_perform :
    [accepted 5 (3 + 2 ^ 16), accepted 6 (1 + 2 ^ 8 + 2 ^ 31), accepted 5 (7 + 2 ^ 17)].all (fun m =>
      (commanded m).mem.wf && ((commanded m).cmd 0).isSome && mayPerform (commanded m) m) = true ∧
    [(0, []), (31, List.finRange 31 |>.map (fun i => i.castSucc))].all (fun p : Fin 32 × List (Fin 32) =>
      let g : Migr := { old := 0x5000, new := 0x9000, pasid := 0, vpage := 0x10000, moved := p.2, told := none, sent := true, ended := p.2 }
      let s : State := { live id with migrs := [g], act := { num := 0x5000, line := p.1 } }
      s.mem.wf && (s.migr s.act.num).isSome && !g.moved.contains p.1 && !g.ended.contains p.1 &&
      !lineBusy s (0x5000 + 128 * p.1.val) && !lineBusy s (0x9000 + 128 * p.1.val)) = true ∧
    (let g : Migr := { old := 0x5000, new := 0x9000, pasid := 0, vpage := 0x10000, moved := [2], told := some 7, sent := false, ended := [] }
     let s : State := { live id with migrs := [g], act := { acc := some (.wr 0x5100 [1, 2]) } }
     forwarded s 0x5100 == 0x9100 && homeFree s 0x5100 2) = true := by decide +kernel

/-- A GATHR of `n` rows of four bytes from chip scratchpad to chip scratchpad, with a miss bitmap. -/
def gathr (n : Nat) : Cmd :=
  { atomnr0 with bus := 11, t := 0, tok := some 5, st := .started,
                 desc := [0x8300000000000000, 4 + 2 ^ 34, 0x8300000000001000, BitVec.ofNat 64 n, 0x8300000000002000, 4,
                          0x8300000000003000, 0] }

/-- IndexAndTreeSteps: a gather with 9 elements left, with one left, and with none; FQCNT. -/
theorem test_witness_index_steps :
    [0, 8].all (fun p =>
      let m : Cmd := { gathr 9 with prog := p }
      let s := commanded m
      (s.cmd s.act.num).isSome && s.act.pick == none && !s.act.flag && ((Eff.start s).nextBatch m).isSome && decide (m.prog < m.gNidx)) = true ∧
    (let m : Cmd := { gathr 9 with prog := 9, cnt := 2 }
     (commanded m).act.num == 0 && decide (m.taken ≤ m.cnt) && !(commanded m).act.later && ((commanded m).flightsOf (.cmd 0)).isEmpty && decide (m.gNidx ≤ m.prog) && engineFree (commanded m) ⟨0, 0⟩ 0 (m.dw 6) m.gMissLen) = true := by
  decide +kernel

/-- What an INDEX_BATCH finds at an element of a gather: the reason to park, and its row and local row. -/
def elementOf (s : State) (m : Cmd) (el : Nat) : Nat × Word × Word :=
  let ix := leNat (readBytes s 0 0 (m.dw 2 + BitVec.ofNat 64 (el * 4)) 4)
  let row := m.dw 0 + BitVec.ofNat 64 (ix * field (m.dw 1) 0 32)
  let loc := m.dw 4 + BitVec.ofNat 64 (el * field (m.dw 5) 0 32)
  (if field m.ixpol 0 32 ≠ 0 ∧ field m.ixpol 0 32 ≤ ix then 1
   else if row.toNat % 4 ≠ 0 then 2
   else if (firstBad s 0 0 row 4 false).isSome || (firstBad s 0 0 loc 4 true).isSome then 4 else 0, row, loc)

/-- A gather of three elements with the indices 2, 1 and 100, from rows of `stride` bytes at `at'`, with a count of its batches. -/
def batched (at' : Word) (stride : Nat) : State :=
  { commanded { gathr 3 with ixpol := 50, desc := (((gathr 3).desc.set 0 at').set 1 (BitVec.ofNat 64 (stride + 2 ^ 34))).set 7 0x8300000000004000 } with
    mem := Mem.applyAll ⟨[]⟩ (wrNat (chipKey 0x1000) 4 2 ++ wrNat (chipKey 0x1004) 4 1 ++ wrNat (chipKey 0x1008) 4 100),
    pages := [nopage] }

/-- IndexAndTreeSteps: batches whose elements are copied, from granules in state E and in state C, lie beyond the bound, are misaligned, and meet a page that is not
there; what they write lies apart from what they read. -/
theorem test_witness_batches :
    [(0x8300000000000000, 4, [0, 0, 1]), (0x8300000000030000, 4, [0, 0, 1]), (0x8300000000000000, 6, [0, 2, 1]), (0x10000, 4, [4, 4, 1])].all
      (fun (p : Word × Nat × List Nat) =>
      let s := batched p.1 p.2.1
      s.mem.wf && s.act.pick == none && !s.act.later && (s.flightsOf (.cmd 0)).isEmpty && s.fqLen 0 == 0 && (s.cmd s.act.num).any (fun m =>
        m.prog == 0 && m.cnt == 0 && m.st == .started && engineFree s ⟨0, 0⟩ 0 (m.dw 2) 12 && engineFree s ⟨0, 0⟩ 0 (m.dw 7) 8 &&
        (List.range 3).map (fun el => (elementOf s m el).1) == p.2.2 && (List.range 3).all (fun el =>
          let e := elementOf s m el
          !s.turned ⟨0, 0⟩ e.2.1 4 && !s.turned ⟨0, 0⟩ e.2.2 4 && (firstBad s 0 0 e.2.2 4 true).isNone &&
          (match firstBad s 0 0 e.2.1 4 false with | some (_, x) => x == .absent | none => true) &&
          (e.1 != 0 || (extentOk e.2.1 4 && !backedAt s 0 e.2.1 4 && extentQuiet s ⟨0, 0⟩ 0 e.2.1 4 && engineFree s ⟨0, 0⟩ 0 e.2.2 4 &&
            (e.2.1.toNat + 4 ≤ 0x8300000000001000 || 0x8300000000030000 ≤ e.2.1.toNat) && e.2.2.toNat == 0x8300000000002000 + 4 * el)))) &&
      accessKey s 0 0 0x8300000000004000 true == .ok (chipKey 0x4000)) = true := by decide +kernel

/-- A bin set of two bins of 16 records. -/
def bins (t prog : Nat) (o1 o2 : Word) : Cmd :=
  { gathr 0 with t := t, o1 := o1, o2 := o2, prog := prog,
                 desc := [0x8300000000010000, 16 + 2 ^ 32 + 0x800000000000000, 0x8300000000000100, 0x8300000000000200, 0, 0, 0, 0] }

/-- Bin 0 of the set is full. -/
def full : State := { commanded (bins 2 0 0x8300000000001000 1) with mem := (⟨[]⟩ : Mem).applyAll (wrNat (chipKey 0x100) 8 16) }

/-- IndexAndTreeSteps: BINPUT that has placed its records, BINPUT into a full bin, BINFLUSH with no line left, BINPLAY past the
last bin. -/
theorem test_witness_bin_steps :
    (bins 2 1 0x8300000000001000 1).bN ≤ 1 ∧ (bins 2 0 0x8300000000001000 1).bN = 1 ∧
    (let m := bins 2 0 0x8300000000001000 1
     accessKey full 0 0 m.o1 false == .ok (chipKey 0x1000) && m.bBin (full.mem.nat (chipKey 0x1000) 4) == 0 &&
     accessKey full 0 0 (m.bCount 0) true == .ok (chipKey 0x100) && decide (m.bCap ≤ (full.mem.word (chipKey 0x100)).toNat) &&
     engineFree full ⟨0, 0⟩ 0 m.o1 8 && engineFree full ⟨0, 0⟩ 0 (m.bCount 0) 8) = true ∧
    (let s : State := { commanded { bins 2 0 0x8300000000001000 1 with desc := (bins 2 0 0 0).desc.set 2 0x10000 } with pages := [nopage] }
     s.cmd 0 |>.any (fun m => decide (m.prog < m.bN) && engineFree s ⟨0, 0⟩ 0 m.o1 8 && engineFree s ⟨0, 0⟩ 0 (m.bCount 0) 8 &&
       accessKey s 0 0 (m.bCount 0) true == .absent)) = true ∧
    (let s := commanded (bins 3 0 0 0)
     (s.clu 0).stg = [] ∧ s.act.later = false ∧ s.act.pick = none ∧ ∀ d ∈ s.cmds, s.flightsOf (.cmd d.uid) = []) ∧ (bins 4 0 2 0).bEnd ≤ (bins 4 0 2 0).bFirst := by decide +kernel

/-- A bin command before it has started: its descriptor lies at the start of chip scratchpad, for bins of `cap` records at `at'`. -/
def binStart (t : Nat) (at' cap : Nat) : State :=
  { commanded { bins t 0 0x8300000000001000 1 with st := .queued, desc := [], b := 0x8300000000000000 } with
    mem := Mem.applyAll ⟨[]⟩ (wrNat (chipKey 0) 8 at' ++ wrNat (chipKey 8) 8 (cap + 2 ^ 32) ++ wrNat (chipKey 16) 8 0x8300000000000100 ++
      wrNat (chipKey 24) 8 0x8300000000000200) }

/-- IndexAndTreeSteps: BINPUT, BINFLUSH and BINPLAY start; their descriptor is good, or breaks OPND, or ADDR. -/
theorem test_witness_bin_starts :
    [2, 3, 4].all (fun t => [(0x8300000000010000, 16), (0x8300000000010000, 15), (0x8300000000010001, 16)].all (fun (p : Nat × Nat) =>
      let s := binStart t p.1 p.2
      s.act.pick == none && (s.cmd s.act.num).any (fun m => m.st == .queued && storesDone (s.ctx m.cid) m.seq && m.b.toNat % 64 == 0 &&
        nearAddr 0 m.b 64 && engineFree s ⟨0, 0⟩ (s.pasidOf m) m.b 64 &&
        (let m' := { m with desc := readWords s 0 (s.pasidOf m) m.b 8 }
         m'.bBadOpnd == (p.2 == 15) && m'.bBadAddr == (p.1 != 0x8300000000010000))))) = true := by decide +kernel

/-- A BINPUT of one record with key 0 into an empty bin; the engine's staging lines are `l`. -/
def placing (l : List StgLine) : State := (commanded (bins 2 0 0x8300000000001000 1)).modClu 0 (fun k => { k with stg := l })

/-- A staging line of bin 0's first block with `n` records, the second in slot 1. -/
def staged (n : Nat) : StgLine :=
  { block := 0x8300000000010000, cid := ⟨0, 0⟩, recs := (List.range n).map (fun i => (i + 1, BitVec.ofNat 64 i)) }

/-- IndexAndTreeSteps: a record that opens a line, joins one and completes one; the engine's lines are full, or none is left
to write; a line's records have homes. -/
theorem test_witness_bin_places :
    [placing [], placing [staged 1], placing [staged 15], placing (List.replicate 256 { staged 1 with block := 0x8300000000010080 })].all
      (fun s =>
        let m := bins 2 0 0x8300000000001000 1
        let a : Word := 0x8300000000010000
        s.act.pick == none && !s.act.later && (s.flightsOf (.cmd 0)).isEmpty && s.cmd 0 == some m && engineFree s ⟨0, 0⟩ 0 m.o1 8 &&
        (readWords s 0 0 m.o1 1).headD 0 == 0 && engineFree s ⟨0, 0⟩ 0 (m.dw 2) 8 && accessKey s 0 0 (m.dw 2) true == .ok (chipKey 0x100) &&
        (s.mem.word (chipKey 0x100)).toNat == 0 && accessKey s 0 0 a true == .ok (chipKey 0x10000) &&
        (s.clu 0).stg.all (fun l => l.free s && accessKey s 0 0 l.block true == l.home s &&
          (match l.home s with | .ok _ => true | _ => false))) = true ∧
    [placing [], placing [staged 1], placing [staged 15], placing (List.replicate 256 { staged 1 with block := 0x8300000000010080 })].map
      (fun s => ((s.clu 0).stg.length, ((s.clu 0).stg.find? (fun y => y.block == 0x8300000000010000)).map (fun l =>
        (l.recs.filter (fun y => y.1 != 0)).length + 1))) = [(0, none), (1, some 2), (1, some 16), (256, none)] ∧
    (let s := placing [staged 1]
     s.mem.wf = true ∧ ((staged 1).recs.map (·.1)).Nodup ∧ (staged 1).recs = [(1, 0)] ∧
     accessKey s 0 (s.ctx ⟨0, 0⟩).pasid 0x8300000000010008 true = .ok (chipKey 0x10000 + 8) ∧
     (List.range 8).all (fun i => accessKey s 0 (s.ctx ⟨0, 0⟩).pasid (0x8300000000010008 + BitVec.ofNat 64 i) true ==
       .ok (chipKey 0x10000 + 8 + i)) = true) := by decide +kernel

/-- A BINPLAY of both bins into two F32 elements. -/
def playing (prog bits key : Nat) (v : Word) : State :=
  let m := { bins 4 prog (2 ^ 32) 0 with bits := bits, key := key, val2 := v }
  { commanded { m with desc := m.desc.set 4 (2 ^ 33) } with
    mem := Mem.applyAll ⟨[]⟩ (wrNat (chipKey 0x10000) 8 (0x3F800000 * 2 ^ 32 + 1) ++ wrNat (chipKey 0x10008) 8 2) }

/-- IndexAndTreeSteps: BINPLAY past its last bin, at a bin's count, after its last record, at a record that is played, and at
one that is skipped. -/
theorem test_witness_bin_plays :
    [playing 2 0 0 0, playing 0 0 0 0, playing 1 1 2 2, playing 0 1 0 2, playing 0 1 1 2].map (fun s => (s.cmd 0).map (fun m =>
      let ra := m.bSlot (m.bFirst + m.prog) m.key
      let ca := m.bCount (m.bFirst + m.prog)
      (decide (m.bEnd ≤ m.bFirst + m.prog), m.bits, decide (m.val2.toNat ≤ m.key),
       engineFree s ⟨0, 0⟩ 0 ca 8 && (match accessKey s 0 0 ca true with | .ok _ => true | _ => false) && engineFree s ⟨0, 0⟩ 0 ra 8 &&
         (match accessKey s 0 0 ra false with
          | .ok k => let key := (s.mem.word k).toNat % 2 ^ 32
              m.bTcnt ≤ key || (engineFree s ⟨0, 0⟩ 0 (m.dw 3 + BitVec.ofNat 64 (4 * key)) 4 &&
                (match accessKey s 0 0 (m.dw 3 + BitVec.ofNat 64 (4 * key)) true with | .ok _ => true | _ => false))
          | _ => false)))) =
      [some (true, 0, true, true), some (false, 0, true, true), some (false, 1, true, true), some (false, 1, false, true),
       some (false, 1, false, true)] := by decide +kernel

/-- IndexAndTreeSteps: a BINFLUSH with a line left. -/
theorem test_witness_bin_flush :
    (let s := (commanded (bins 3 0 0 0)).modClu 0 (fun k => { k with stg := [staged 1] })
     (s.cmd 0).any (fun m => m.lines s == [staged 1]) && (staged 1).free s &&
       (match (staged 1).home s with | .ok _ => true | _ => false)) = true := by decide +kernel

/-- A region in chip scratchpad with keys of 8 bits: one leaf with the keys 5, 6 … of `n` entries, each with the value 1.0;
the words 1, 2 and 4 of its descriptor, for a root that is on no page but the scratchpad's. -/
def region (n : Nat) (cap live w4 : Word) : Mem :=
  let d : Word := 0x8300000000000040
  let root : TNode := { leaf := true, keys := (List.range n).map (· + 5), vals := List.replicate n 0x3F800000, sib := noSib, high := 0,
                        ver := 0 }
  (⟨[]⟩ : Mem).applyAll (wrBytes (chipKey 0x40)
      ([0x8300000000010000, cap, live, BitVec.ofNat 64 n, w4, 0, 0, 0].flatMap (fun x => leBytes 8 x.toNat)) ++
    wrBytes (chipKey 0x10000) ((root.words d).flatMap (leBytes 8)))

/-- A live region of one node. -/
def liveWord : Word := 2 ^ 63 + 1

/-- A tree command before it has started. -/
def treeSt (t : Nat) (b o1 o2 : Word) (m : Mem) : State :=
  { commanded { gathr 0 with t := t, st := .queued, desc := [], b := b, o1 := o1, o2 := o2 } with mem := m }

/-- Whether the turn of the command 0 has come. -/
def treeTurn (s : State) : Bool :=
  s.act.pick == none && !s.act.later && (s.flightsOf (.cmd s.act.num)).isEmpty && (s.cmd s.act.num).any (fun m => m.bus == 11 && m.st == .queued && !s.isParked m &&
    storesDone (s.ctx m.cid) m.seq && !s.behindTree m)

/-- The region of chip scratchpad 0x40, as the command 0 reads it. -/
def regionOf (s : State) : Option Region :=
  (s.cmd 0).bind (fun m => match readRegion s m 0x8300000000000040 with | .ok r => some r | .error _ => none)

/-- Whether the command 0 may write the descriptor and the first three nodes. -/
def mayEdit (s : State) : Bool :=
  let at' (m : Cmd) (a : Word) (n k : Nat) : Bool := match treeKey s m a n true with | .ok x => x == k | .error _ => false
  (s.cmd 0).any (fun m => at' m 0x8300000000000040 64 (chipKey 0x40) &&
    [0, 1, 2].all (fun i => at' m (0x8300000000010000 + BitVec.ofNat 64 (256 * i)) 256 (chipKey 0x10000 + 256 * i)))

/-- Whether the turn of the command 0 has come and it may write, and what `f` says of the region and the command. -/
def treeCase (s : State) (f : Region → Cmd → List Nat) : List Nat :=
  (treeTurn s && mayEdit s).toNat :: match regionOf s, s.cmd 0 with | some r, some m => f r m | _, _ => []

/-- IndexAndTreeSteps: TDECL of a region that is live, of one that is broken (no node) and of one that is neither; TCOUNT and
TPOOL of a region that is not live, and of a live one, the new capacity too small, too large for the pool, and the same. -/
theorem test_witness_tree_regions :
    [treeSt 6 0x8300000000000040 0 0 (region 0 4 liveWord 8), treeSt 6 0x8300000000000040 0 0 (region 0 0 0 8),
      treeSt 6 0x8300000000000040 0 0 (region 0 4 0 8), treeSt 14 0x8300000000000040 0 0 (region 0 4 0 8),
      treeSt 14 0x8300000000000040 0 0 (region 2 4 liveWord 8), treeSt 15 0x8300000000000040 3 0 (region 2 4 liveWord 8),
      treeSt 15 0x8300000000000040 0xFFFFFFFF 0 (region 2 4 liveWord 8), treeSt 15 0x8300000000000040 4 0 (region 2 4 liveWord 8)].map
      (fun s => treeCase s (fun r m => [r.live.toNat, r.broken.toNat, 2 ^ r.h, r.keys.toNat, (decide (field m.o1 0 32 < r.cap)).toNat,
        (r.poolFits (field m.o1 0 32)).toNat])) =
      [[1, 1, 0, 1, 0, 1, 1], [1, 0, 1, 1, 0, 0, 1], [1, 0, 0, 1, 0, 1, 1], [1, 0, 0, 1, 0, 1, 1], [1, 1, 0, 1, 2, 1, 1],
       [1, 1, 0, 1, 2, 1, 1], [1, 1, 0, 1, 2, 0, 0], [1, 1, 0, 1, 2, 0, 1]] := by
  decide +kernel

/-- IndexAndTreeSteps: TLD, TST and TADD of a region that is not live; TADD of 64-bit bit fields; a key beyond the region's; a
key that is there and one that is not, with an element of zero and another; a full leaf that may split, and one that may not. -/
theorem test_witness_tree_keys :
    [treeSt 7 5 0x8300000000000040 0 (region 1 4 0 8), treeSt 9 5 0x8300000000000040 1 (region 1 4 liveWord (8 + 4 * 2 ^ 36)),
      treeSt 8 256 0x8300000000000040 1 (region 1 4 liveWord 8), treeSt 7 255 0x8300000000000040 1 (region 1 4 liveWord 8),
      treeSt 8 5 0x8300000000000040 0 (region 1 4 liveWord 8), treeSt 8 6 0x8300000000000040 0 (region 1 4 liveWord 8),
      treeSt 9 5 0x8300000000000040 0x3F800000 (region 1 4 liveWord 8), treeSt 8 6 0x8300000000000040 1 (region 1 4 liveWord 8),
      treeSt 8 200 0x8300000000000040 1 (region 14 4 liveWord 8), treeSt 8 200 0x8300000000000040 1 (region 14 2 liveWord 8)].map
      (fun s => treeCase s (fun r m => [r.live.toNat, r.fmt, (decide (2 ^ r.bits ≤ m.b.toNat)).toNat] ++
        match pathOf s m r m.b.toNat with
        | .ok ((n, l) :: up) => let need := needOf ((n, l) :: up)
            [n, (l.find m.b.toNat).isSome.toNat, need, (decide (r.cap < r.next + need)).toNat, r.grow.toNat]
        | _ => [])) =
      [[1, 0, 0, 0, 0, 1, 0, 0, 0], [1, 1, 4, 0, 0, 1, 0, 0, 0], [1, 1, 0, 1, 0, 0, 0, 0, 0], [1, 1, 0, 0, 0, 0, 0, 0, 0],
       [1, 1, 0, 0, 0, 1, 0, 0, 0], [1, 1, 0, 0, 0, 0, 0, 0, 0], [1, 1, 0, 0, 0, 1, 0, 0, 0], [1, 1, 0, 0, 0, 0, 0, 0, 0],
       [1, 1, 0, 0, 0, 0, 2, 0, 0], [1, 1, 0, 0, 0, 0, 2, 1, 0]] := by
  decide +kernel

/-- IndexAndTreeSteps: the root and the higher nodes of a split: fewer than 15 keys; 15 keys of a root, and of a node below
another; a node within 14 keys; a box of two positions and the coordinate of its last. -/
theorem test_witness_tree_nodes :
    let nd (n : Nat) : TNode := { leaf := true, keys := List.range n, vals := List.range n, sib := noSib, high := 0, ver := 0 }
    (nd 14).keys.length < 15 ∧ (nd 15).keys.length = 15 ∧ (nd 14).keys.length ≤ 14 ∧ (nd 14).vals.length = (nd 14).keys.length + 0 ∧
    (let m : Cmd := { gathr 0 with desc := [0, 0, 0, 0, 0, 2] }
     let r : Region := { d := 0, w := [0, 0, 0, 0, 8] }
     r.rank = 1 ∧ ∀ i, i < r.rank → (fun _ => 1) i < field (m.dw (5 + i / 2)) (32 * (i % 2)) 32) := by
  refine ⟨by decide, by decide, by decide, by decide, by decide, fun i h => ?_⟩
  have h : i = 0 := by have : i < 1 := h; omega
  subst h; decide

/-- A cursor record at chip scratchpad 0x400: its state and limit, first and last keys and OUT. -/
def cursorAt (t : Nat) (st lim : Nat) (lo hi out : Word) : State :=
  treeSt t 0x8300000000000400 0x8300000000000040 0 ((region 2 4 liveWord 8).applyAll (wrBytes (chipKey 0x400)
    ([0x8300000000000040, lo, hi, lo, out, BitVec.ofNat 64 (st * 2 ^ 62 + lim * 2 ^ 56), 0, 0].flatMap (fun x => leBytes 8 x.toNat))))

/-- IndexAndTreeSteps: TCLOSE, TNEXT and TSCAN: a record of each state, a limit out of range, OUT misaligned, a range that is over
before it begins, and one that is not, with OUT at hand and on a page that is not there. -/
theorem test_witness_tree_cursors :
    [(12, 1), (12, 3), (11, 2), (11, 0), (11, 1), (10, 0)].map (fun p =>
      let s := cursorAt p.1 p.2 14 0 255 0x8300000000001000
      treeCase s (fun _ m => [m.b.toNat % 64, (nearAddr 0 m.b 64).toNat, (engineFree s ⟨0, 0⟩ (s.treePasid m) m.b 64).toNat,
        field ((readWords s 0 (s.treePasid m) m.b 8).getD 5 0) 62 2])) =
      [[1, 0, 1, 1, 1], [1, 0, 1, 1, 3], [1, 0, 1, 1, 2], [1, 0, 1, 1, 0], [1, 0, 1, 1, 1], [1, 0, 1, 1, 0]] ∧
    [cursorAt 11 1 0 0 255 0x8300000000001000, cursorAt 10 0 15 0 255 0x8300000000001000, cursorAt 10 0 14 0 255 0x8300000000001008,
      cursorAt 10 0 1 256 300 0x8300000000001000, cursorAt 10 0 1 0 255 0x8300000000001000, cursorAt 11 1 14 5 5 0x10000].map (fun s =>
      let s : State := { s with pages := [nopage] }
      treeCase s (fun r m =>
        let w := readWords s 0 (s.treePasid m) m.b 8
        let lim := field (w.getD 5 0) 56 4
        let nk := (w.getD 1 0).toNat
        [lim, (w.getD 4 0).toNat % 16, (extentIn 0 (w.getD 4 0) (16 * lim)).toNat, r.live.toNat,
          (decide ((w.getD 2 0).toNat < nk ∨ 2 ^ r.bits ≤ nk)).toNat,
          (match pathOf s m r nk with | .ok ((_, l) :: _) => (l.keys.filter (fun k => nk ≤ k && k ≤ (w.getD 2 0).toNat)).length | _ => 99),
          match firstBad s 0 (s.treePasid m) (w.getD 4 0) 16 true with
          | some (a, .absent) => a.toNat
          | some _ => 1
          | none => (engineFree s ⟨0, 0⟩ (s.treePasid m) (w.getD 4 0) 32).toNat * 2])) =
      [[1, 0, 0, 1, 1, 0, 2, 2], [1, 15, 0, 1, 1, 0, 2, 2], [1, 14, 8, 1, 1, 0, 2, 2], [1, 1, 0, 1, 1, 1, 0, 2],
       [1, 1, 0, 1, 1, 0, 2, 2], [1, 14, 0, 1, 1, 0, 1, 0x10000]] := by decide +kernel

/-- A TDENSE of `n` positions from key `lo` to `dst`, one element after another (or `str` bytes apart), before it starts. -/
def dense (lo dst n str : Nat) (live : Word) : State :=
  treeSt 13 0x8300000000000040 0x8300000000000800 0 ((region 2 4 live 8).applyAll (wrBytes (chipKey 0x800)
    ([lo, 0, 0, 0, dst, n, 0, 0, str, 0, 0, 0, 0, 0, 0, 0].flatMap (leBytes 8))))

/-- IndexAndTreeSteps: TDENSE starts on a region that is not live, with a misaligned stride, on a box that leaves the region, and
on one that fits. -/
theorem test_witness_dense_starts :
    [dense 5 0x8300000000001000 2 4 0, dense 5 0x8300000000001000 2 3 liveWord, dense 255 0x8300000000001000 2 4 liveWord,
      dense 254 0x8300000000001000 2 4 liveWord].map (fun s => treeCase s (fun r m =>
        let m' := { m with desc := readWords s 0 (s.pasidOf m) m.o1 16 }
        [m.o1.toNat % 128, (nearAddr 0 m.o1 128).toNat, (engineFree s ⟨0, 0⟩ (s.pasidOf m) m.o1 128).toNat, r.live.toNat,
          (m'.dw 4).toNat % (r.size / 8), (m'.dw 8).toNat % (r.size / 8),
          (decide (2 ^ r.width 0 < (m'.dw 0).toNat + field (m'.dw 5) 0 32)).toNat,
          (m'.xFits r && m'.xKnown s r && !m'.xUnlinked s r).toNat])) =
      [[1, 0, 1, 1, 0, 0, 0, 0, 1], [1, 0, 1, 1, 1, 0, 3, 0, 1], [1, 0, 1, 1, 1, 0, 0, 1, 1], [1, 0, 1, 1, 1, 0, 0, 0, 1]] := by
  decide +kernel

/-- The TDENSE of two positions, started, with `res` read and `n` of them written to `dst`. -/
def denseOn (dst : Word) (res : List ItemRes) (n : Nat) : State :=
  { commanded { gathr 0 with t := 13, b := 0x8300000000000040, o1 := 0x8300000000000800,
                             desc := [254, 0, 0, 0, dst, 2, 0, 0, 4, 0, 0, 0, 0, 0, 0, 0], res := res, prog := n } with
    mem := region 2 4 liveWord 8, pages := [nopage] }

/-- A position that is read. -/
def readAt (i : Nat) : ItemRes := { k := i, row := 0, dst := 0x3F800000, want := 0, done := 0, page := true }

/-- A position that is read and written. -/
def readDone (i : Nat) : ItemRes := { readAt i with done := 1 }

/-- IndexAndTreeSteps: a TDENSE that reads its first and its last position, that writes the sector of both, that writes one alone,
that meets a page that is not there, and that ends. -/
theorem test_witness_dense_steps :
    [denseOn 0x8300000000001000 [] 0, denseOn 0x8300000000001000 [readAt 0] 0, denseOn 0x8300000000001000 [readAt 0, readAt 1] 0,
      denseOn 0x830000000000101C [readDone 0, readAt 1] 0, denseOn 0x10000 [readAt 0, readAt 1] 0,
      denseOn 0x8300000000001000 [readDone 0, readDone 1] 0].map (fun s =>
      (s.act.pick == none && !s.act.later && (s.flightsOf (.cmd 0)).isEmpty).toNat :: treeCase s (fun r m =>
        let x := (m.res.find? (fun y => y.done == 0)).getD (readAt 0)
        [(m.st == .started && !m.desc.isEmpty && !s.isParked m && storesDone (s.ctx m.cid) m.seq && !s.behindTree m && r.live).toNat,
          (m.xNext r 0).getD 9, (m.res.all (fun y => y.done != 0)).toNat,
          (match firstBad s 0 (s.treePasid m) (m.xAddr r x.k) 4 true with
          | some (a, .absent) => a.toNat
          | some _ => 1
          | none => (engineFree s ⟨0, 0⟩ (s.treePasid m) (m.xAddr r x.k) 4).toNat * 2),
          (match pathOf s m r (m.xKey r 1) with | .ok (_ :: _) => 1 | _ => 0)])) =
      [[1, 0, 1, 0, 1, 2, 1], [1, 0, 1, 1, 0, 2, 1], [1, 0, 1, 9, 0, 2, 1], [1, 0, 1, 9, 0, 2, 1], [1, 0, 1, 9, 0, 0x10000, 1],
       [1, 0, 1, 9, 1, 2, 1]] := by decide +kernel

/-- IndexAndTreeSteps: a parked element of each reason. -/
theorem test_witness_replay :
    ([(1, 0), (2, 0), (4, 2 ^ 34)] : List (Nat × Word)).all (fun p =>
      let m : Cmd := { gathr 9 with prog := 9, ixpol := p.2, left := 1 }
      let s := (commanded m).modClu 0 (fun k => { k with fq := [{ uid := 0, elem := 8, ix := 3, reason := p.1, asked := none, taken := false }] })
      (s.clu s.act.clu).fq.length == 1 && (s.cmd 0).isSome && !s.launch.clearing && !s.act.later && (s.flightsOf (.cmd 0)).isEmpty && engineFree s ⟨0, 0⟩ 0 (m.gLocal 8) m.gRowb &&
      ((p.1 == 1 && m.bpol == 0) || (p.1 == 2 && m.apol == 0) || (p.1 == 4 && m.ppol == 1))) = true := by decide +kernel

/-- A rink command on the set 2. -/
def rinkCmd (t : Nat) (b o1 o2 : Word) : Cmd := { gathr 0 with bus := 14, t := t, st := .queued, desc := [], b := b, o1 := o1, o2 := o2 }

/-- Two live sets of one way of slice 0: handles 1 and 2; the lanes 3 and 4095 of the second one are tagged. -/
def sets2 : List RinkSet :=
  let r : RinkSet := { handle := 1, live := true, off := false, wm := 1, slices := [0], rows := List.replicate 512 0, tags := 0,
                       key := 0, mask := 0, kbase := 0 }
  [r, { r with handle := 2, wm := 2, tags := 2 ^ 4095 + 8 }]

/-- One set of 256 that leave no handle. -/
def fullSet (h : Nat) : RinkSet :=
  { handle := h + 1, live := true, off := false, wm := 1, slices := [1], rows := [], tags := 0, key := 0, mask := 0, kbase := 0 }

/-- RinkSteps: an RKON with no way, with no slice, on a live set, and on free ways, with handle 3; one when no handle is left; the
switch of its last slice. -/
theorem test_witness_rink_admit :
    [rinkCmd 0 0 1 0, rinkCmd 0 1 0 0, rinkCmd 0 3 1 0, rinkCmd 0 4 1 (2 ^ 63)].map (fun m =>
      (decide ((m.b.setWidth 8 : BitVec 8) = 0), m.sliceSet, sets2.any (fun r => r.wm &&& m.b.setWidth 8 != 0 && r.slices.any (fun i => m.sliceSet.contains i))))
      = [(true, [0], false), (false, [], false), (false, [0], true), (false, [0, 127], false)] ∧
    [1, 2].all (fun h => sets2.any (fun r => r.handle == h)) = true ∧ sets2.all (fun r => r.handle != 3) = true ∧
    (List.range 256).all (fun h => ((List.range 256).map fullSet).any (fun r => r.handle == h + 1)) = true ∧
    (let m : Cmd := { rinkCmd 0 4 1 0 with st := .started, slices := [7], prog := 3 }
     let s : State := { commanded m with act := { eng := 7 } }
     (s.cmd s.act.num).isSome && !sliceBusy s (m.b.setWidth 8) 7) = true := by decide +kernel

/-- RinkSteps: a handle that names no set; a range whose first lane is the set's last but one, one that starts at its last, and one
that leaves it; a bad row; and each command of the set that passes its checks. -/
theorem test_witness_rink_steps :
    let at' (first num : Word) : Word := 2 + first * 2 ^ 16 + num * 2 ^ 40
    [rinkCmd 5 0 9 0, rinkCmd 5 0 (at' 4094 2) 0, rinkCmd 5 0 (at' 4095 1) 0, rinkCmd 5 0 (at' 4000 97) 0, rinkCmd 1 0 2 0,
      rinkCmd 4 (496 * 2 ^ 32) 2 0, rinkCmd 6 (2 ^ 41 + 0x10001) (at' 0 4096) 0, rinkCmd 7 (2 ^ 57 + 2 ^ 45) (at' 3 1) 3,
      rinkCmd 8 0 (at' 3 1) 0, rinkCmd 9 0 (at' 4 4000) 0, rinkCmd 10 0 (at' 0 64) 0].map (fun m =>
      let s : State := { commanded m with sets := sets2 }
      [(s.liveSet m.handle).isSome.toNat, ((s.liveSet m.handle).any (fun r => m.badRange r)).toNat, m.badRows.toNat,
        (s.cmds.all (fun c => c.uid == m.uid) && m.st == .queued && m.seen.isEmpty && s.act.pick == none && storesDone (s.ctx m.cid) m.seq && !s.act.flag && (s.liveSet m.handle).all (fun r => r.rows.length == 512)).toNat]) =
      [[0, 0, 0, 1], [1, 0, 0, 1], [1, 1, 0, 1], [1, 1, 0, 1], [1, 0, 0, 1], [1, 0, 0, 1], [1, 0, 0, 1], [1, 0, 0, 1], [1, 0, 0, 1],
       [1, 0, 0, 1], [1, 0, 0, 1]] := by decide +kernel

/-- RinkSteps: RKLDT and RKSTT out of reach, to a peer that no port reaches, to a page that is not there, and in chip scratchpad. -/
theorem test_witness_rink_transposes :
    [2, 3].all (fun t => ([0x8500000000000000, 0x10000, 0x20000, 0x8300000000000000] : List Word).map (fun b =>
      let m := rinkCmd t b (2 + 64 * 2 ^ 40) (3 * 2 ^ 9)
      let far : Page := { va := 0x10000, lg := 12, pa := 0xC0 * 2 ^ 56 + 2 ^ 48, rd := true, wr := true, ex := none }
      let s : State := { commanded m with sets := sets2, pages := [(0, far), (0, absentPage 0x20000)] }
      let len := 32
      let wr := t == 3
      let v := ((Eff.start s).grants m [(b, len)]).st
      [(mxReach 0 b && extentOk b len).toNat, (pagesKnown s 0 (s.pasidOf m) b len).toNat, (unlinked s 0 (s.pasidOf m) b len wr).toNat,
        (match firstBad s 0 (s.pasidOf m) b len wr with
         | some (a, _) => 2 * (engineFree v ⟨0, 0⟩ (s.pasidOf m) b (a - b).toNat).toNat
         | none => (engineFree v ⟨0, 0⟩ (s.pasidOf m) b len).toNat),
        ((s.liveSet m.handle).all (fun r => !m.badRange r && m.count r == 64)).toNat + (!s.act.later && (s.flightsOf (.cmd 0)).isEmpty).toNat]) ==
      [[0, 1, 0, 2, 2], [1, 1, 1, 2, 2], [1, 1, 0, 2, 2], [1, 1, 0, 1, 2]]) = true := by decide +kernel
/-! ### Steps of progress, launch and translation -/

/-- The pages of 64 KiB at 0x1000000, where the lift rings are. -/
def liftPage : BitVec 20 × Page := (0, { va := 0x1000000, lg := 16, pa := 0x1000000, rd := true, wr := true, ex := none })

/-- A context with one post-queue entry, in a launch whose rings of 16 records are at 0x1000000. -/
def posting (k : PostKind) : State :=
  let s := live (fun c => { c with post := [{ seq := 0, kind := k }] })
  { s with launch := { s.launch with liftb := 0x1000000, liftcap := 16 }, pages := [liftPage, nopage] }

/-- A record. -/
def rec0 : LRec := { code := 0x2000, frame := 7, join := 0, ctrl := 0, ord := 0, slot := 0 }

/-- ProgressSteps: SPAWN of no record, and in front of one free place of its cluster's ring and of the device queue; a full ring, and
both full; a ring named by the nearest cluster of a group, and by none; JOINI with ADD and without, and of a page that is not there;
TDONE of the first and the last bit, and of a block that is not there. -/
theorem test_witness_post_entries :
    let s (c h : Word) (q n : Nat) : State := (posting (.spawn c 0 0 h)).setRing q (List.replicate n rec0)
    [(0, 3, 3), (0x1000, 3, 3), (0x1000, 2 * 2 ^ 8, 64)].all (fun p : Word × Word × Nat =>
      let s := s p.1 p.2.1 p.2.2 15
      storesDone (s.ctx s.act.cid) 0 && ringFor s s.act.cid p.2.1 == p.2.2 && s.pushRing s.act.cid p.2.1 == some p.2.2 &&
      (match s.slotKey p.2.2 (s.nextSlot p.2.2) true with | .ok _ => true | _ => false)) = true ∧
    (let t := s 0x1000 3 3 16
     let u := t.setRing 64 (List.replicate 16 rec0)
     (t.ring 3).length = 16 ∧ (t.ring 64).length = 0 ∧ (u.ring 3).length = 16 ∧ (u.ring 64).length = 16) ∧
    (let t : State := { s 0x1000 (2 ^ 8 + 5 * 2 ^ 16) 3 0 with groups := [(5, { members := 2 ^ 513, arrived := 0, phase := 0, broken := false })] }
     clusterHas (groupsGet t.groups 5) 2 = true ∧ [0, 1].all (fun c => !clusterHas (groupsGet t.groups 5) c) = true ∧
     (groupsGet t.groups 5).members.getLsbD 513 = true ∧ (groupsGet t.groups 6).members = 0) ∧
    [true, false].all (fun add =>
      let s := posting (.joini 0x8300000003FFFF80 5 add)
      s.mem.wf && storesDone (s.ctx s.act.cid) 0 && blockKey s s.act.cid 0x8300000003FFFF80 true == .ok (chipKey 0x3FFFF80) &&
      !keyHeld s (chipKey 0x3FFFF80) 40 && !atomicHeld s (chipKey 0x3FFFF80) 40) = true ∧
    (let s := posting (.joini 0x10000 5 true)
     storesDone (s.ctx s.act.cid) 0 && blockKey s s.act.cid 0x10000 true == .absent && !s.launchPage 0x10000) = true ∧
    [0, 63].all (fun bit =>
      let s := posting (.tdone 0x8300000000000040 bit true 7)
      allCounted s s.act.cid 0 && (match actionPlace s s.act.cid 0x8300000000000040 bit with
        | .at k j => k == chipKey 0x40 && j == chipKey (0x80 + 8 * bit)
        | _ => false)) = true ∧
    (let s := posting (.tdone 0x10000 0 true 7)
     allCounted s s.act.cid 0 && (match actionPlace s s.act.cid 0x10000 0 with | .gone _ => true | _ => false)) = true := by
  decide +kernel

/-- A context whose EXIT or HALT has run its bundles; the join record of a context with count `n`. -/
def ending (k : XKind) : State :=
  live (fun c => { c with xfer := some { kind := k, target := 0, left := 0 }, stores := [{ seq := 0, a := 0, wr := [(1, 2)], rem := 2 }],
                          haltAt := if k = .halt then some (9, 3) else none })

/-- A context at its join step with the record at `at'`, whose count is `n` and whose continuation starts at `code`. -/
def joiningAt (at' : Word) (n code : Nat) (root : Word) : State :=
  let s := (posting (.spawn 0 0 0 0)).modCtx ⟨0, 0⟩ (fun c => { c with st := .joining, joinp := at', post := [] })
  { s with mem := (⟨[]⟩ : Mem).applyAll (wrNat (chipKey 0x40) 4 n ++ wrNat (chipKey 0x48) 8 code ++ wrNat (chipKey 0x60) 8 1),
           launch := { s.launch with rootj := root } }

/-- ProgressSteps: EXIT and HALT; join records that are none, on a page that is not there, and with counts 0, 2, 1 with a
continuation, 1 without one, and 1 of the root's. -/
theorem test_witness_ends :
    [XKind.exit, .halt].all (fun k => ((ending k).ctx ⟨0, 0⟩).xfer == some { kind := k, target := 0, left := 0 } &&
      ((ending k).ctx ⟨0, 0⟩).st == .live && firstDue ((ending k).ctx ⟨0, 0⟩).due == none) = true ∧
    (ending .halt).launch.clearing = false ∧ (ending .halt).launch.st = .running ∧ (ending .halt).launch.fault = none ∧
    firstHalt (ending .halt) = some (⟨0, 0⟩, 9) ∧
    [joiningAt 0 0 0 0, joiningAt 0x10000 0 0 0, joiningAt 0x8300000000000040 0 0 0, joiningAt 0x8300000000000040 2 0 0,
      joiningAt 0x8300000000000040 1 0x3000 0, joiningAt 0x8300000000000040 1 0 0,
      joiningAt 0x8300000000000040 1 0 0x8300000000000040].map (fun s =>
      let c := s.ctx s.act.cid
      [(c.st == .joining && c.post.isEmpty && firstDue c.due == none && s.mem.wf).toNat, (sharedAddr c.joinp).toNat,
       (match blockKey s s.act.cid c.joinp true with | .ok k => k - chipKey 0 | .absent => 1 | _ => 2),
       (keyHeld s (chipKey 0x40) 40 || atomicHeld s (chipKey 0x40) 40).toNat, s.mem.nat (chipKey 0x40) 4,
       (s.mem.word (chipKey 0x48)).toNat, (c.joinp == s.launch.rootj).toNat, (s.launchPage c.joinp).toNat,
       (s.pushRing s.act.cid (s.mem.word (chipKey 0x60))).getD 99,
       (match s.slotKey 1 (s.nextSlot 1) true with | .ok _ => 1 | _ => 0),
       (s.launch.st == .running && !s.launch.clearing && s.launch.fault == none).toNat]) =
      [[1, 1, 2, 0, 0, 0, 1, 1, 1, 1, 1], [1, 1, 1, 0, 0, 0, 0, 0, 1, 1, 1], [1, 1, 0x40, 0, 0, 0, 0, 0, 1, 1, 1],
       [1, 1, 0x40, 0, 2, 0, 0, 0, 1, 1, 1], [1, 1, 0x40, 0, 1, 0x3000, 0, 0, 1, 1, 1], [1, 1, 0x40, 0, 1, 0, 0, 0, 1, 1, 1],
       [1, 1, 0x40, 0, 1, 0, 1, 1, 1, 1, 1]] := by decide +kernel

/-- ProgressSteps: a pop from a cluster's first ring with a record, at the 16th pop, from the device queue, from another cluster, and
none; a gated core; the last arrival and one before; a bit that is set. -/
theorem test_witness_progress :
    (let s := (live id).setRing 3 [rec0]
     let t := ((live id).setRing 3 [rec0]).setRing 1 [{ rec0 with ord := 1 }]
     let t := t.modClu 0 (fun k => { k with pops := 15 })
     let u := (live id).setRing 64 [rec0]
     let w := (live id).setRing 61 [rec0]
     [s, t, u, w, live id].map (fun s => popFrom s 0) = [some (3, true), some (3, true), some (64, true), some (61, false), none] ∧
     ((s.clu 0).pops + 1) % 16 ≠ 0 ∧ ((t.clu 0).pops + 1) % 16 = 0 ∧ [0, 1, 2].all (fun p => (s.ring p).isEmpty) = true ∧
     [s, t].all (fun s => ((s.ring 3).head?).any (fun r => ((s.ring 1).head?).all (fun x => r.ord < x.ord) && (s.ring 0).isEmpty &&
       (s.ring 2).isEmpty)) = true ∧
     [u, w].all (fun s => [0, 1, 2, 3].all (fun p => (s.ring p).isEmpty)) = true ∧ (w.ring 64).isEmpty = true ∧
     (w.ring 60).isEmpty = true ∧ (List.range 60).all (fun q => (w.ring q).isEmpty) = true) ∧
    (let s := State.reset
     [0, 1, 2, 3].all (fun i => ((s.modCore 0 (fun k => { k with ctx := k.ctx.map (fun c => { c with st := .idle }) })).ctx ⟨0, i⟩).st == .idle)) = true ∧
    (let s := ((live id).modCore 0 (fun k => { k with gated := true })).setRing 64 [rec0]
     (s.core 0).gated && s.rings.any (fun r => !r.isEmpty)) = true ∧
    [1, 3].all (fun a =>
      let s : State := { live id with arrivals := [(0, 0)], groups := [(0, { members := a, arrived := a - 1, phase := 0xFFFFFFFF, broken := false })] }
      s.arrivals.contains (0, 0) && (groupsGet s.groups 0).members == a) = true ∧
    (let s := live (fun c => { c with tw := some (0x8300000000000040, (63 : Nat), false), blocked := true })
     let t : State := { s with mem := (⟨[]⟩ : Mem).applyAll (wrNat (chipKey 0x40) 8 (2 ^ 63)) }
     [s, t].all (fun s => (s.ctx ⟨0, 0⟩).tw == some (0x8300000000000040, (63 : Nat), false)) &&
       !bitSet s ⟨0, 0⟩ 0x8300000000000040 63 && bitSet t ⟨0, 0⟩ 0x8300000000000040 63) = true := by decide +kernel

/-- An idle context and one record in a ring, whose storage holds what the record left there. -/
def popping (q : Nat) (m : Mem) : State :=
  let s := ((posting (.spawn 0 0 0 0)).modCtx ⟨0, 0⟩ (fun c => { c with st := .idle, post := [] })).setRing q [rec0]
  { s with mem := m }

/-- ProgressSteps: a record of the device queue, of the context's own cluster and of another one. -/
theorem test_witness_pop (q : Nat) (h : q = 64 ∨ q = 3 ∨ q = 4) :
    ∃ (m : Mem) (k : Nat),
      let s := popping q m
      (s.ctx s.act.cid).st = .idle ∧ (s.core 0).gated = false ∧ s.runs = true ∧ isCsc s.act.cid = false ∧
      popFrom s 0 = some (q, q != 4) ∧ s.ring q = [rec0] ∧ q < 65 ∧ s.slotKey q rec0.slot false = .ok k ∧
      s.mem.nat k 32 = (Config.ringRecord rec0.ord).toNat := by
  refine ⟨(⟨[]⟩ : Mem).applyAll (wrNat (0x1000000 + 512 * q) 32 (Config.ringRecord 0).toNat), 0x1000000 + 512 * q, ?_⟩
  have hm : (popping q ((⟨[]⟩ : Mem).applyAll (wrNat (0x1000000 + 512 * q) 32 (Config.ringRecord 0).toNat))).mem.nat
      (0x1000000 + 512 * q) 32 = (Config.ringRecord rec0.ord).toNat := by
    show leNat (((⟨[]⟩ : Mem).applyAll (wrBytes (0x1000000 + 512 * q) (leBytes 32 (Config.ringRecord 0).toNat))).bytes
      (0x1000000 + 512 * q) 32) = _
    have hb := Mem.bytes_wrBytes (m := ⟨[]⟩) (by decide) (0x1000000 + 512 * q) (leBytes 32 (Config.ringRecord 0).toNat)
    rw [show (leBytes 32 (Config.ringRecord 0).toNat).length = 32 by simp] at hb
    rw [hb, leNat_leBytes]
    exact Nat.mod_eq_of_lt (by have := (Config.ringRecord 0).isLt; simpa using this)
  refine ⟨?_, ?_, ?_, ?_, ?_, ?_, ?_, ?_, hm⟩ <;> (rcases h with rfl | rfl | rfl <;> decide +kernel)

/-- A booted device on whose host's pages the lift rings are. -/
def startBase : State :=
  { State.reset with pages := [liftPage, (0, absentPage 0x2000000)], boot := { State.reset.boot with recovery := false },
                     act := { word := 0x8300000000000000 } }

/-- The host has placed a start vector, a group table and a join record in chip scratchpad: core 0 starts at `e`, the rings take
`cap` records, the group table is at `gt`, and the first words of its groups are `ms`. -/
def startWith (e cap gt : Nat) (ms : List Nat) : State :=
  let word (off x : Nat) : List Wr := wrNat (chipKey off) 8 x
  { startBase with mem := (⟨[]⟩ : Mem).applyAll (word 8 gt ++ word 0x28 0x8300000000040000 ++ word 0x30 0x1000000 ++ word 0x38 cap ++
      word 0x80 e ++ ms.zipIdx.flatMap (fun p => word (0x10000 + 512 * p.2) p.1)) }

/-- A launch that passes every check: core 0 is the one member of group 0. -/
def startable : State := startWith 0x1000 16 0x8300000000010000 [1]

/-- The host's address of the start vector. -/
def startAt : Word := 0x8300000000000000

theorem bytes_zero (m : Mem) (n : Nat) : ∀ k, m.cells.all (fun c => c.1 < k || k + n ≤ c.1) = true → leNat (m.bytes k n) = 0 := by
  induction n with
  | zero => intro k _; rfl
  | succ n ih =>
    intro k h
    have h0 : m.get k = 0 := by
      unfold Mem.get
      revert h
      generalize m.cells = l
      induction l with
      | nil => intro _; rfl
      | cons c r ih =>
        obtain ⟨a, b⟩ := c
        simp only [List.all_cons, Bool.and_eq_true, Bool.or_eq_true, decide_eq_true_eq, cellsGet]
        rintro ⟨h1, h2⟩
        rw [if_neg (by omega)]
        exact ih h2
    have h1 := ih (k + 1) (by
      rw [List.all_eq_true] at h ⊢
      intro c hc
      have := h c hc
      simp only [Bool.or_eq_true, decide_eq_true_eq] at this ⊢
      omega)
    simp [Mem.bytes, leNat, h0, h1]

/-- No byte of a memory is listed in a range. -/
def clearOf (m : Mem) (lo hi : Nat) : Bool := m.cells.all (fun c => c.1 < lo || hi ≤ c.1)

theorem clearOf_bytes {m : Mem} {lo hi k n : Nat} (h : clearOf m lo hi = true) (h1 : lo ≤ k) (h2 : k + n ≤ hi) :
    leNat (m.bytes k n) = 0 := by
  refine bytes_zero m n k ?_
  rw [clearOf, List.all_eq_true] at h
  rw [List.all_eq_true]
  intro c hc
  have := h c hc
  simp only [Bool.or_eq_true, decide_eq_true_eq] at this ⊢
  omega

/-- Where the entries of the start vector and of the group table are. -/
theorem start_reach : (List.range 4096).all (fun n =>
      accessKey startBase 0 0 (startAt + BitVec.ofNat 64 (0x80 + 8 * n)) false == .ok (chipKey (0x80 + 8 * n))) = true ∧
    (List.range 256).all (fun g =>
      accessKey startBase 0 0 (0x8300000000010000 + BitVec.ofNat 64 (512 * g)) false == .ok (chipKey (0x10000 + 512 * g))) = true := by
  decide +kernel

/-- The entries of a start vector from the `k`-th on are zero where no byte of them is listed. -/
theorem start_entry {m : Mem} {k : Nat} (h : clearOf m (chipKey (0x80 + 8 * k)) (chipKey 0x8080) = true) (n : Nat) (h0 : k ≤ n)
    (hn : n < 4096) : entryOf { startBase with mem := m } 0 startAt n = 0 := by
  have := List.all_eq_true.1 start_reach.1 n (List.mem_range.2 hn)
  unfold entryOf fieldAt
  rw [show accessKey { startBase with mem := m } 0 0 (startAt + BitVec.ofNat 64 (0x80 + 8 * n)) false = .ok (chipKey (0x80 + 8 * n)) from
    eq_of_beq this]
  show BitVec.ofNat 64 (leNat (m.bytes _ 8)) = 0
  rw [clearOf_bytes h (by unfold chipKey; omega) (by unfold chipKey; omega)]
  rfl

/-- The groups of a table from the `k`-th on have no member where no byte of them is listed. -/
theorem start_group {m : Mem} {k : Nat} (h : clearOf m (chipKey (0x10000 + 512 * k)) (chipKey 0x30000) = true) (g : Nat) (h0 : k ≤ g)
    (hg : g < 256) : tableGroup { startBase with mem := m } 0 0x8300000000010000 g = 0 := by
  have := List.all_eq_true.1 start_reach.2 g (List.mem_range.2 hg)
  unfold tableGroup
  rw [show accessKey { startBase with mem := m } 0 0 (0x8300000000010000 + BitVec.ofNat 64 (512 * g)) false =
    .ok (chipKey (0x10000 + 512 * g)) from eq_of_beq this]
  show BitVec.ofNat 4096 (leNat (m.bytes _ 512)) = 0
  rw [clearOf_bytes h (by unfold chipKey; omega) (by unfold chipKey; omega)]
  rfl

/-- Start vectors in R318's order: no core, too few records in a ring, a misaligned group table, a group with a core outside the
launch, a core in five groups, and none of these. -/
def starts : List State :=
  [startWith 0 16 0x8300000000010000 [1], startWith 0x1000 15 0x8300000000010000 [1], startWith 0x1000 16 0x8300000000010008 [1],
   startWith 0x1000 16 0x8300000000010000 [2], startWith 0x1000 16 0x8300000000010000 [1, 1, 1, 1, 1], startable]

/-- LaunchSteps: what the checks of these vectors that read a field find. -/
theorem test_witness_launch_fields :
    starts.map (fun s =>
      let f (off : Nat) : Word := fieldAt s 0 startAt off
      let cap := (f 0x38).toNat
      [s.boot.recovery.toNat, (present s 0 startAt 0x8080 false == some true).toNat, (entryOf s 0 startAt 0).toNat,
        (16 ≤ cap && cap ≤ 2 ^ 24).toNat, (f 0x08).toNat % 512,
        (sharedAddr (f 0x28) && liftOk s 0 (f 0x30) (65 * 32 * cap) && present s 0 (f 0x08) 0x20000 false == some true &&
          [true, false].all (fun wr => present s 0 (f 0x28) 40 wr == some true && present s 0 (f 0x30) (65 * 32 * cap) wr == some true)).toNat,
        (tableGroup s 0 0x8300000000010000 0).toNat, (clearOf s.mem (chipKey 0x88) (chipKey 0x8080)).toNat,
        (clearOf s.mem (chipKey (0x10000 + 512 * 5)) (chipKey 0x30000)).toNat]) =
      [[0, 1, 0, 1, 0, 1, 1, 1, 1], [0, 1, 0x1000, 0, 0, 1, 1, 1, 1], [0, 1, 0x1000, 1, 8, 1, 1, 1, 1], [0, 1, 0x1000, 1, 0, 1, 2, 1, 1],
       [0, 1, 0x1000, 1, 0, 1, 1, 1, 1], [0, 1, 0x1000, 1, 0, 1, 1, 1, 1]] ∧
    State.reset.boot.recovery = true ∧ (startAt + 8).toNat % 4096 ≠ 0 := by decide +kernel

theorem length_filter_le_of {n k : Nat} {p : Nat → Bool} (h : ∀ g, k ≤ g → g < n → p g = false) (hk : k ≤ n) :
    ((List.range n).filter p).length ≤ k := by
  obtain ⟨d, rfl⟩ := Nat.exists_eq_add_of_le hk
  rw [List.range_add, List.filter_append, List.length_append]
  have h2 : ((List.range d).map (k + ·)).filter p = [] := by
    rw [List.filter_eq_nil_iff]
    intro x hx
    obtain ⟨y, hy, rfl⟩ := List.mem_map.1 hx
    simp [h (k + y) (by omega) (by have := List.mem_range.1 hy; omega)]
  rw [h2]
  have := List.length_filter_le p (List.range k)
  simp only [List.length_range, List.length_nil] at this ⊢
  omega

theorem le_length_filter {n k : Nat} {p : Nat → Bool} (h : ∀ g, g < k → p g = true) (hk : k ≤ n) :
    k ≤ ((List.range n).filter p).length := by
  obtain ⟨d, rfl⟩ := Nat.exists_eq_add_of_le hk
  rw [List.range_add, List.filter_append, List.length_append, List.filter_eq_self.2 (fun g hg => h g (List.mem_range.1 hg))]
  simp

/-- LaunchSteps: the vector without a core, the one whose group names core 1 alone, the one whose core 0 is in five groups, and the
one that passes. -/
theorem test_witness_launch_cores :
    (¬∃ n, n < 4096 ∧ entryOf (startWith 0 16 0x8300000000010000 [1]) 0 startAt n ≠ 0) ∧
    (let s := startWith 0x1000 16 0x8300000000010000 [2]
     (tableGroup s 0 0x8300000000010000 0).getLsbD 1 = true ∧ entryOf s 0 startAt 1 = 0) ∧
    (let s := startWith 0x1000 16 0x8300000000010000 [1, 1, 1, 1, 1]
     (∀ g n, g < 256 → n < 4096 → (tableGroup s 0 0x8300000000010000 g).getLsbD n = true → entryOf s 0 startAt n ≠ 0) ∧
     ¬((List.range 256).filter (fun g => (tableGroup s 0 0x8300000000010000 g).getLsbD 0)).length ≤ 4) ∧
    (∀ g n, g < 256 → n < 4096 → (tableGroup startable 0 0x8300000000010000 g).getLsbD n = true → entryOf startable 0 startAt n ≠ 0) ∧
    (∀ n, n < 4096 → ((List.range 256).filter (fun g => (tableGroup startable 0 0x8300000000010000 g).getLsbD n)).length ≤ 4) := by
  have one (n : Nat) (h : (1 : BitVec 4096).getLsbD n = true) : n = 0 := by
    by_contra h0
    rw [show (1 : BitVec 4096) = 1#4096 from rfl, BitVec.getLsbD_one] at h
    simp_all
  have e5 : ∀ g, g < 5 → tableGroup (startWith 0x1000 16 0x8300000000010000 [1, 1, 1, 1, 1]) 0 0x8300000000010000 g = 1 := by
    decide +kernel
  have g5 : ∀ g, 5 ≤ g → g < 256 → tableGroup (startWith 0x1000 16 0x8300000000010000 [1, 1, 1, 1, 1]) 0 0x8300000000010000 g = 0 :=
    start_group (by decide +kernel)
  have g1 : ∀ g, 1 ≤ g → g < 256 → tableGroup startable 0 0x8300000000010000 g = 0 := start_group (by decide +kernel)
  refine ⟨?_, ⟨by decide +kernel, start_entry (k := 1) (by decide +kernel) 1 (by decide) (by decide)⟩, ⟨?_, ?_⟩, ?_, ?_⟩
  · rintro ⟨n, hn, h⟩
    exact h (start_entry (k := 0) (by decide +kernel) n (by omega) hn)
  · intro g n hg _ h
    by_cases hg5 : g < 5
    · rw [e5 g hg5] at h; obtain rfl := one n h; decide +kernel
    · rw [g5 g (by omega) hg] at h; simp at h
  · have := le_length_filter (n := 256) (k := 5)
      (p := fun g => (tableGroup (startWith 0x1000 16 0x8300000000010000 [1, 1, 1, 1, 1]) 0 0x8300000000010000 g).getLsbD 0)
      (fun g hg => by rw [e5 g hg]; decide +kernel) (by decide)
    omega
  · intro g n hg _ h
    by_cases h0 : g = 0
    · subst h0
      rw [show tableGroup startable 0 0x8300000000010000 0 = 1 by decide +kernel] at h
      obtain rfl := one n h; decide +kernel
    · rw [g1 g (by omega) hg] at h; simp at h
  · intro n _
    have := length_filter_le_of (n := 256) (k := 1) (p := fun g => (tableGroup startable 0 0x8300000000010000 g).getLsbD n)
      (fun g h1 h2 => by rw [g1 g h1 h2]; simp) (by decide)
    omega

theorem filter_range_zero (n : Nat) (p : Nat → Bool) (h0 : p 0 = true) (h : ∀ k, k ≠ 0 → k < n + 1 → p k = false) :
    (List.range (n + 1)).filter p = [0] := by
  rw [List.range_succ_eq_map, List.filter_cons_of_pos h0]
  congr 1
  rw [List.filter_eq_nil_iff]
  intro m hm
  obtain ⟨k, hk, rfl⟩ := List.mem_map.1 hm
  have := List.mem_range.1 hk
  simp [h (k + 1) (by omega) (by omega)]

/-- LaunchSteps: a start vector that passes every check. -/
theorem test_witness_launch_start :
    startable.launch.st ≠ .running ∧ launchCheck startable startable.host.lpasid startAt = none ∧
    entryOf startable startable.host.lpasid startAt 0 = 0x1000 ∧ entryOf startable startable.host.lpasid startAt 4095 = 0 := by
  have en (n : Nat) (h1 : n ≠ 0) (h2 : n < 4096) : entryOf startable 0 startAt n = 0 :=
    start_entry (k := 1) (by decide +kernel) n (by omega) h2
  refine ⟨by decide, ?_, by decide +kernel, en _ (by decide) (by decide)⟩
  show launchCheck startable 0 startAt = none
  have hc : launchCores startable 0 startAt = [0] :=
    filter_range_zero 4095 _ (by decide +kernel) (fun k h0 h => by simpa using en k h0 h)
  have gr : ∀ k, 1 ≤ k → k < 256 → tableGroup startable 0 0x8300000000010000 k = 0 := start_group (by decide +kernel)
  have hg : tableGroups startable 0 0x8300000000010000 = [(0, 1)] := by
    unfold tableGroups
    rw [List.filter_map, filter_range_zero 255 _ (by decide +kernel) (fun k h0 h => by
      show (tableGroup startable 0 0x8300000000010000 k != 0) = false
      rw [gr k (by omega) h]
      exact bne_self_eq_false _)]
    show [(0, tableGroup startable 0 0x8300000000010000 0)] = _
    rw [show tableGroup startable 0 0x8300000000010000 0 = 1 by decide +kernel]
  have h7 : (List.range 4096).all (fun n => (groupsOfCore [(0, 1)] n).length ≤ 4) = true := by
    rw [List.all_eq_true]
    intro n _
    have : (groupsOfCore [(0, 1)] n).length ≤ 1 := by
      unfold groupsOfCore
      rw [List.length_map]
      exact List.length_filter_le _ _
    simp only [decide_eq_true_eq]
    omega
  unfold launchCheck launchChecks
  simp only [show fieldAt startable 0 startAt 0x08 = 0x8300000000010000 by decide +kernel, hc, hg, h7]
  rw [List.find?_eq_none]
  intro x hx
  simp only [List.mem_cons, List.not_mem_nil, or_false] at hx
  rcases hx with rfl | rfl | rfl | rfl | rfl | rfl | rfl <;> decide +kernel

/-- A launch whose checks the L9 goes on with: that vector. -/
def opened : State :=
  { startable with launch := { startable.launch with st := .running, checking := true, sv := startAt }, act := { flag := true } }

/-- LaunchSteps: the checks of an opened launch pass, fail, or need a reply of the host; a step that goes on with no launch, and
with one that has started; a table that is at hand for reading and writing. -/
theorem test_witness_launch_open :
    (opened.launch.st = .running ∧ opened.launch.clearing = false ∧ opened.launch.checking = true ∧ opened.act.flag = true ∧
      launchCheck opened opened.launch.pasid opened.launch.sv = none) ∧
    (let s : State := { opened with launch := { opened.launch with sv := startAt + 8 } }
     let t : State := { opened with launch := { opened.launch with sv := 0x3000000 } }
     launchCheck s s.launch.pasid s.launch.sv = some (2, some false) ∧ launchCheck t t.launch.pasid t.launch.sv = some (2, none)) ∧
    (startBase.launch.st ≠ .running ∧ startBase.act.flag = false ∧
      launchCheck { startBase with act := { word := 0x3000000 } } startBase.host.lpasid 0x3000000 = some (2, none)) ∧
    (let s : State := { live id with act := { flag := true } }
     let t : State := { State.reset with act := { flag := true } }
     s.launch.st = .running ∧ s.launch.checking = false ∧ t.launch.st ≠ .running) ∧
    [true, false].all (fun wr => extentOk 0x1000000 0x8200 && (pageStarts 0x1000000 0x8200).all (fun y =>
      match accessKey startable 0 0 y wr with | .ok _ => true | _ => false)) = true := by
  refine ⟨⟨rfl, rfl, rfl, rfl, ?_⟩, by decide +kernel, by decide +kernel, by decide, by decide +kernel⟩
  exact test_witness_launch_start.2.1

/-- LaunchSteps: a launch that runs; recovery mode; a start vector out of line; a detected fault that no context reports; a launch
that is over. -/
theorem test_witness_launch :
    (live id).launch.st = .running ∧ State.reset.launch.st ≠ .running ∧ startable.launch.st ≠ .running ∧
    launchCheck State.reset 0 startAt = some (6, some false) ∧ launchCheck startable 0 (startAt + 8) = some (2, some false) ∧
    (let s := live id
     let s : State := { s with launch := { s.launch with fault := some (⟨7, 0⟩, 3) } }
     s.launch.st == .running && !s.launch.clearing && s.cores.all (fun p => p.2.ctx.toList.all (fun c => c.st != .halting))) = true ∧
    (let s := ending .halt
     let s : State := { s with launch := { s.launch with clearing := true }, cores := [] }
     s.launch.st == .running && s.launch.clearing && workOver s && s.cmds.all (fun m => !toCut s m)) = true := by decide +kernel

/-- IsolationSteps: a page of the least and the greatest size, answered for its first and its last byte, and none, with no
invalidation outstanding; a reply for a page whose invalidation is; a page request; invalidations at their limit; a context that
may acknowledge; a request that every context has acknowledged; one whose watchdog may expire. -/
theorem test_witness_isolation :
    pageForm { va := 0x10000, lg := 12, pa := 0x5000, rd := true, wr := true, ex := none } = true ∧
    pageForm { va := 2 ^ 64 - 2 ^ 30, lg := 30, pa := 2 ^ 30, rd := true, wr := true, ex := none } = true ∧
    pageForm { va := 0, lg := 11, pa := 0, rd := true, wr := true, ex := none } = false ∧
    [(0x10000, 2 ^ 12), (2 ^ 64 - 2 ^ 30, 2 ^ 30)].all (fun (p : Nat × Nat) => !(live id).keepsOld 0 p.1 p.2) = true ∧
    (let q : Inval := { num := 0, pasid := 0, lo := 0x10000, hi := 0x11000, fired := false }
     let s : State := { live id with invals := [q], pages := [page true], act := { num := 0x10000, page := some (page false).2 } }
     s.invals.contains q && (page true).2.rd && meets q.lo (q.hi - q.lo) 0x10000 4096 && meets 0x10000 4096 0x10000 4096) = true ∧
    (let s : State := { live id with pri := [{ uid := 7, pasid := 0, page := 0x10FFF, write := true, code := none }], act := { num := 7 } }
     (s.pri.find? (fun x => x.uid == s.act.num)).any (fun r => r.code.isNone) && !s.keepsOld 0 0x10000 4096) = true ∧
    (let q : Inval := { num := 0, pasid := 0, lo := 0x10000, hi := 0x11000, fired := false }
     let s : State := { live (fun c => { c with quiet := true }) with invals := List.replicate 31 q, invNext := 1 }
     let t : State := { s with invals := [q], act := { num := 0 } }
     decide (s.invals.length < 32) && mayAck s s.act.cid && (t.invals.find? (fun x => x.num == t.act.num && !x.fired)).isSome &&
     !allAcked t 0 && allAcked (t.modCtx ⟨0, 0⟩ (fun c => { c with ack := 1 })) 0 && invalFree t q) = true := by decide +kernel

/-- IsolationSteps: a quiet context with an accepted ATOMNR and a started copy of which no sector is in flight; an engine's access to
a range that an acknowledged invalidation names; a request at whose old place a sector is in flight. -/
theorem test_witness_quiet :
    let q : Inval := { num := 0, pasid := 0, lo := 0x10000, hi := 0x11000, fired := false }
    (let s : State := { live (fun c => { c with quiet := true }) with
       cmds := [{ atomnr0 with st := .accepted }, { atomnr0 with uid := 1, t := 0, st := .started }] }
     let c := s.ctx s.act.cid
     c.quiet && c.ld == 0 && c.stc == 0 && c.tl == 0 && c.post.isEmpty && s.cmds.all (fun m =>
       if m.bus = 10 ∧ m.t = 6 then m.st == .accepted else m.st != .accepted && (s.flightsOf (.cmd m.uid)).isEmpty)) = true ∧
    (let s : State := { live (fun c => { c with ack := 1 }) with invals := [q] }
     s.invals.contains q && (s.ctx ⟨0, 0⟩).pasid == q.pasid && (s.ctx ⟨0, 0⟩).acked q.num && classify 0x10FFF == .glob 0x10FFF &&
       decide (0x10FFF < q.hi) && decide (q.lo < 0x10FFF + 1)) = true ∧
    (let f : Flight := { of := .cmd 0, wr := [(0x5020, 1)], src := [], grp := 0 }
     let s : State := { live id with invals := [q], pages := [page true], flight := [f] }
     s.pages.contains (page true) && (page true).1 == q.pasid && meets (page true).2.va (2 ^ (page true).2.lg) q.lo (q.hi - q.lo) &&
       physKey s (page true).2.pa == .ok 0x5000 && s.flight.contains f && f.wr.all (fun w => 0x5000 ≤ w.1 && w.1 < 0x5000 + 2 ^ 12)) = true := by
  decide +kernel
/-! ### Steps of recovery and of the outside world -/

/-- A context with traps due, and the host's trap ring set. -/
def trapped (due : List (Nat × Word)) : State :=
  let s := live (fun c => { c with due := due, preempt := due.isEmpty })
  { s with host := { s.host with tlogb := 0x2000000 } }

/-- RecoverySteps: RAS_CTX beside another trap, FATAL_UNPROBED beside ADDRCLASS, and ADDRCLASS alone; traps of a live context and of one
at its join step; a pre-emption alone. -/
theorem test_witness_boundary_traps :
    [[(3, 8), (10, 1)], [(3, 8), (6, 9)], [(3, 8)]].all (fun (l : List (Nat × Word)) => (l.map (·.1)).contains 3) = true ∧
    [[(3, 8), (10, 1)], [(3, 8), (6, 9)], [(3, 8)]].map (fun (l : List (Nat × Word)) =>
      ((l.map (·.1)).contains 10, (l.map (·.1)).contains 6)) = [(true, false), (false, true), (false, false)] ∧
    firstDue (((Eff.start (trapped [(3, 8), (6, 9)])).settle ⟨0, 0⟩).st.ctx ⟨0, 0⟩).due = some (6, 9) ∧
    ((trapped [(3, 8)]).ctx ⟨0, 0⟩).ended = false ∧
    (let s := (trapped [(3, 8)]).modCtx ⟨0, 0⟩ (fun c => { c with st := .joining })
     firstDue (s.ctx ⟨0, 0⟩).due = some (3, 8) ∧ firstDue (((Eff.start s).settle ⟨0, 0⟩).st.ctx ⟨0, 0⟩).due = some (3, 8)) ∧
    (let b := ((Eff.start (trapped [])).settle ⟨0, 0⟩).st.ctx ⟨0, 0⟩
     b.due.isEmpty && b.preempt && !((trapped []).ctx ⟨0, 0⟩).ended) = true := by decide +kernel

/-- A context that stands at a stage of the save, with its save area in device memory and a trap of `cause`. -/
def saving (st : CtxSt) (cause : Nat) (a : List AssistRec) (m : List Cmd) : State :=
  let s := (live (fun c => { c with savea := 0x10000, trap := some ⟨cause, 5, none⟩, assist := a, cp := 1, lastSeq := 1 })).modCtx ⟨0, 0⟩
    (fun c => { c with st := st })
  { s with cmds := m }

/-- The record of a VMUL.F32 in unit 2. -/
def assist0 : AssistRec := { u := 2, t := 16, rem := 4, fpc := 0, rnd := 0, o3 := 0, b := 1, o1 := 0x3F000000, o2 := 0, kr := none }

/-- RecoverySteps: a context that has drained, after pre-emption, a trap that ends the launch, and one at which a debugger holds it,
with the host's trap ring and without; a gather of a halted context that is over; an assist; a resume. -/
theorem test_witness_recovery :
    [0, 6, 7, 10].all (fun cause => [0, 0x2000000].all (fun (ring : Word) =>
      let s := saving .halting cause [] []
      let s : State := { s with host := { s.host with tlogb := ring, dbg := true } }
      let c := s.ctx ⟨0, 0⟩
      s.mem.wf && drained s ⟨0, 0⟩ && (firstDue c.due).isNone && c.due.isEmpty && c.xfer.isNone && c.stores.isEmpty && c.pend.isEmpty &&
        c.loop.isEmpty && s.cmds.all (fun m => !toCut s m) && s.launch.st == .running && !s.launch.clearing && s.launch.fault.isNone &&
        decide (s.host.tlogb.toNat / 4096 ≠ 0) == (ring != 0))) = true ∧
    (let m : Cmd := { gathr 1 with st := .fin, tok := some 63 }
     let s := saving .halted 0 [] [m]
     s.mem.wf && (s.cmd s.act.num).isSome && mayLand s m && (s.flightsOf (.cmd 0)).isEmpty && m.miss.isEmpty) = true ∧
    (let s := saving .halted 4 [assist0] []
     s.mem.wf && (s.ctx s.act.cid).assist == [assist0] && ((s.ctx s.act.cid).trap.bind (fun t => t.sw)).isNone) = true ∧
    (let s := saving .halted 0 [] []
     s.runs && !(s.ctx s.act.cid).dbgHold && (s.ctx s.act.cid).assist.isEmpty && resumeFits s ⟨0, 0⟩ (workAt s ⟨0, 0⟩ 0x10000)) = true := by
  decide +kernel

/-- RecoverySteps: a detected fault of the first and the last of rows 1 to 5, in a context that runs and in one that does not, in a
core's state and in the group unit; of row 6, with a command; of row 8, with its port up and down; of rows 9 and 10, 7 and 11. -/
theorem test_witness_faults :
    [0, 4, 5, 7, 8, 9, 6, 10].map (fun (n : Fin 11) => ({ live id with act := { cls := n } } : State).act.cls.val) =
      [0, 4, 5, 7, 8, 9, 6, 10] ∧
    ((live id).ctx ⟨0, 0⟩).st = .live ∧ ((live id).ctx ⟨0, 1⟩).st = .out ∧ (live id).launch.fault = none ∧
    (commanded atomnr0).cmd 0 = some atomnr0 ∧
    [true, false].all (fun up =>
      let s : State := { State.reset with ports := State.reset.ports.set 5 { State.reset.ports.get 5 with up := up } }
      (s.ports.get 5).up == up) = true := by decide +kernel

/-- HostBarAccess: the last two bytes that the host may write, and the first that it may not. -/
theorem test_witness_host :
    homeFree (live id) (766 * 2 ^ 30 - 2) 2 = true ∧ 766 * 2 ^ 30 - 2 + 2 ≤ 766 * 2 ^ 30 ∧ 766 * 2 ^ 30 < 766 * 2 ^ 30 - 1 + 2 := by
  decide +kernel

/-- Wherever the device's own BAR lies, one of two bus addresses is the host's memory. -/
theorem bus_far : ∃ a : Word, (a = 0 ∨ a = 2 ^ 60) ∧
    ∀ s i, i < 2 ^ 40 → busPlace s (a.toNat + i) = some (busKey (a.toNat + i)) := by
  by_cases h : Config.bar2 < 2 ^ 50
  · refine ⟨2 ^ 60, Or.inr rfl, fun s i hi => ?_⟩
    unfold busPlace
    rw [show (2 ^ 60 : Word).toNat = 2 ^ 60 by decide +kernel, if_neg (by omega)]
  · refine ⟨0, Or.inl rfl, fun s i hi => ?_⟩
    unfold busPlace
    rw [show (0 : Word).toNat = 0 from rfl, if_neg (by omega)]

/-- A mailbox request of the words `w` that has started, or one at the bus address `a` that has not. -/
def mailed (a : Word) (w : List Word) (busy : Bool) : State :=
  { State.reset with
    host := { State.reset.host with mbreq := a, req := w, busy := busy }
    boot := { State.reset.boot with recovery := false }
    mem := (⟨[]⟩ : Mem).applyAll (wrBytes (busKey a.toNat) (w.flatMap (fun x => leBytes 8 x.toNat))) }

/-- Bytes of the host's memory, read over the bus. -/
theorem bus_read {a : Word} (h : ∀ s i, i < 2 ^ 40 → busPlace s (a.toNat + i) = some (busKey (a.toNat + i))) (s : State) (j n : Nat)
    (hj : j + n ≤ 2 ^ 40) : busRead s (a.toNat + j) n = some ((List.range n).map (fun i => s.mem.get (busKey (a.toNat + j + i)))) := by
  have hb (i : Nat) (hi : i ∈ List.range n) : busPlace s (a.toNat + j + i) = some (busKey (a.toNat + j + i)) := by
    have := List.mem_range.1 hi
    rw [Nat.add_assoc]
    exact h s _ (by omega)
  unfold busRead
  rw [if_neg]
  · congr 1
    refine List.map_congr_left fun i hi => ?_
    rw [hb i hi]
    rfl
  · rw [List.any_eq_true]
    rintro ⟨i, hi, hn⟩
    rw [hb i hi] at hn
    exact Bool.noConfusion hn

/-- OutsideSteps: a request that the doorbell starts, and one whose command the table does not list; one that is misaligned; each
mailbox command, in recovery mode and out of it, with operands that it accepts and some that it does not. -/
theorem test_witness_mailbox : ∃ a : Word,
    (∀ n : Fin 9, mailReadable (mailed a [BitVec.ofNat 64 n.val] false) = true ∧
      field ((mailAt (mailed a [BitVec.ofNat 64 n.val] false)).getD 0 0) 0 8 = n.val) ∧
    mailReadable (mailed (a + 8) [1] false) = false ∧
    (∀ n : Fin 7, mailCommand (mailed a [BitVec.ofNat 64 (n.val + 1)] true) = n.val + 1) ∧
    (busRead (mailed a [2, a + 64, a + 4096] true) (a + 64).toNat 32).isSome = true ∧
    busOk (mailed a [2, a + 64, a + 4096] true) (a + 4096).toNat 2612 = true ∧
    (busRead (mailed a [4, a + 64, 4, 1] true) (a + 64).toNat 4).isSome = true := by
  obtain ⟨a, ha, h⟩ := bus_far
  have ok (s : State) (j n : Nat) (hj : j + n ≤ 2 ^ 40) : busOk s (a.toNat + j) n = true := by
    unfold busOk
    rw [List.all_eq_true]
    intro i hi
    have := List.mem_range.1 hi
    rw [Nat.add_assoc, h _ _ (by omega)]
    rfl
  have up (j : Nat) (hj : j = 64 ∨ j = 4096) : (a + BitVec.ofNat 64 j).toNat = a.toNat + j := by
    rcases ha with rfl | rfl <;> rcases hj with rfl | rfl <;> decide +kernel
  refine ⟨a, fun n => ⟨?_, ?_⟩, ?_, ?_, ?_, ?_, ?_⟩
  · unfold mailReadable
    rw [Bool.and_eq_true]
    refine ⟨?_, ok _ 0 64 (by decide)⟩
    show (a.toNat % 64 == 0) = true
    rcases ha with rfl | rfl <;> decide +kernel
  · have hr := bus_read h (mailed a [BitVec.ofNat 64 n.val] false) 0 8 (by decide)
    show field (BitVec.ofNat 64 (leNat ((busRead (mailed a [BitVec.ofNat 64 n.val] false) (a.toNat + 0) 8).getD []))) 0 8 = n.val
    rw [hr]
    clear hr
    rcases ha with rfl | rfl <;> revert n <;> decide +kernel
  · unfold mailReadable
    rw [Bool.and_eq_false_iff]
    left
    rcases ha with rfl | rfl <;> decide +kernel
  · intro n
    show field (BitVec.ofNat 64 (n.val + 1)) 0 8 = n.val + 1
    revert n
    decide +kernel
  · rw [show a + 64 = a + BitVec.ofNat 64 64 from rfl, up 64 (by decide), bus_read h _ 64 32 (by decide)]
    rfl
  · rw [show a + 4096 = a + BitVec.ofNat 64 4096 from rfl, up 4096 (by decide)]
    exact ok _ 4096 2612 (by decide)
  · rw [show a + 64 = a + BitVec.ofNat 64 64 from rfl, up 64 (by decide), bus_read h _ 64 4 (by decide)]
    rfl

/-- OutsideSteps: LOCALINIT of no byte into chip scratchpad, and beyond it; of a byte of a page that is not there; a launch that runs;
MIGRATE of two pages and of one; DEVNUM of 255 and 256. -/
theorem test_witness_mail_operands :
    (let s := mailed 0 [1, 0, 0, 0, 1, 0, 0, 0] true
     s.host.busy && s.launch.st != .running && !s.boot.recovery && s.migrs.isEmpty) = true ∧ State.reset.boot.recovery = true ∧
    (mailWord (mailed 0 [1, 0, 0, 0x4000000, 1] true) 3).toNat + 0 ≤ 0x4000000 ∧
    0x4000000 < (mailWord (mailed 0 [1, 0, 0, 0x4000001, 1] true) 3).toNat + 0 ∧
    (let s : State := { mailed 0 [1, 0x10000, 1, 0, 1] true with pages := [nopage] }
     present s s.host.lpasid (mailWord s 1) 1 false = some false) ∧
    (let s : State := { mailed 0 [1, 0x10000, 1, 0, 1] true with pages := [page true] }
     present s s.host.lpasid (mailWord s 1) 1 false = some true) ∧
    (let s : State := { mailed 0 [6, 0x5000, 0x9000] true with launch := { State.reset.launch with st := .running } }
     s.launch.st == .running && pageOk (mailWord s 1).toNat && pageOk (mailWord s 2).toNat) = true ∧ pageOk 0x5008 = false ∧
    ((mailWord (mailed 0 [7, 255] true) 1).toNat, (mailWord (mailed 0 [7, 256] true) 1).toNat) = (255, 256) := by decide +kernel

/-- A frame that writes two bytes, and whose tag verifies. -/
def frame0 (x : Port) (q : Nat) (r : FrameReq) : Frame :=
  { crcOk := true, seq := q, ctr := 5, req := r, addr := 0x5000, data := [1, 2],
    tag := Config.gcmTag x.rxKey (x.epoch ++ BitVec.ofNat 64 5) 0x5000 [1, 2] }

/-- OutsideSteps: a frame that is due, and one that a port has received before; one whose tag does not verify; a write, a read and an
atomic within eight beats. Whether the other end of a port is authentic is a free value: both cases are open. -/
theorem test_witness_frames :
    let x : Port := { up := true, peer := 3, first := true, epoch := 1, txKey := 0, rxKey := 7, txCtr := 2 ^ 48 - 2, rxSeq := 9, retry := 0 }
    x.tagOk (frame0 x 9 .write) = true ∧ x.tagOk (frame0 x 8 .write) = true ∧
    x.tagOk { frame0 x 9 .write with ctr := 2 ^ 48 } = false ∧ (frame0 x 9 .write).seq = x.rxSeq ∧ (frame0 x 8 .write).seq < x.rxSeq ∧
    x.txCtr + 1 < 2 ^ 48 ∧ (0x5000 % 32 + 256 + 31) / 32 ≤ 8 ∧ (0x5000 % 32 + 2 + 31) / 32 ≤ 8 ∧ atLen 0 = 32 ∧ atOp 0 < 8 ∧
    homeFree State.reset 0x5000 2 = true ∧ State.reset.boot.locked = false ∧
    (∀ p : Fin 48, (State.reset.ports.get p).up = false) ∧
    (∀ (h : PeerHello) (p d : Nat), h.ok p d = true ∨ h.ok p d = false) := by
  refine ⟨?_, ?_, rfl, rfl, by decide, by decide, by decide, by decide, by decide, by decide, by decide +kernel, rfl, by decide, ?_⟩
  · exact Bool.and_eq_true_iff.2 ⟨by decide, beq_self_eq_true _⟩
  · exact Bool.and_eq_true_iff.2 ⟨by decide, beq_self_eq_true _⟩
  · intro h p d
    cases h.ok p d
    · exact Or.inr rfl
    · exact Or.inl rfl

/-- RecoverySteps: a context that is saved after pre-emption, with a FATAL_UNPROBED or a RAS_CTX that falls due by then, and with an
ADDRCLASS to hold; a completed gather that leaves a parked element's trap and misses; save areas with a held trap and without. -/
theorem test_witness_save_traps :
    [(6, 0x10000), (10, 3), (3, 8)].map (fun (d : Nat × Word) =>
      let s := (saving .halting 0 [] []).modCtx ⟨0, 0⟩ (fun c => { c with due := [d] })
      let c := s.ctx ⟨0, 0⟩
      (s.mem.wf && c.st == .halting && s.cmds.all (fun m => !toCut s m), firstDue (c.due.filter (fun d => d.1 != 3)),
        drained s ⟨0, 0⟩ && c.stores.isEmpty && c.pend.isEmpty && c.loop.isEmpty && c.xfer.isNone, c.due.find? (fun d => d.1 == 3))) =
      [(true, some (6, 0x10000), true, none), (true, some (10, 3), true, none), (true, none, true, some (3, 8))] ∧
    (let m : Cmd := { gathr 9 with st := .fin, tok := some 63, trapAt := some 8, miss := [8] }
     let s := saving .halted 0 [] [m]
     s.mem.wf && s.cmd s.act.num == some m && mayLand s m && (s.flightsOf (.cmd 0)).isEmpty &&
       !(s.mem.word (0x10000 + 0x38)).getLsbD 8) = true ∧
    [0, 1].map (fun h =>
      let s := saving .halted 0 [] []
      let s : State := { s with mem := (⟨[]⟩ : Mem).applyAll (wrNat (0x10000 + 0x38) 8 (2 ^ 8 * h) ++ wrNat (0x10000 + 0x40) 8 5) }
      (s.runs && !(s.ctx s.act.cid).dbgHold && (s.ctx s.act.cid).assist.isEmpty && resumeFits s ⟨0, 0⟩ (workAt s ⟨0, 0⟩ 0x10000),
        (s.mem.word (0x10000 + 0x38)).getLsbD 8)) = [(true, false), (true, true)] := by decide +kernel

/-- RecoverySteps: faults in a halted, a resuming and an idle context of a launch that runs; of an engine with no command; the last port
to a peer with a sector in flight to it and an accepted atomic of its memory; a device reset with a mailbox command at work. -/
theorem test_witness_fault_places :
    [CtxSt.halted, .resuming, .idle].all (fun st =>
      let s := (live id).modCtx ⟨0, 0⟩ (fun c => { c with st := st })
      (s.ctx s.act.cid).st == st && s.launch.st == .running && !s.launch.clearing && s.launch.fault.isNone && s.cmd s.act.num == none) = true ∧
    (let x : Port := { State.reset.ports.get 5 with up := true, peer := 3 }
     let m : Cmd := { atomnr0 with t := 5, st := .accepted, key := peerKey 3 0 }
     let s : State := { commanded m with ports := State.reset.ports.set 5 x, act := { port := 5 },
                                         flight := [{ of := .cmd 1, wr := [(peerKey 3 64, 1)], src := [], grp := 0 }] }
     (s.ports.get 5).up = true ∧ (∀ p : Fin 48, p ≠ 5 → (s.ports.get p).up = false) ∧ s.cmd m.uid = some m ∧
       peerKey 3 0 ≤ m.key ∧ m.key < peerKey (3 + 1) 0 ∧ s.cmds = [m]) ∧
    (mailed 0 [1] true).host.busy = true ∧ (mailed 0 [1] false).host.busy = false := by decide +kernel

/-- OutsideSteps: an atomic of a line that a migration has moved and whose marker is still to come, and one of a line at rest. -/
theorem test_witness_frame_marker :
    let g : Migr := { old := 0x5000, new := 0x9000, pasid := 0, vpage := 0x10000, moved := List.finRange 32, told := some 7, sent := true, ended := [0] }
    let s : State := { live id with migrs := [g] }
    ([0x9080, 0x9000, 0x5000].map s.awaitsMarker, [0x9080, 0x9000].map (fun a => homeFree s a 32)) =
      ([true, false, false], [true, true]) := by decide +kernel
end Sys2Proof.Tests
end

section
/-! Numbers laid in memory (R1): the digits of a number's bytes, and what `wrNat` does to memory. -/

namespace Sys2Proof.Machine

/-- Byte `i` of a number is its digit `i` of base 256. -/
theorem getElem_leBytes (n x i : Nat) (h : i < (leBytes n x).length) : (leBytes n x)[i].toNat = x / 256 ^ i % 256 := by
  induction n generalizing x i with
  | zero => exact absurd h (Nat.not_lt_zero _)
  | succ n ih =>
    cases i with
    | zero => simp [leBytes]
    | succ i =>
      have hi : i < (leBytes n (x / 256)).length := Nat.lt_of_succ_lt_succ h
      calc (leBytes n (x / 256))[i].toNat = x / 256 / 256 ^ i % 256 := ih (x / 256) i hi
        _ = x / 256 ^ (i + 1) % 256 := by rw [Nat.div_div_eq_div_mul, Nat.pow_succ']

/-- A number of `n` bytes reads back from where it was laid, cut to those bytes. -/
theorem Mem.nat_wrNat {m : Mem} (hm : m.wf = true) (k n x : Nat) : (m.applyAll (wrNat k n x)).nat k n = x % 256 ^ n := by
  have hbytes : (m.applyAll (wrNat k n x)).bytes k n = leBytes n x := by
    simpa only [wrNat, length_leBytes] using Mem.bytes_wrBytes hm k (leBytes n x)
  rw [Mem.nat, hbytes, leNat_leBytes]

/-- Each byte of a number laid in memory is its own digit of base 256. -/
theorem Mem.get_wrNat {m : Mem} (hm : m.wf = true) {k n i : Nat} (x : Nat) (hi : i < n) :
    ((m.applyAll (wrNat k n x)).get (k + i)).toNat = x / 256 ^ i % 256 := by
  have hlen : i < (leBytes n x).length := by rwa [length_leBytes]
  rw [wrNat, Mem.get_wrBytes hm hlen, getElem_leBytes]

/-- A number laid in memory leaves every byte outside its extent. -/
theorem Mem.get_wrNat_outside (m : Mem) {k n a : Nat} (x : Nat) (h : a < k ∨ k + n ≤ a) :
    (m.applyAll (wrNat k n x)).get a = m.get a :=
  Mem.get_wrBytes_outside (by rwa [length_leBytes])

/-- Settles O9, from the laws of bytes laid in memory. -/
theorem memoryReadsBack : Obligations.MemoryReadsBack := by
  intro m k n x hm hx
  have hread : (m.applyAll (wrNat k n x)).nat k n = x := by rw [Mem.nat_wrNat hm, Nat.mod_eq_of_lt hx]
  exact ⟨hread, fun _ hi => Mem.get_wrNat hm x hi, fun _ ha => Mem.get_wrNat_outside m x ha, Mem.wf_applyAll hm _⟩

end Sys2Proof.Machine
end

section
/-! What a step may do to memory: write bytes, and nothing else. Every meaning ends by committing an effect, by leaving the
state, or by a fault (`done`, `stutter`, `.fault`), so the memory it leaves is the old one with some writes applied. -/

namespace Sys2Proof.Machine

/-- Whatever next state an outcome holds, its memory is that of `s` with some writes applied. -/
def WritesOnly (s : State) (o : Host.Outcome State Fault Refusal) : Prop :=
  ∀ t, o = .next t → ∃ ws, t.mem = s.mem.applyAll ws

/-- Only the memory of the state counts. -/
theorem WritesOnly.of_mem_eq {s u : State} {o : Host.Outcome State Fault Refusal} (h : WritesOnly u o) (hm : u.mem = s.mem) :
    WritesOnly s o := by
  intro t ht
  obtain ⟨ws, hws⟩ := h t ht
  exact ⟨ws, hm ▸ hws⟩

/-- Writes keep the canonical form of memory. -/
theorem WritesOnly.inv {s t : State} {o : Host.Outcome State Fault Refusal} (h : WritesOnly s o) (hs : s.Inv)
    (ht : o = .next t) : t.Inv := by
  obtain ⟨ws, hws⟩ := h t ht
  rw [State.Inv, hws]
  exact Mem.wf_applyAll hs ws

/-! ### The ways in which a step ends -/

theorem writesOnly_done (s : State) (e : Eff) : WritesOnly s (done s e) := by
  intro t ht
  exact ⟨e.wr, by rw [← done_eq_next.1 ht, commit_mem]⟩

theorem writesOnly_stutter (s : State) : WritesOnly s (stutter s) := by
  intro t ht
  exact ⟨[], by rw [← stutter_eq_next.1 ht, Mem.applyAll_nil]⟩

theorem writesOnly_fault (s : State) (f : Fault) : WritesOnly s (.fault f) := by
  rintro t ⟨⟩

theorem issueWith_writesOnly (sl : List Slot) (s : State) : WritesOnly s (issueWith sl s) := by
  simp only [issueWith]
  split
  · split <;> exact writesOnly_done _ _
  · exact writesOnly_fault _ _

/-! ### What several meanings share -/

theorem landOne_writesOnly (s : State) (of : FlightOf) (j : Nat) : WritesOnly s (s.landOne of j) := by
  unfold State.landOne
  split
  · exact writesOnly_done _ _
  · exact writesOnly_stutter _

theorem serveItem_writesOnly (s : State) (g : Nat) : WritesOnly s (s.serveItem g) := by
  simp only [State.serveItem]
  (repeat' split) <;> apply_rules [writesOnly_done, writesOnly_stutter]

theorem hostAccess_writesOnly (s : State) (a : HostAcc) : WritesOnly s (hostAccess s a) := by
  simp only [hostAccess]
  (repeat' split) <;> apply_rules [writesOnly_done, writesOnly_stutter]

theorem mailbox_writesOnly (n : Nat) (allowed : State → Bool) (body : State → Mail) (s : State) :
    WritesOnly s (mailbox n allowed body s) := by
  unfold mailbox
  (repeat' split) <;> apply_rules [writesOnly_done, writesOnly_stutter]

/-! ### Every instruction and every step -/

/-- No meaning changes memory but by writes. The cases are grouped by how the meaning ends: always in an effect; as a mailbox
command; by one of several branches; or also by a sector in flight that performs, an item that is served or an access of the
host. The instructions that no case names are the triggers and the bundle of any moves, whose meanings are `issueWith`. -/
theorem exec_writesOnly (i : Instr) (s : State) : WritesOnly s (exec i s) := by
  cases i with
  | fixedStorePerform | mapApply | ownsetApply | resultVisible | transferEffect | loopStateCommit | tlogbWrite | powerLoss
  | powerCapTick =>
    exact writesOnly_done _ _
  | localinit | attest | certs | fwload | svnset | devnum =>
    simp only [exec, execLocalinit, execAttest, execCerts, execFwload, execSvnset, execDevnum]
    exact mailbox_writesOnly _ _ _ _
  | patrolScrub => exact writesOnly_stutter s
  | instructionFetch | scoreboardedAccessPerform | amoPerform | unmapComplete | drainComplete | kbOperationStart
  | kbOperationComplete | engineCommandComplete | streamCapture | streamVectorProduce | copyDispatch | gondolaSteal
  | cpstPerform | atomicAccept | atomicPerform | nearAtomicPerform | binPlay | mxOperationStart | tileLineArrival
  | mmaChunk | rkonAdmit | rkonSliceSwitch | faultQueueReplay | contextSwitch | randomWordGenerate | postQueuePerform
  | contextEnd | joinStep | liftPop | powerGate | coreWake | groupArrival | twaitbWake | launchWrite | launchClear
  | atsTranslationReply | priResponse | invalidationRequest | invalidationAck | invalidationComplete
  | invalidationWatchdog | trapTake | preemptRequest | contextSave | haltedCommandComplete | assistService | contextResume
  | faultDetect | lineMove | endMarker | registerWrite | migrate | secureBoot | portTrain | portRekey | linkFrameReceive
  | portDown =>
    simp only [exec, execInstructionFetch, execScoreboardedAccessPerform, execAmoPerform, execUnmapComplete,
      execDrainComplete, execKbOperationStart, execKbOperationComplete, execEngineCommandComplete, execStreamCapture,
      execStreamVectorProduce, execCopyDispatch, execGondolaSteal, execCpstPerform, execAtomicAccept, execAtomicPerform,
      execNearAtomicPerform, execBinPlay, execMxOperationStart, execTileLineArrival, execMmaChunk, execRkonAdmit,
      execRkonSliceSwitch, execFaultQueueReplay, execContextSwitch, execRandomWordGenerate, execPostQueuePerform,
      execContextEnd, execJoinStep, execLiftPop, execPowerGate, execCoreWake, execGroupArrival, execTwaitbWake,
      execLaunchWrite, execLaunchClear, execAtsTranslationReply, execPriResponse, execInvalidationRequest,
      execInvalidationAck, execInvalidationComplete, execInvalidationWatchdog, execTrapTake, execPreemptRequest,
      execContextSave, execHaltedCommandComplete, execAssistService, execContextResume, execFaultDetect, execLineMove,
      execEndMarker, execRegisterWrite, execMigrate, execSecureBoot, execPortTrain, execPortRekey, execLinkFrameReceive,
      execPortDown]
    (repeat' split) <;> apply_rules [writesOnly_done, writesOnly_stutter]
  | windowFill | copyItem | indexBatch | binRecordPlace | mxOperationComplete | rinkSetAdmit | treeUnitOperation
  | hostBarAccess | accessForward =>
    simp only [exec, execWindowFill, execCopyItem, execIndexBatch, execBinRecordPlace, execMxOperationComplete,
      execRinkSetAdmit, execTreeUnitOperation, execHostBarAccess, execAccessForward]
    (repeat' split) <;>
      apply_rules [writesOnly_done, writesOnly_stutter, landOne_writesOnly, serveItem_writesOnly, hostAccess_writesOnly]
  | _ => exact issueWith_writesOnly _ s

theorem issueStep_writesOnly (n : Fin 4112) (s : State) : WritesOnly s (issueStep n s) := by
  simp only [issueStep]
  split
  · exact writesOnly_stutter s
  · split
    · exact (exec_writesOnly _ _).of_mem_eq (unstall_mem s n)
    · exact writesOnly_done _ _
    · exact writesOnly_done _ _

theorem runSched_writesOnly (x : Sched) (s : State) : WritesOnly s (runSched x s) := by
  cases x with
  | issue n => exact issueStep_writesOnly n s
  | ev i a =>
    simp only [runSched]
    split
    · exact (exec_writesOnly i _).of_mem_eq rfl
    · exact writesOnly_stutter s

theorem step_writesOnly (s : State) : WritesOnly s (step s) := by
  unfold step
  split <;> exact (runSched_writesOnly _ _).of_mem_eq rfl

/-- Settles O6: a step changes memory by writes alone, and each write keeps the canonical form. -/
theorem stepKeepsMemory : Obligations.StepKeepsMemory :=
  fun s _ hs ht => (step_writesOnly s).inv hs ht

end Sys2Proof.Machine
end

section
/-! What reset leaves (R13, R342, R344, R366, R373). -/

namespace Sys2Proof.Machine

/-- Before any launch every core is as `Core.fresh`. -/
theorem reset_ctx (cid : Cid) : State.reset.ctx cid = Ctx.fresh := by
  simp [State.ctx, State.core, State.reset, coresGet, Core.at, Core.fresh, vget]

theorem reset_ports (p : Fin 48) : (State.reset.ports.get p).up = false := by
  simp [State.reset, vget]

theorem reset_engineOwns (g : Nat) : State.reset.engineOwns g = false := by
  simp [State.engineOwns, State.engineMay, State.granuleBusy, State.reset, ownGet]

theorem reset_hostReg : ∀ off ∈ [0x008, 0x010, 0x018, 0x020, 0x040, 0x048, 0x080, 0x090, 0x0C0],
    hostReg State.reset off = 0 := by
  decide

/-- Settles O8, field by field. -/
theorem resetState : Obligations.ResetState :=
  ⟨fun cid => by rw [reset_ctx]; rfl, reset_engineOwns, reset_hostReg, rfl, rfl, rfl, rfl, rfl, rfl, rfl, reset_ports, rfl⟩

end Sys2Proof.Machine
end

section
/-! The classes of addresses (R15): the fields of an address as quotients and remainders of its number, and what `classify`
answers in each window. -/

namespace Sys2Proof.Machine

/-! ### The fields of an address -/

/-- A field of bits is a quotient, cut to the field's width. -/
theorem toNat_field (a : Word) (i n : Nat) : (a.extractLsb' i n).toNat = a.toNat / 2 ^ i % 2 ^ n := by
  rw [BitVec.extractLsb'_toNat, Nat.shiftRight_eq_div_pow]

/-- A field of bits equals a number that fits it where the quotient does. -/
theorem field_eq_iff (a : Word) (i n x : Nat) (hx : x < 2 ^ n) :
    a.extractLsb' i n = BitVec.ofNat n x ↔ a.toNat / 2 ^ i % 2 ^ n = x := by
  rw [← BitVec.toNat_inj, toNat_field, BitVec.toNat_ofNat, Nat.mod_eq_of_lt hx]

/-- Bits 63 to 56 are the window of the address. -/
theorem window_eq_iff (a : Word) (x : Nat) (hx : x < 2 ^ 8) :
    a.extractLsb' 56 8 = BitVec.ofNat 8 x ↔ a.toNat / 2 ^ 56 = x := by
  rw [field_eq_iff a 56 8 x hx, Nat.mod_eq_of_lt (by have := a.isLt; omega)]

/-- An address is canonical (R15): bits 63 to 57 all equal bit 56. -/
theorem bits_all_equal_iff (a : Word) :
    ((a.extractLsb' 57 7 = 0 ∧ a.getLsbD 56 = false) ∨ (a.extractLsb' 57 7 = 0x7F ∧ a.getLsbD 56 = true)) ↔
      a.toNat / 2 ^ 56 = 0 ∨ a.toNat / 2 ^ 56 = 0xFF := by
  have hlt := a.isLt
  have h0 : a.extractLsb' 57 7 = 0 ↔ a.toNat / 2 ^ 57 % 2 ^ 7 = 0 := field_eq_iff a 57 7 0 (by decide)
  have h1 : a.extractLsb' 57 7 = 0x7F ↔ a.toNat / 2 ^ 57 % 2 ^ 7 = 0x7F := field_eq_iff a 57 7 0x7F (by decide)
  rw [h0, h1, BitVec.getLsbD, Nat.testBit_eq_decide_div_mod_eq]
  simp only [decide_eq_false_iff_not, decide_eq_true_eq]
  omega

/-! ### What `classify` answers -/

/-- Only an address itself is the global place that it names. -/
theorem classify_glob {a : Word} {va : Nat} (h : classify a = .glob va) : va = a.toNat := by
  simp only [classify] at h
  split_ifs at h
  all_goals cases h
  rfl

theorem classify_own (a : Word) (h : a.extractLsb' 56 8 = 0x80) :
    classify a = if (a.extractLsb' 0 56).toNat ≤ 0x27FFF then .own (a.extractLsb' 0 56).toNat else .bad := by
  have h := (window_eq_iff a 0x80 (by decide)).1 h
  simp only [toNat_field, pow_zero, Nat.div_one]
  simp only [classify, h, ↓reduceIte]

theorem classify_peer (a : Word) (h : a.extractLsb' 56 8 = 0x81) :
    classify a = if a.extractLsb' 26 30 = 0 ∧ (a.extractLsb' 0 18).toNat ≤ 0x27FFF then
      .peer (a.extractLsb' 18 8).toNat (a.extractLsb' 0 18).toNat else .bad := by
  have h := (window_eq_iff a 0x81 (by decide)).1 h
  have hi : a.extractLsb' 26 30 = 0 ↔ a.toNat % 2 ^ 56 < 2 ^ 26 := by
    rw [show (0 : BitVec 30) = BitVec.ofNat 30 0 from rfl, field_eq_iff a 26 30 0 (by decide)]
    omega
  have hlow : a.toNat % 2 ^ 56 % 2 ^ 18 = a.toNat % 2 ^ 18 := by omega
  have hcore : a.toNat % 2 ^ 56 < 2 ^ 26 → a.toNat % 2 ^ 56 / 2 ^ 18 = a.toNat / 2 ^ 18 % 2 ^ 8 := by omega
  simp only [hi, toNat_field, pow_zero, Nat.div_one]
  simp only [classify, h, hlow, Nat.reduceEqDiff, ↓reduceIte]
  split_ifs with hc
  · rw [hcore hc.1]
  · rfl

theorem classify_slice (a : Word) (h : a.extractLsb' 56 8 = 0x82) :
    classify a = if a.extractLsb' 24 32 = 0 then .slice (a.extractLsb' 16 8).toNat (a.extractLsb' 0 16).toNat else .bad := by
  have h := (window_eq_iff a 0x82 (by decide)).1 h
  have hi : a.extractLsb' 24 32 = 0 ↔ a.toNat % 2 ^ 56 < 2 ^ 24 := by
    rw [show (0 : BitVec 32) = BitVec.ofNat 32 0 from rfl, field_eq_iff a 24 32 0 (by decide)]
    omega
  have hlow : a.toNat % 2 ^ 56 % 2 ^ 16 = a.toNat % 2 ^ 16 := by omega
  have hcore : a.toNat % 2 ^ 56 < 2 ^ 24 → a.toNat % 2 ^ 56 / 2 ^ 16 = a.toNat / 2 ^ 16 % 2 ^ 8 := by omega
  simp only [hi, toNat_field, pow_zero, Nat.div_one]
  simp only [classify, h, hlow, Nat.reduceEqDiff, ↓reduceIte]
  split_ifs with hc
  · rw [hcore hc]
  · rfl

theorem classify_chip (a : Word) (h : a.extractLsb' 56 8 = 0x83) :
    classify a = if (a.extractLsb' 0 56).toNat ≤ 0x3FFFFFF then .chip (a.extractLsb' 0 56).toNat else .bad := by
  have h := (window_eq_iff a 0x83 (by decide)).1 h
  simp only [toNat_field, pow_zero, Nat.div_one]
  simp only [classify, h, Nat.reduceEqDiff, ↓reduceIte]

/-- A canonical address is global. -/
theorem classify_canonical (a : Word) (h : a.toNat / 2 ^ 56 = 0 ∨ a.toNat / 2 ^ 56 = 0xFF) : classify a = .glob a.toNat := by
  rcases h with h | h <;>
    simp only [classify, h, Nat.reduceEqDiff, reduceCtorEq, OfNat.zero_ne_ofNat, or_true, true_or, ↓reduceIte]

/-- An address in none of the four windows that is not canonical has no class. -/
theorem classify_outside (a : Word) (h0 : a.toNat / 2 ^ 56 ≠ 0x80) (h1 : a.toNat / 2 ^ 56 ≠ 0x81)
    (h2 : a.toNat / 2 ^ 56 ≠ 0x82) (h3 : a.toNat / 2 ^ 56 ≠ 0x83)
    (hc : ¬ (a.toNat / 2 ^ 56 = 0 ∨ a.toNat / 2 ^ 56 = 0xFF)) : classify a = .bad := by
  simp only [classify, if_neg h0, if_neg h1, if_neg h2, if_neg h3, if_neg hc]

/-- A local address has its key without a translation. -/
theorem accessKey_local (s : State) (n : Fin 4112) (p : BitVec 20) {a : Word} (wr : Bool) {k : Nat}
    (hk : localKey n (classify a) = some k) : accessKey s n p a wr = .ok k := by
  unfold accessKey
  split
  · rename_i va hva
    rw [hva] at hk
    cases hk
  · rw [hk]

/-- A core's own scratchpad is that of the core of its own number in the cluster (R8). -/
theorem localKey_peer_self (n : Fin 4112) (hn : n.val < 4096) (off : Nat) :
    localKey n (.peer (coreIx n) off) = localKey n (.own off) := by
  have hcl : (clusterOf n).val = n.val / 256 := by
    simp only [clusterOf, if_pos hn, Fin.val_ofNat]
    omega
  have : 256 * (clusterOf n).val + coreIx n = n.val := by
    rw [hcl, coreIx, Nat.div_add_mod]
  simp only [localKey, if_pos hn, this]

/-- Settles O10, window by window. -/
theorem addressClasses : Obligations.AddressClasses := by
  intro a
  have hw (x : Nat) (hx : x < 2 ^ 8) (h : a.extractLsb' 56 8 ≠ BitVec.ofNat 8 x) : a.toNat / 2 ^ 56 ≠ x :=
    fun e => h ((window_eq_iff a x hx).2 e)
  refine ⟨classify_own a, classify_peer a, classify_slice a, classify_chip a, ?_, ?_, ?_, ?_⟩
  · intro h
    exact classify_canonical a ((bits_all_equal_iff a).1 h)
  · intro h0 h1 h2 h3 hc
    exact classify_outside a (hw 0x80 (by decide) h0) (hw 0x81 (by decide) h1) (hw 0x82 (by decide) h2)
      (hw 0x83 (by decide) h3) (fun h => hc ((bits_all_equal_iff a).2 h))
  · intro s n p wr k _ hk
    exact accessKey_local s n p wr hk
  · intro n hn off h
    rw [h, localKey_peer_self n hn]

end Sys2Proof.Machine
end

section
/-! What stops a bundle of one move that stands ready: the trap that its operation raises at issue, and what it waits for. -/

namespace Sys2Proof.Machine

/-- The one slot of a bundle whose one move triggers an operation. -/
def oneSlot (g : Guard) (src : Src) (o : Op) : Slot :=
  { mv := ⟨⟨o.bus.val, by omega⟩, g, src, .trig (Fin.ofNat 768 o.t)⟩, op := some o }

theorem issueOne_eq (g : Guard) (src : Src) (o : Op) (s : State) : issueOne g src o s = issueWith [oneSlot g src o] s := rfl

/-- What the operation of that slot reads. -/
theorem inOf_oneSlot (s : State) (g : Guard) (src : Src) (o : Op) :
    inOf s.boundaryState s.cur (oneSlot g src o).mv o = s.reads o.bus src := rfl

theorem opsOf_oneSlot (s : State) (g : Guard) (src : Src) (o : Op) :
    opsOf s.boundaryState s.cur [oneSlot g src o] = [(o, s.reads o.bus src)] := rfl

/-- A lone move that is no class P trigger of rm 2 fed by the random-bit queue is legal (R36, R37). -/
theorem slotsLegal_oneSlot (g : Guard) (src : Src) (o : Op) (hl : o.bus.val ≠ 5 ∨ src ≠ .rnd ∨ (o.t % 768) % 4 ≠ 2) :
    slotsLegal [oneSlot g src o] = true := by
  have hlim : limitsOk [(oneSlot g src o).mv] = true := by
    apply limitsOk_one
    rcases hl with hl | hl | hl
    · exact .inl hl
    · exact .inr (.inl hl)
    · refine .inr (.inr (fun t ht => ?_))
      obtain rfl : Fin.ofNat 768 o.t = t := Dst.trig.inj ht
      exact hl
  simp only [slotsLegal, List.map_cons, List.map_nil, hlim, dstsOk_one]
  rfl

section
variable {s : State} {g : Guard} {src : Src} {o : Op} (h : Ready s g src)
include h

theorem Ready.boundary_none : (boundaryEff s).boundary s.cur = none := Machine.boundary_none _ _ h.calm.1 h.calm.2

/-- A ready move waits for nothing of its own. -/
theorem Ready.move_ready : moveWaits s.boundaryState s.cur (oneSlot g src o).mv = false := by
  have hsrc : (s.boundaryState.ctx s.cur).sourceWaits src = false := h.ready
  have hrec := h.reclu
  simp only [moveWaits, oneSlot, hsrc, Ctx.destWaits, Bool.false_or]
  exact hrec

theorem Ready.popTrap_none : popTrap s.issuer [oneSlot g src o] = none := by
  have hf : s.issuer.popMiss src = none := h.fills
  simp [popTrap, oneSlot, hf]

/-- A ready bundle that is legal, meets no pending transfer and has its privilege comes to the attempt to issue. -/
theorem Ready.issueOne_attempt (hl : o.bus.val ≠ 5 ∨ src ≠ .rnd ∨ (o.t % 768) % 4 ≠ 2)
    (hx : s.issuer.xfer = none ∨ o.xf (s.reads o.bus src) = false) (hp : o.priv = false ∨ isCsc s.cur = true) :
    issueOne g src o s = .next (commit s ((boundaryEff s).attempt s.cur [oneSlot g src o])) := by
  have hrun : (s.ctx s.cur).st = .live ∧ (!(s.ctx s.cur).ended) = true := ⟨h.live, by rw [h.going]; rfl⟩
  have hactive : active s.issuer [oneSlot g src o] = [oneSlot g src o] := by
    have hg : s.issuer.guard (oneSlot g src o).mv.guard = true := h.holds
    simp [active, hg]
  have hguard : [oneSlot g src o].any (fun x => s.issuer.guardPending x.mv.guard) = false := by
    have hk : s.issuer.guardPending (oneSlot g src o).mv.guard = false := h.known
    simp [hk]
  have hxf : (s.issuer.xfer.isSome && [(o, s.reads o.bus src)].any (fun p => p.1.xf p.2)) = false := by
    rcases hx with hx | hx <;> simp [hx]
  have hpriv : (!isCsc s.cur && [(o, s.reads o.bus src)].any (fun p => p.1.priv)) = false := by
    rcases hp with hp | hp <;> simp [hp]
  have hbundle : (boundaryEff s).bundle s.cur [oneSlot g src o] = (boundaryEff s).attempt s.cur [oneSlot g src o] := by
    have hctx : (boundaryEff s).st.ctx s.cur = s.issuer := rfl
    have hops : opsOf (boundaryEff s).st s.cur [oneSlot g src o] = [(o, s.reads o.bus src)] := rfl
    simp only [Eff.bundle, slotsLegal_oneSlot g src o hl, hctx, hguard, hactive, hops, hxf, hpriv, Bool.not_true,
      Bool.false_eq_true, if_false]
  have hb : ((Eff.start s).settle s.cur).boundary s.cur = none := h.boundary_none
  rw [issueOne_eq, issueWith, if_pos hrun]
  simp only [hb]
  rw [← hbundle]
  rfl

/-- The trap that an operation raises at issue is taken, and no move takes effect (R347, R348). -/
theorem Ready.issueOne_traps (hl : o.bus.val ≠ 5 ∨ src ≠ .rnd ∨ (o.t % 768) % 4 ≠ 2) (hr : o.rnd = false)
    (hx : s.issuer.xfer = none ∨ o.xf (s.reads o.bus src) = false) (hp : o.priv = false ∨ isCsc s.cur = true)
    (hv : o.pv (s.reads o.bus src) = false) {cause : Nat} {arg : Word} (hc : o.chk (s.reads o.bus src) = some (cause, arg)) :
    issueOne g src o s = s.trapsAt cause arg := by
  rw [h.issueOne_attempt hl hx hp, State.trapsAt]
  congr 2
  have hops : opsOf (boundaryEff s).st s.cur [oneSlot g src o] = [(o, s.reads o.bus src)] := rfl
  have hmove : moveWaits (boundaryEff s).st s.cur (oneSlot g src o).mv = false := h.move_ready
  have hpop : popTrap ((boundaryEff s).st.ctx s.cur) [oneSlot g src o] = none := h.popTrap_none
  simp only [Eff.attempt, hops, hpop, issueTrap, List.any_cons, List.any_nil, List.findSome?_cons, hmove, hr, hv, hc,
    Option.none_or, Bool.or_false, Bool.false_and, Bool.false_eq_true, if_false]

/-- An operation that blocks its bundle makes it wait: no move takes effect (R35, R89). -/
theorem Ready.issueOne_blocks (hl : o.bus.val ≠ 5 ∨ src ≠ .rnd ∨ (o.t % 768) % 4 ≠ 2) (hr : o.rnd = false)
    (hx : s.issuer.xfer = none ∨ o.xf (s.reads o.bus src) = false) (hp : o.priv = false ∨ isCsc s.cur = true)
    (hv : o.pv (s.reads o.bus src) = false) (hc : o.chk (s.reads o.bus src) = none) (hb : o.blk (s.reads o.bus src) = true) :
    issueOne g src o s = .next (commit s ((boundaryEff s).block s.cur [(o, s.reads o.bus src)])) := by
  rw [h.issueOne_attempt hl hx hp]
  congr 2
  have hops : opsOf (boundaryEff s).st s.cur [oneSlot g src o] = [(o, s.reads o.bus src)] := rfl
  have hmove : moveWaits (boundaryEff s).st s.cur (oneSlot g src o).mv = false := h.move_ready
  have hpop : popTrap ((boundaryEff s).st.ctx s.cur) [oneSlot g src o] = none := h.popTrap_none
  have hblk : opsBlock (boundaryEff s).st s.cur [(o, s.reads o.bus src)] = true := by simp [opsBlock, hb]
  simp only [Eff.attempt, hops, hpop, issueTrap, List.any_cons, List.any_nil, List.findSome?_cons, List.findSome?_nil, hmove,
    hr, hv, hc, hblk, Option.none_or, Bool.or_false, Bool.false_and, Bool.false_eq_true, if_false, if_true]

end

end Sys2Proof.Machine
end

section
/-! The traps of class M at issue (R88, R92 to R94, R96, R103): what the check of each kind of access answers. -/

namespace Sys2Proof.Machine

/-! ### The first of some numbers -/

/-- `k` is the first number of a property. -/
def FirstAt (P : Nat → Prop) (k : Nat) : Prop := P k ∧ ∀ j, j < k → ¬ P j

/-- A search of the numbers below `n` finds the first one that passes. -/
theorem FirstAt.find?_range {n k : Nat} {p : Nat → Bool} (h : FirstAt (fun j => j < n ∧ p j = true) k) :
    (List.range n).find? p = some k := by
  obtain ⟨⟨hn, hk⟩, hmin⟩ := h
  rw [List.find?_range_eq_some]
  refine ⟨hk, List.mem_range.2 hn, fun j hj => ?_⟩
  simpa using fun hp => hmin j hj ⟨Nat.lt_trans hj hn, hp⟩

/-- A search of what the kept numbers below `n` give finds what the first one gives. -/
theorem FirstAt.find?_filter_map {α : Type} {n k : Nat} {on : Nat → Bool} {f : Nat → α} {p : α → Bool}
    (h : FirstAt (fun j => (j < n ∧ on j = true) ∧ p (f j) = true) k) :
    (((List.range n).filter on).map f).find? p = some (f k) := by
  have h' : FirstAt (fun j => j < n ∧ decide (on j = true ∧ (p ∘ f) j = true) = true) k := by
    simpa only [FirstAt, decide_eq_true_eq, Function.comp_apply, and_assoc] using h
  rw [List.find?_map, List.find?_filter]
  exact congrArg (Option.map f) h'.find?_range

theorem find?_filter_map_none {α : Type} {n : Nat} {on : Nat → Bool} {f : Nat → α} {p : α → Bool}
    (h : ∀ j, j < n ∧ on j = true → p (f j) = false) : (((List.range n).filter on).map f).find? p = none := by
  rw [List.find?_eq_none]
  simp only [List.mem_map, List.mem_filter, List.mem_range]
  rintro _ ⟨j, hj, rfl⟩
  simp [h j hj]

/-- Where every number is kept, none need be named. -/
theorem FirstAt.of_all {n k : Nat} {Q : Nat → Prop} (h : FirstAt (fun j => j < n ∧ Q j) k) :
    FirstAt (fun j => j < n ∧ (fun _ => true) j = true ∧ Q j) k := by
  simpa only [FirstAt, true_and] using h

/-- The same where each number gives one thing or none. -/
theorem FirstAt.find?_filterMap {α : Type} {n k : Nat} {f : Nat → Option α} {p : α → Bool} {y : α}
    (h : FirstAt (fun j => j < n ∧ (f j).any p = true) k) (hy : f k = some y) :
    ((List.range n).filterMap f).find? p = some y := by
  rw [List.find?_filterMap, h.find?_range]
  exact hy

/-! ### Operations of the memory unit -/

/-- An operation of MU whose bundle only its own check, or what it waits for, can stop: it is not privileged, pops no random
word and ends no flow. -/
structure MemOp (o : Op) : Prop where
  bus  : o.bus = 6
  priv : o.priv = false
  rnd  : o.rnd = false
  pv   : ∀ i, o.pv i = false
  xf   : ∀ i, o.xf i = false

theorem MemOp.traps {s : State} {g : Guard} {src : Src} {o : Op} (ho : MemOp o) (h : Ready s g src) {cause : Nat} {arg : Word}
    (hc : o.chk (s.reads 6 src) = some (cause, arg)) : issueOne g src o s = s.trapsAt cause arg :=
  h.issueOne_traps (.inl (by rw [ho.bus]; decide)) ho.rnd (.inr (ho.xf _)) (.inl ho.priv) (ho.pv _) (by rw [ho.bus]; exact hc)

/-! ### Fixed-latency accesses of one extent (R88, R89, R103) -/

/-- Word `j` of an access at b whose key is `k`. -/
def In.wordPiece (i : In) (k j : Nat) : Piece := ⟨k + 4 * j, i.b.word + BitVec.ofNat 64 (4 * j)⟩

/-- The words that an access of `n` bytes at b touches, those that `on` names. -/
def accessWords (i : In) (n : Nat) (on : Nat → Bool) : List Piece :=
  match fixedKey i.s i.cid.core i.b.word with
  | some k => ((List.range ((n + 3) / 4)).filter on).map (i.wordPiece k)
  | none => []

theorem fixedPieces_eq (i : In) (n : Nat) : fixedPieces i n = accessWords i n (fun _ => true) := by
  cases hk : fixedKey i.s i.cid.core i.b.word with
  | none => simp only [fixedPieces, accessWords, hk]
  | some k =>
    simp only [fixedPieces, accessWords, hk, List.filter_true]
    rfl

theorem maskedPieces_eq (i : In) : maskedPieces i = accessWords i 128 (fun j => i.o3.getLsbD j) := by
  cases hk : fixedKey i.s i.cid.core i.b.word with
  | none => simp only [maskedPieces, accessWords, hk]
  | some k =>
    simp only [maskedPieces, accessWords, hk]
    rfl

/-- An operation that accesses `n` bytes at b, the words that `on` names, as a load or a store. -/
structure FixedAccess (o : Op) (n : Nat) (load : Bool) (on : In → Nat → Bool) : Prop extends MemOp o where
  size : n ≤ 128
  chk  : ∀ i, o.chk i = (fixedCheck i n).or (debugTrap i load (accessWords i n (on i)))

theorem loadOp_access {t n : Nat} {sgn : Bool} {a : Fin 4} (hn : n ≤ 128) :
    FixedAccess (loadOp t n sgn a) n true (fun _ _ => true) :=
  { bus := rfl, priv := rfl, rnd := rfl, pv := fun _ => rfl, xf := fun _ => rfl, size := hn
    chk := fun i => by rw [← fixedPieces_eq]; rfl }

theorem storeOp_access {t n : Nat} {a : Fin 4} (hn : n ≤ 128) : FixedAccess (storeOp t n a) n false (fun _ _ => true) :=
  { bus := rfl, priv := rfl, rnd := rfl, pv := fun _ => rfl, xf := fun _ => rfl, size := hn
    chk := fun i => by rw [← fixedPieces_eq]; rfl }

theorem opVst_access {a : Fin 4} : FixedAccess (opVst a) 128 false (fun i j => i.o3.getLsbD j) :=
  { bus := rfl, priv := rfl, rnd := rfl, pv := fun _ => rfl, xf := fun _ => rfl, size := Nat.le_refl _
    chk := fun i => by rw [← maskedPieces_eq]; rfl }

/-- The keys with owner bits lie below chip scratchpad's end and are none of a CSC's SRAM. -/
theorem hasOwner_iff (k : Nat) : hasOwner k = true ↔
    (0x1000000000000 ≤ k ∧ k < 0x4000000000000) ∧ ¬ (coreKey 4096 0 ≤ k ∧ k < 0x2000000000000) := by
  simp only [hasOwner, Bool.and_eq_true, Bool.not_eq_true', Bool.and_eq_false_iff, decide_eq_true_eq, decide_eq_false_iff_not]
  omega

/-- A key that a fixed-latency access reaches, and the 127 above it, have owner bits (R19). -/
theorem hasOwner_of_fixedKey {s : State} {n : Fin 4112} {a : Word} {k j : Nat} (hk : fixedKey s n a = some k) (hj : j < 128) :
    hasOwner (k + j) = true := by
  unfold fixedKey at hk
  split at hk
  · rename_i off hoff
    split at hk
    · rename_i hn
      cases hk
      have hlow : off ≤ 0x27FFF := by
        simp only [classify] at hoff
        split_ifs at hoff
        all_goals cases hoff
        assumption
      rw [hasOwner_iff, coreKey, coreKey]
      omega
    · cases hk
  · rename_i m off hoff
    split at hk
    · rename_i hn
      cases hk
      have hlow : off < 0x10000 := by
        simp only [classify] at hoff
        split_ifs at hoff
        all_goals cases hoff
        exact Nat.mod_lt _ (by decide)
      have hcore : coreIx n < 256 := Nat.mod_lt _ (by decide)
      rw [hasOwner_iff, sliceKey, coreKey]
      omega
    · cases hk
  · cases hk

/-- Only a stream core has memory that a fixed-latency access reaches. -/
theorem core_lt_of_fixedKey {s : State} {n : Fin 4112} {a : Word} {k : Nat} (hk : fixedKey s n a = some k) : n.val < 4096 := by
  unfold fixedKey at hk
  split at hk
  · split at hk
    · rename_i h
      exact h.1
    · cases hk
  · split at hk
    · rename_i h
      exact h.1
    · cases hk
  · cases hk

theorem fixedCheck_bad {i : In} {n : Nat} (h : i.b.word.toNat % n ≠ 0 ∨ fixedKey i.s i.cid.core i.b.word = none) :
    fixedCheck i n = some (causeAddr, i.b.word) :=
  if_pos (h.imp_right (fun e => by rw [e]; rfl))

theorem fixedCheck_good {i : In} {n k : Nat} (h0 : i.b.word.toNat % n = 0) (hk : fixedKey i.s i.cid.core i.b.word = some k) :
    fixedCheck i n = none :=
  if_neg (by simp [h0, hk])

/-- Whether a piece lies in a granule that an engine owns. -/
def enginePiece (i : In) (p : Piece) : Bool := hasOwner p.key && i.s.engineOwns (granuleOf p.key)

/-- OWNER_DBG names the granule of the first piece that an engine owns. -/
theorem debugTrap_owner {i : In} {load : Bool} {ps : List Piece} {p : Piece} (hd : i.c.dbgOwn = true)
    (hp : ps.find? (enginePiece i) = some p) : debugTrap i load ps = some (causeOwner, granuleAddr p.addr) := by
  have hp : ps.find? (fun p => hasOwner p.key && i.s.engineOwns (granuleOf p.key)) = some p := hp
  simp only [debugTrap, hd, if_true, hp]

/-- PEND_DBG names the first word whose own store is pending, where OWNER_DBG is not raised. -/
theorem debugTrap_pend {i : In} {ps : List Piece} {p : Piece} (ho : i.c.dbgOwn = true → ps.find? (enginePiece i) = none)
    (hd : i.c.dbgPend = true) (hp : ps.find? (fun p => i.c.wordPending p.key) = some p) :
    debugTrap i true ps = some (causePend, p.addr &&& ~~~3) := by
  have hno : (if i.c.dbgOwn then ps.find? (fun p => hasOwner p.key && i.s.engineOwns (granuleOf p.key)) else none) = none := by
    split
    · exact ho ‹_›
    · rfl
  simp only [debugTrap, hno, hd, hp, Bool.and_self, if_true]

section
variable {s : State} {g : Guard} {src : Src} {o : Op} {n : Nat} {load : Bool} {on : In → Nat → Bool}

/-- ADDRCLASS for an address that is misaligned or not reached. -/
theorem FixedAccess.misaligned (ho : FixedAccess o n load on) (h : Ready s g src)
    (hx : (s.reads 6 src).b.word.toNat % n ≠ 0 ∨ fixedKey s.boundaryState s.cur.core (s.reads 6 src).b.word = none) :
    issueOne g src o s = s.trapsAt 3 (s.reads 6 src).b.word :=
  ho.traps h (by rw [ho.chk, fixedCheck_bad hx]; rfl)

/-- OWNER_DBG for the first word that an engine owns, and PEND_DBG for the first that a load reads and whose store is
pending. -/
theorem FixedAccess.debug (ho : FixedAccess o n load on) (h : Ready s g src) (k w : Nat)
    (h0 : (s.reads 6 src).b.word.toNat % n = 0)
    (hk : fixedKey s.boundaryState s.cur.core (s.reads 6 src).b.word = some k) :
    (s.issuer.dbgOwn = true →
      FirstAt (fun w => (w < (n + 3) / 4 ∧ on (s.reads 6 src) w = true) ∧
        s.boundaryState.engineOwns ((k + 4 * w) / 1024) = true) w →
      issueOne g src o s = s.trapsAt 7 (((s.reads 6 src).b.word + BitVec.ofNat 64 (4 * w)) &&& ~~~0x3FF)) ∧
    (load = true → s.issuer.dbgPend = true →
      (s.issuer.dbgOwn = true → ∀ w, (w < (n + 3) / 4 ∧ on (s.reads 6 src) w = true) →
        ¬ s.boundaryState.engineOwns ((k + 4 * w) / 1024) = true) →
      FirstAt (fun w => (w < (n + 3) / 4 ∧ on (s.reads 6 src) w = true) ∧ s.issuer.wordPending (k + 4 * w) = true) w →
      issueOne g src o s = s.trapsAt 8 (((s.reads 6 src).b.word + BitVec.ofNat 64 (4 * w)) &&& ~~~3)) := by
  let i := s.reads 6 src
  have hwords : accessWords i n (on i) = ((List.range ((n + 3) / 4)).filter (on i)).map (i.wordPiece k) := by
    have hk : fixedKey i.s i.cid.core i.b.word = some k := hk
    simp only [accessWords, hk]
  have hchk : o.chk i = debugTrap i load (((List.range ((n + 3) / 4)).filter (on i)).map (i.wordPiece k)) := by
    rw [ho.chk, fixedCheck_good h0 hk, hwords]
    rfl
  have hengine (j : Nat) (hj : j < (n + 3) / 4) :
      enginePiece i (i.wordPiece k j) = s.boundaryState.engineOwns ((k + 4 * j) / 1024) := by
    have hsize := ho.size
    have howner : hasOwner (k + 4 * j) = true := hasOwner_of_fixedKey hk (by omega)
    simp only [enginePiece, In.wordPiece, howner, Bool.true_and]
    rfl
  constructor
  · rintro hd ⟨⟨hw, he⟩, hmin⟩
    have hfirst : FirstAt (fun j => (j < (n + 3) / 4 ∧ on i j = true) ∧ enginePiece i (i.wordPiece k j) = true) w :=
      ⟨⟨hw, by rw [hengine w hw.1, he]⟩, fun j hj hon => hmin j hj ⟨hon.1, by rw [← hengine j hon.1.1, hon.2]⟩⟩
    have htrap : o.chk i = some (causeOwner, granuleAddr (i.wordPiece k w).addr) :=
      hchk.trans (debugTrap_owner hd hfirst.find?_filter_map)
    exact ho.traps h htrap
  · rintro rfl hd hno hw
    have hfirst : FirstAt (fun j =>
      (j < (n + 3) / 4 ∧ on i j = true) ∧ i.c.wordPending (i.wordPiece k j).key = true) w := hw
    have hnone (hown : i.c.dbgOwn = true) :
        (((List.range ((n + 3) / 4)).filter (on i)).map (i.wordPiece k)).find? (enginePiece i) = none := by
      refine find?_filter_map_none (fun j hj => ?_)
      rw [hengine j hj.1]
      exact Bool.eq_false_iff.2 (hno hown j hj)
    have htrap : o.chk i = some (causePend, (i.wordPiece k w).addr &&& ~~~3) :=
      hchk.trans (debugTrap_pend hnone hd (FirstAt.find?_filter_map (p := fun q : Piece => i.c.wordPending q.key) hfirst))
    exact ho.traps h htrap

end

/-! ### Lane slices (R92, R103) -/

/-- The trigger's offset of lane `k`. -/
def In.laneOff (i : In) (k : Nat) : Nat := laneOf 32 (i.b.lanes 32).toNat k

/-- The lanes' offsets with their numbers. -/
theorem offs_zipIdx (i : In) : i.offs.zipIdx = (List.range 32).map (fun k => (i.laneOff k, k)) := by
  apply List.ext_getElem
  · simp [In.offs, lanesOf]
  · intro k h1 h2
    simp [In.offs, lanesOf, In.laneOff]

/-- Every lane's offset is a word of a lane slice. -/
def In.lanesGood (i : In) : Prop := ∀ k, k < 32 → i.laneOff k % 4 = 0 ∧ i.laneOff k < 1024

theorem offs_any (i : In) (p : Nat → Bool) : i.offs.any p = (List.range 32).any (fun k => p (i.laneOff k)) := by
  simp only [In.offs, lanesOf, List.any_map]
  rfl

theorem laneCheck_bad {i : In} (h : ∃ k, k < 32 ∧ (i.laneOff k % 4 ≠ 0 ∨ 1024 ≤ i.laneOff k)) :
    laneCheck i = some (causeAddr, i.s.freeWord) := by
  obtain ⟨k, hk, ho⟩ := h
  refine if_pos ?_
  rw [offs_any]
  exact List.any_eq_true.2 ⟨k, List.mem_range.2 hk, by simpa using ho⟩

theorem laneCheck_good {i : In} (h : i.lanesGood) : laneCheck i = none := by
  refine if_neg ?_
  rw [offs_any, List.any_eq_true]
  rintro ⟨k, hk, ho⟩
  obtain ⟨h0, h1⟩ := h k (List.mem_range.1 hk)
  simp [h0] at ho
  omega

/-- The word of lane `k` in its slice, with its code. -/
def In.lanePiece (i : In) (k : Nat) : Piece :=
  ⟨laneKey i.cid.core.val k (i.laneOff k), BitVec.ofNat 64 (0x84 * 2 ^ 56 + 0x400 * k + i.laneOff k)⟩

theorem lanePieces_all (i : In) : lanePieces i (fun _ => true) = (List.range 32).map i.lanePiece := by
  simp only [lanePieces, List.filter_true, offs_zipIdx, List.map_map]
  rfl

/-- PEND_DBG of a lane load gives the code of the first lane's word whose store is pending. -/
theorem lanePend_first {i : In} {k : Nat} (hd : i.c.dbgPend = true)
    (h : FirstAt (fun k => k < 32 ∧ i.c.wordPending (laneKey i.cid.core.val k (i.laneOff k)) = true) k) :
    lanePend i = some (causePend, BitVec.ofNat 64 (0x84 * 2 ^ 56 + 0x400 * k + i.laneOff k)) := by
  have hfind : (lanePieces i (fun _ => true)).find? (fun p => i.c.wordPending p.key) = some (i.lanePiece k) := by
    rw [lanePieces_all, List.find?_map]
    exact congrArg (Option.map i.lanePiece) (FirstAt.find?_range (p := fun k => i.c.wordPending (i.lanePiece k).key) h)
  simp only [lanePend, hd, if_true, hfind]
  rfl

theorem opVldl_mem (a : Fin 4) : MemOp (opVldl a) := ⟨rfl, rfl, rfl, fun _ => rfl, fun _ => rfl⟩
theorem opVstl_mem (a : Fin 4) : MemOp (opVstl a) := ⟨rfl, rfl, rfl, fun _ => rfl, fun _ => rfl⟩

/-! ### Gather and scatter (R93, R103) -/

theorem baseCheck_bad {i : In} (h : i.o2.word.toNat % 4 ≠ 0 ∨ fixedKey i.s i.cid.core i.o2.word = none) :
    baseCheck i = some (causeAddr, i.o2.word) := by
  have hnone : i.baseLoc = none := if_pos (h.imp_right (fun e => by rw [e]; rfl))
  simp only [baseCheck, hnone, Option.isNone_none, if_true]

theorem baseCheck_good {i : In} (h : i.baseLoc.isSome = true) : baseCheck i = none := by
  obtain ⟨x, hx⟩ := Option.isSome_iff_exists.1 h
  simp [baseCheck, hx]

/-- The window of a base lies in the memory of a stream core. -/
theorem baseLoc_eq {i : In} {k off room : Nat} (h : i.baseLoc = some (k, off, room)) :
    i.cid.core.val < 4096 ∧
      ((k = coreKey i.cid.core.val 0 ∧ room = 0x28000) ∨ (k = sliceKey i.cid.core.val 0 ∧ room = 0x10000)) := by
  simp only [In.baseLoc] at h
  split at h
  · cases h
  · rename_i hp
    have hsome : (fixedKey i.s i.cid.core i.o2.word).isSome = true := by
      rw [Option.isSome_iff_ne_none]
      intro e
      exact hp (.inr (by rw [e]; rfl))
    obtain ⟨k', hk'⟩ := Option.isSome_iff_exists.1 hsome
    refine ⟨core_lt_of_fixedKey hk', ?_⟩
    split at h
    all_goals cases h
    · exact .inl ⟨rfl, rfl⟩
    · exact .inr ⟨rfl, rfl⟩

/-- A word that a lane addresses lies where owner bits are. -/
theorem hasOwner_of_lanePlace {i : In} {o q : Nat} (h : i.lanePlace o = some q) : hasOwner q = true := by
  cases hb : i.baseLoc with
  | none => simp [In.lanePlace, hb] at h
  | some b =>
    obtain ⟨k, off, room⟩ := b
    obtain ⟨hn, hk⟩ := baseLoc_eq hb
    simp only [In.lanePlace, hb] at h
    split at h
    · rename_i hq
      cases h
      obtain ⟨-, hroom, -⟩ := hq
      rw [hasOwner_iff]
      simp only [coreKey, sliceKey] at hk ⊢
      omega
    · cases h

/-- The word of lane `k` of a gather or scatter, where it addresses one. -/
def In.gatherPiece (i : In) (k : Nat) : Option Piece :=
  (i.lanePlace (i.laneOff k)).map (fun q => ⟨q, i.o2.word + BitVec.ofNat 64 (i.laneOff k)⟩)

theorem gatherPieces_map (i : In) (on : Nat → Bool) :
    (gatherPieces i on).map (·.2) = (List.range 32).filterMap (fun k => if on k then i.gatherPiece k else none) := by
  simp only [gatherPieces, offs_zipIdx, List.filterMap_map, List.map_filterMap]
  congr 1
  funext k
  cases hon : on k <;> simp [hon, In.gatherPiece, Option.map_map, Function.comp_def]

/-- ADDRCLASS of a scatter names the first enabled lane that addresses no word. -/
theorem scatterCheck_first {i : In} {k : Nat}
    (h : FirstAt (fun k => k < 32 ∧ i.o3.getLsbD k = true ∧ i.lanePlace (i.laneOff k) = none) k) :
    scatterCheck i = some (causeAddr, i.o2.word + BitVec.ofNat 64 (i.laneOff k)) := by
  have h' : FirstAt (fun k => k < 32 ∧ (i.o3.getLsbD k && (i.lanePlace (i.laneOff k)).isNone) = true) k := by
    simpa only [Bool.and_eq_true, Option.isNone_iff_eq_none] using h
  rw [scatterCheck, offs_zipIdx, List.find?_map]
  exact congrArg (fun x => (Option.map (fun k => (i.laneOff k, k)) x).map
    (fun p => (causeAddr, i.o2.word + BitVec.ofNat 64 p.1))) h'.find?_range

theorem scatterCheck_good {i : In} (h : ∀ k, k < 32 → i.o3.getLsbD k = true → (i.lanePlace (i.laneOff k)).isSome = true) :
    scatterCheck i = none := by
  have hnone : i.offs.zipIdx.find? (fun p => i.o3.getLsbD p.2 && (i.lanePlace p.1).isNone) = none := by
    rw [offs_zipIdx, List.find?_map, Option.map_eq_none_iff, List.find?_eq_none]
    intro k hk
    have := h k (List.mem_range.1 hk)
    cases hon : i.o3.getLsbD k
    · simp [hon]
    · simpa [hon, Option.isSome_iff_ne_none] using this hon
  rw [scatterCheck, hnone]
  rfl

/-- The first lane whose word passes a test of its key is the first whose piece does. -/
theorem gather_find?_first {i : In} {on : Nat → Bool} {P : Nat → Prop} {p : Piece → Bool} {k q : Nat}
    (h : FirstAt (fun k => k < 32 ∧ on k = true ∧ ∃ q, i.lanePlace (i.laneOff k) = some q ∧ P q) k)
    (hq : i.lanePlace (i.laneOff k) = some q)
    (hp : ∀ k q, i.lanePlace (i.laneOff k) = some q → (p ⟨q, i.o2.word + BitVec.ofNat 64 (i.laneOff k)⟩ = true ↔ P q)) :
    ((gatherPieces i on).map (·.2)).find? p = some ⟨q, i.o2.word + BitVec.ofNat 64 (i.laneOff k)⟩ := by
  have hany (k : Nat) : ((if on k then i.gatherPiece k else none).any p = true) ↔
      on k = true ∧ ∃ q, i.lanePlace (i.laneOff k) = some q ∧ P q := by
    cases hon : on k with
    | false => simp
    | true =>
      cases hl : i.lanePlace (i.laneOff k) with
      | none => simp [In.gatherPiece, hl]
      | some q => simpa [In.gatherPiece, hl] using hp k q hl
  have hfirst : FirstAt (fun k => k < 32 ∧ (if on k then i.gatherPiece k else none).any p = true) k := by
    simpa only [hany] using h
  rw [gatherPieces_map]
  refine hfirst.find?_filterMap ?_
  rw [if_pos h.1.2.1, In.gatherPiece, hq]
  rfl

/-- OWNER_DBG of a gather or scatter names the granule of the first lane's word that an engine owns. -/
theorem gather_owner {i : In} {load : Bool} {on : Nat → Bool} {k q : Nat} (hd : i.c.dbgOwn = true)
    (h : FirstAt (fun k => k < 32 ∧ on k = true ∧
      ∃ q, i.lanePlace (i.laneOff k) = some q ∧ i.s.engineOwns (q / 1024) = true) k)
    (hq : i.lanePlace (i.laneOff k) = some q) :
    debugTrap i load ((gatherPieces i on).map (·.2)) =
      some (causeOwner, (i.o2.word + BitVec.ofNat 64 (i.laneOff k)) &&& ~~~0x3FF) := by
  refine debugTrap_owner hd (gather_find?_first h hq (fun k q hq => ?_))
  rw [enginePiece, hasOwner_of_lanePlace hq, Bool.true_and]
  rfl

/-- PEND_DBG of a gather names the first lane's word whose store is pending. -/
theorem gather_pend {i : In} {on : Nat → Bool} {k q : Nat} (ho : i.c.dbgOwn = false) (hd : i.c.dbgPend = true)
    (h : FirstAt (fun k => k < 32 ∧ on k = true ∧
      ∃ q, i.lanePlace (i.laneOff k) = some q ∧ i.c.wordPending q = true) k)
    (hq : i.lanePlace (i.laneOff k) = some q) :
    debugTrap i true ((gatherPieces i on).map (·.2)) =
      some (causePend, (i.o2.word + BitVec.ofNat 64 (i.laneOff k)) &&& ~~~3) :=
  debugTrap_pend (fun e => absurd e (by rw [ho]; decide)) hd (gather_find?_first h hq (fun _ _ _ => Iff.rfl))

theorem opVgath_mem (a : Fin 4) : MemOp (opVgath a) := ⟨rfl, rfl, rfl, fun _ => rfl, fun _ => rfl⟩
theorem opVscat_mem (a : Fin 4) : MemOp (opVscat a) := ⟨rfl, rfl, rfl, fun _ => rfl, fun _ => rfl⟩

/-! ### Scoreboarded accesses and AMOs (R94, R96) -/

/-- A canonical address is global for every core. -/
theorem locOf_of_canonical {n : Fin 4112} {a : Word} (h : canonical a = true) : ∃ va, locOf n a = .glob va := by
  unfold canonical at h
  split at h
  · rename_i va hva
    exact ⟨va, by rw [locOf, hva]⟩
  · cases h

theorem sbCheck_bad {i : In} {n : Nat} (h : i.b.word.toNat % n ≠ 0 ∨ locOf i.cid.core i.b.word = .bad) :
    sbCheck i n = some (causeAddr, i.b.word) := by
  simp only [sbCheck]
  split
  · rfl
  · rename_i h0
    rw [h.resolve_left h0]

/-- FATAL_UNMAPPED for an aligned global address that no active window covers. -/
theorem sbCheck_unmapped {i : In} {n : Nat} (h0 : i.b.word.toNat % n = 0) (hc : canonical i.b.word = true)
    (hw : (i.s.core i.cid.core).coverOf i.b.word = none) : sbCheck i n = some (causeUnmapped, i.b.word) := by
  obtain ⟨va, hva⟩ := locOf_of_canonical (n := i.cid.core) hc
  simp only [sbCheck, h0, hva, hw, ne_eq, not_true_eq_false, Option.isNone_none, if_false, if_true]

theorem amoCheck_bad {i : In} {n : Nat}
    (h : i.b.word.toNat % n ≠ 0 ∨ locOf i.cid.core i.b.word = .bad ∨ canonical i.b.word = true) :
    amoCheck i n = some (causeAddr, i.b.word) := by
  simp only [amoCheck]
  split
  · rfl
  · rename_i h0
    rcases h.resolve_left h0 with hb | hc
    · rw [hb]
    · obtain ⟨va, hva⟩ := locOf_of_canonical (n := i.cid.core) hc
      rw [hva]

/-- How a bundle ends whose scoreboarded access, or AMO, of `n` bytes at `x` is outside its reach: ADDRCLASS where `x` is
misaligned, in no window, or global for an AMO; FATAL_UNMAPPED where no active window covers a global address. -/
def ReachTraps (s : State) (x : Word) (n : Nat) (amo : Bool) (r : Host.Outcome State Fault Refusal) : Prop :=
  ((x.toNat % n ≠ 0 ∨ locOf s.cur.core x = .bad ∨ (amo = true ∧ canonical x = true)) → r = s.trapsAt 3 x) ∧
  (amo = false → x.toNat % n = 0 → canonical x = true → (s.boundaryState.core s.cur.core).coverOf x = none →
    r = s.trapsAt 5 x)

section
variable {s : State} {g : Guard} {src : Src} {o : Op} {n : Nat}

theorem MemOp.reach (ho : MemOp o) (h : Ready s g src) (hk : o.chk (s.reads 6 src) = sbCheck (s.reads 6 src) n) :
    ReachTraps s (s.reads 6 src).b.word n false (issueOne g src o s) := by
  refine ⟨fun hx => ho.traps h (hk.trans (sbCheck_bad ?_)),
    fun _ h0 hc hw => ho.traps h (hk.trans (sbCheck_unmapped h0 hc hw))⟩
  rcases hx with h0 | hb | ⟨⟨⟩, -⟩
  · exact .inl h0
  · exact .inr hb

theorem MemOp.amoReach (ho : MemOp o) (h : Ready s g src) (hk : o.chk (s.reads 6 src) = amoCheck (s.reads 6 src) n) :
    ReachTraps s (s.reads 6 src).b.word n true (issueOne g src o s) :=
  ⟨fun hx => ho.traps h (hk.trans (amoCheck_bad (hx.imp_right (Or.imp_right And.right)))), nofun⟩

end

theorem amoOp_mem (t n : Nat) (a : Fin 4) (kind : In → SbKind) : MemOp (amoOp t n a kind) :=
  ⟨rfl, rfl, rfl, fun _ => rfl, fun _ => rfl⟩
theorem opLdx_mem (a : Fin 4) : MemOp (opLdx a) := ⟨rfl, rfl, rfl, fun _ => rfl, fun _ => rfl⟩
theorem opVldx_mem (a : Fin 4) : MemOp (opVldx a) := ⟨rfl, rfl, rfl, fun _ => rfl, fun _ => rfl⟩
theorem opStx_mem (a : Fin 4) : MemOp (opStx a) := ⟨rfl, rfl, rfl, fun _ => rfl, fun _ => rfl⟩
theorem opVstx_mem (a : Fin 4) : MemOp (opVstx a) := ⟨rfl, rfl, rfl, fun _ => rfl, fun _ => rfl⟩

/-- The size of a scoreboarded scalar access, as .o2 names it (R94). -/
theorem sbSize_eq (x : Word) : 2 ^ field x 0 2 = 2 ^ (x.toNat % 4) := by
  simp [field]

/-- Settles O24: the check of each class M operation, access by access. -/
theorem misalignedTraps : Obligations.MisalignedTraps := by
  intro g src a s h
  have load {t n : Nat} {sgn : Bool} (hn : n ≤ 128) := (loadOp_access (t := t) (sgn := sgn) (a := a) hn)
  have store {t n : Nat} (hn : n ≤ 128) := (storeOp_access (t := t) (a := a) hn)
  have amo {t n : Nat} (kind : In → SbKind) := (amoOp_mem t n a kind).amoReach h (n := n) rfl
  refine ⟨(load (by decide)).misaligned h, (load (by decide)).misaligned h, (load (by decide)).misaligned h,
    (load (by decide)).misaligned h, (load (by decide)).misaligned h, (load (by decide)).misaligned h,
    (load (by decide)).misaligned h, (load (by decide)).misaligned h, (store (by decide)).misaligned h,
    (store (by decide)).misaligned h, (store (by decide)).misaligned h, (store (by decide)).misaligned h,
    opVst_access.misaligned h, ?_, ?_, ?_, ?_, ?_, ?_, ?_⟩
  · intro hbad
    have hc := laneCheck_bad (i := s.reads 6 src) hbad
    exact ⟨(opVldl_mem a).traps h (by show (laneCheck _).or _ = _; rw [hc]; rfl), (opVstl_mem a).traps h hc⟩
  · intro hbad
    have hc := baseCheck_bad (i := s.reads 6 src) hbad
    exact ⟨(opVgath_mem a).traps h (by show (baseCheck _).or _ = _; rw [hc]; rfl),
      (opVscat_mem a).traps h (by show ((baseCheck _).or _).or _ = _; rw [hc]; rfl)⟩
  · intro hbase k hk
    refine (opVscat_mem a).traps h ?_
    show ((baseCheck _).or _).or _ = _
    rw [baseCheck_good hbase, scatterCheck_first hk]
    rfl
  · have size := sbSize_eq (s.reads 6 src).o2.word
    exact ⟨(opLdx_mem a).reach h (by rw [← size]; rfl), (opVldx_mem a).reach h rfl,
      (opStx_mem a).reach h (by rw [← size]; rfl), (opVstx_mem a).reach h rfl, amo _, amo _, amo _, amo _, amo _, amo _⟩
  · exact ⟨(load (by decide)).debug h, (load (by decide)).debug h, (load (by decide)).debug h,
      (load (by decide)).debug h, (load (by decide)).debug h, (load (by decide)).debug h,
      (load (by decide)).debug h, (load (by decide)).debug h, (store (by decide)).debug h,
      (store (by decide)).debug h, (store (by decide)).debug h, (store (by decide)).debug h,
      opVst_access.debug h⟩
  · intro hgood hd k hk
    refine (opVldl_mem a).traps h ?_
    show (laneCheck _).or _ = _
    rw [laneCheck_good hgood, Option.none_or]
    exact lanePend_first hd hk
  · intro hbase
    refine ⟨fun hd k q hk hq => (opVgath_mem a).traps h ?_, fun hd hall k hk => ?_, fun hd ho k hk => ?_⟩
    · show (baseCheck _).or _ = _
      rw [baseCheck_good hbase, Option.none_or]
      exact gather_owner hd (FirstAt.of_all hk) hq
    · obtain ⟨-, -, q, hq, -⟩ := hk.1
      refine (opVscat_mem a).traps h ?_
      show ((baseCheck _).or _).or _ = _
      rw [baseCheck_good hbase, scatterCheck_good hall, Option.none_or, Option.none_or]
      exact gather_owner hd hk hq
    · obtain ⟨-, q, hq, -⟩ := hk.1
      refine (opVgath_mem a).traps h ?_
      show (baseCheck _).or _ = _
      rw [baseCheck_good hbase, Option.none_or]
      exact gather_pend ho hd (FirstAt.of_all hk) hq

end Sys2Proof.Machine
end

section
/-! EXIT, HALT, QPT and PROBE: the bundles that issue at a quiescent point (R77, R78, R309, R336, R337, R339). -/

namespace Sys2Proof.Machine

/-! ### A context changed twice -/

theorem coresSet_coresSet (l : List (Nat × Core)) (n : Nat) (a b : Core) : coresSet (coresSet l n a) n b = coresSet l n b := by
  induction l with
  | nil => simp [coresSet]
  | cons p r ih =>
    obtain ⟨m, d⟩ := p
    by_cases hlt : n < m
    · simp [coresSet, hlt]
    · by_cases heq : n = m
      · simp [coresSet, heq]
      · simp [coresSet, hlt, heq, ih]

theorem State.setCore_setCore (s : State) (n : Fin 4112) (a b : Core) : (s.setCore n a).setCore n b = s.setCore n b := by
  simp only [State.setCore, coresSet_coresSet]

theorem State.modCtx_modCtx (s : State) (cid : Cid) (f g : Ctx → Ctx) :
    (s.modCtx cid f).modCtx cid g = s.modCtx cid (fun c => g (f c)) := by
  rw [State.modCtx, State.ctx_modCtx_self]
  simp only [State.modCtx, State.setCtx, State.core_setCore_self, State.setCore_setCore, Core.setAt, Vector.set_set]

/-! ### Bundles that issue -/

/-- What the operation makes of the moved state is all that counts of it. -/
theorem afterMove_congr {s : State} {src : Src} {rnd : Bool} {f f' : State → State}
    (h : f (s.boundaryState.setCtx s.cur (s.moved src rnd)) = f' (s.boundaryState.setCtx s.cur (s.moved src rnd))) :
    s.afterMove src rnd f = s.afterMove src rnd f' := by
  have h : f ((boundaryEff s).st.setCtx s.cur (s.moved src rnd)) = f' ((boundaryEff s).st.setCtx s.cur (s.moved src rnd)) := h
  simp only [State.afterMove, Eff.on, h]

/-- An operation that acknowledges every invalidation that has arrived and changes its context leaves both changes. -/
theorem afterMove_ackAll {s : State} {src : Src} {f : Ctx → Ctx} {u : Fin 15} :
    s.afterMove src false (fun t => (ackAll (s.reads u src) t).modCtx s.cur f) =
      s.afterCtx src false (fun c => f { c with ack := s.boundaryState.invNext }) :=
  afterMove_congr (State.modCtx_modCtx ..)

/-! ### Bundles that wait -/

/-- All of a context's stores perform: its own state is otherwise as it was. -/
theorem stores_all_ctx (e : Eff) (cid : Cid) :
    (e.stores cid (fun _ => true)).st.ctx cid = { e.st.ctx cid with stores := [] } := by
  simp [Eff.stores]

/-- The context of a bundle that blocks, once its operation has waited. -/
theorem block_one_ctx (e : Eff) (cid : Cid) (o : Op) (i : In) :
    (e.block cid [(o, i)]).st.ctx cid =
      (let c := (o.wait i (e.stores cid (fun _ => true)).st).ctx cid
       { c with blocked := true, lastSeq := c.seq }) := by
  simp [Eff.block]

/-- The four counters are zero and the post queue is empty. -/
def Ctx.still (c : Ctx) : Prop := c.ld = 0 ∧ c.stc = 0 ∧ c.cp = 0 ∧ c.tl = 0 ∧ c.post = []

theorem quiescent_iff (c : Ctx) : c.quiescent = true ↔ c.still := by
  simp [Ctx.still, Ctx.quiescent, Ctx.countsZero, and_assoc]

/-! ### PROBE: the range (R15, R336) -/

theorem probeLen_pos (i : In) : 0 < i.probeLen := Nat.le_max_left 1 _

/-- The bytes that a PROBE names lie in one window class, and are canonical throughout. -/
def In.probeLegal (i : In) : Prop :=
  match locOf i.cid.core i.b.word with
  | .bad => False
  | .glob _ => i.b.word.toNat + i.probeLen ≤ 2 ^ 64 ∧ canonical (i.b.word + BitVec.ofNat 64 (i.probeLen - 1)) = true
  | .slice k o => k * 2 ^ 16 + o + i.probeLen ≤ 2 ^ 24
  | .chip o => o + i.probeLen ≤ 0x4000000
  | .own o => o + i.probeLen ≤ 0x28000
  | .peer _ o => o + i.probeLen ≤ 0x28000

theorem probeBad_iff (i : In) : probeBad i = false ↔ i.probeLegal := by
  have hpos := probeLen_pos i
  cases hl : locOf i.cid.core i.b.word with
  | bad => simp [probeBad, In.probeLegal, hl]
  | glob va => simp [probeBad, In.probeLegal, hl]
  | slice k o => simp [probeBad, In.probeLegal, hl]
  | chip o =>
    simp only [probeBad, In.probeLegal, hl, roomOf]
    exact decide_eq_false_iff_not.trans (by omega)
  | own o =>
    simp only [probeBad, In.probeLegal, hl, roomOf]
    exact decide_eq_false_iff_not.trans (by omega)
  | peer n o =>
    simp only [probeBad, In.probeLegal, hl, roomOf]
    exact decide_eq_false_iff_not.trans (by omega)

/-! ### PROBE: the pages (R336) -/

/-- A scan finds the first page that is not present: all before it are. -/
theorem scanPages_eq_some {s : State} {cid : Cid} {ro : Bool} {n va p : Nat} {st : PageSt} :
    scanPages s cid ro n va = some (p, st) ↔
      ∃ j, j < n ∧ p = va + 4096 * j ∧ pageSt s cid p ro = st ∧ st ≠ .ok ∧
        ∀ k, k < j → pageSt s cid (va + 4096 * k) ro = .ok := by
  induction n generalizing va with
  | zero => simp [scanPages]
  | succ n ih =>
    unfold scanPages
    split
    · rename_i hok
      rw [ih]
      constructor
      · rintro ⟨j, hj, rfl, hst, hne, hall⟩
        refine ⟨j + 1, by omega, by ring, hst, hne, fun k hk => ?_⟩
        cases k with
        | zero => exact hok
        | succ k =>
          rw [show va + 4096 * (k + 1) = va + 4096 + 4096 * k by ring]
          exact hall k (by omega)
      · rintro ⟨j, hj, rfl, hst, hne, hall⟩
        cases j with
        | zero => exact absurd (hst.symm.trans hok) hne
        | succ j =>
          refine ⟨j, by omega, by ring, hst, hne, fun k hk => ?_⟩
          rw [show va + 4096 + 4096 * k = va + 4096 * (k + 1) by ring]
          exact hall (k + 1) (by omega)
    · rename_i x hx
      constructor
      · rintro ⟨⟩
        exact ⟨0, by omega, rfl, rfl, hx, fun k hk => absurd hk (Nat.not_lt_zero k)⟩
      · rintro ⟨j, hj, rfl, hst, hne, hall⟩
        cases j with
        | zero => rw [← hst]; rfl
        | succ j => exact absurd (hall 0 (by omega)) hx

/-- The page that a global PROBE has still to see is the first of its range that is not present with the permission asked
for. -/
theorem probeNext_first {i : In} (hc : canonical i.b.word = true) (hp : i.c.probe = none) (p : Nat) (st : PageSt) :
    i.probeNext = some (p, st) ↔
      p % 4096 = 0 ∧ i.b.word.toNat / 4096 * 4096 ≤ p ∧ p < i.b.word.toNat + i.probeLen ∧
        pageSt i.s i.cid p i.probeRo = st ∧ st ≠ .ok ∧
        ∀ q, q % 4096 = 0 → i.b.word.toNat / 4096 * 4096 ≤ q → q < p → pageSt i.s i.cid q i.probeRo = .ok := by
  have hpos := probeLen_pos i
  have hfrom : i.probeFrom = i.b.word.toNat / 4096 * 4096 := by simp only [In.probeFrom, hp]
  simp only [In.probeNext, hc, hp, hfrom, if_true, Option.bind_none]
  rw [scanPages_eq_some]
  constructor
  · rintro ⟨j, hj, rfl, hst, hne, hall⟩
    refine ⟨by omega, by omega, by omega, hst, hne, fun q hq hle hlt => ?_⟩
    have hqk : q = i.b.word.toNat / 4096 * 4096 + 4096 * (q / 4096 - i.b.word.toNat / 4096) := by omega
    rw [hqk]
    exact hall _ (by omega)
  · rintro ⟨h0, hle, hlt, hst, hne, hall⟩
    refine ⟨p / 4096 - i.b.word.toNat / 4096, by omega, by omega, hst, hne, fun k hk => ?_⟩
    exact hall _ (by omega) (by omega) (by omega)

/-! ### PROBE: FATAL_UNPROBED and the request (R336) -/

section
variable {i : In} {p : Nat}

theorem probeFatal_noPort (hq : i.c.quiescent = true) (hn : i.probeNext = some (p, .noPort)) : probeFatal i = some p := by
  simp [probeFatal, hq, hn]

/-- The request for the awaited page was answered by a failure. -/
theorem probeFatal_answered {q : Probe} {u : Nat} (hq : i.c.quiescent = true) (hn : i.probeNext = some (p, .absent))
    (hp : i.c.probe = some q) (hpage : q.page = p) (ha : q.asked = some u)
    (hc : i.s.priCode u = some .invalid ∨ i.s.priCode u = some .failure) : probeFatal i = some p := by
  rcases hc with hc | hc <;> simp [probeFatal, hq, hn, hp, hpage, ha, hc]

/-- Four requests were answered by Success in vain. -/
theorem probeFatal_tries {q : Probe} (hq : i.c.quiescent = true) (hn : i.probeNext = some (p, .absent))
    (hp : i.c.probe = some q) (hpage : q.page = p) (ha : q.asked = none) (ht : q.tries = 4) : probeFatal i = some p := by
  simp [probeFatal, hq, hn, hp, hpage, ha, ht]

theorem probeFatal_success {q : Probe} {u : Nat} (hn : i.probeNext = some (p, .absent)) (hp : i.c.probe = some q)
    (hpage : q.page = p) (ha : q.asked = some u) (hc : i.s.priCode u = some .success) : probeFatal i = none := by
  simp [probeFatal, hn, hp, hpage, ha, hc]

theorem probeFatal_fresh (hn : i.probeNext = some (p, .absent)) (hp : ∀ q, i.c.probe = some q → q.page ≠ p) :
    probeFatal i = none := by
  cases hprobe : i.c.probe with
  | none => simp [probeFatal, hn, hprobe]
  | some q => simp [probeFatal, hn, hprobe, hp q hprobe]

theorem probeFatal_over (hn : i.probeNext = none) : probeFatal i = none := by
  simp [probeFatal, hn]

/-- While the answer Success is taken, the page is asked for once more. -/
theorem probeWait_success {s : State} {q : Probe} {u : Nat} (hq : i.c.quiescent = true)
    (hn : i.probeNext = some (p, .absent)) (hp : (s.ctx i.cid).probe = some q) (hpage : q.page = p) (ha : q.asked = some u)
    (hc : s.priCode u = some .success) :
    probeWait i s = ({ standQuiet i s with pri := s.pri.filter (fun r => r.uid != u) } : State).modCtx i.cid
      (fun c => { c with probe := some { q with tries := q.tries + 1, asked := none } }) := by
  have hp' : ((standQuiet i s).ctx i.cid).probe = some q := by simp [standQuiet, hp]
  have hc' : (standQuiet i s).priCode u = some .success := hc
  simp only [probeWait, hq, hn, hp', hpage, ha, hc', Bool.not_true, Bool.false_eq_true, if_false, if_true]
  rfl

/-- A page that no request of the PROBE is for is asked for, where fewer than 512 requests are outstanding. -/
theorem probeWait_fresh {s : State} (hq : i.c.quiescent = true) (hn : i.probeNext = some (p, .absent))
    (hp : ∀ q, (s.ctx i.cid).probe = some q → q.page ≠ p) (hf : (s.pri.filter (fun r => r.code.isNone)).length < 512) :
    probeWait i s = ({ standQuiet i s with
        pri := s.pri ++ [{ uid := s.nextUid, pasid := (s.ctx i.cid).pasid, page := p, write := !i.probeRo, code := none }]
        nextUid := s.nextUid + 1 } : State).modCtx i.cid
      (fun c => { c with probe := some { page := p, tries := 0, asked := some s.nextUid } }) := by
  have hctx : (standQuiet i s).ctx i.cid = { s.ctx i.cid with quiet := true } := by simp [standQuiet]
  have hfull : ¬ 512 ≤ ((standQuiet i s).pri.filter (fun r => r.code.isNone)).length := Nat.not_le.2 hf
  cases hprobe : (s.ctx i.cid).probe with
  | none =>
    simp only [probeWait, hq, hn, hctx, hprobe, State.askPage, if_neg hfull, Bool.not_true, Bool.false_eq_true, if_false]
    rfl
  | some q =>
    simp only [probeWait, hq, hn, hctx, hprobe, if_neg (hp q hprobe), State.askPage, if_neg hfull, Bool.not_true,
      Bool.false_eq_true, if_false]
    rfl

/-- Standing at a quiescent point moves no program counter, whatever the state holds beside its cores. -/
theorem standQuiet_pc {i : In} {s t : State} (h : t.cores = (standQuiet i s).cores) : (t.ctx i.cid).pc = (s.ctx i.cid).pc := by
  rw [State.ctx_congr h, standQuiet, State.ctx_modCtx_self]

theorem probeWait_success_ctx {s : State} {q : Probe} {u : Nat} (hq : i.c.quiescent = true)
    (hn : i.probeNext = some (p, .absent)) (hp : (s.ctx i.cid).probe = some q) (hpage : q.page = p) (ha : q.asked = some u)
    (hc : s.priCode u = some .success) :
    ((probeWait i s).ctx i.cid).pc = (s.ctx i.cid).pc ∧
      ((probeWait i s).ctx i.cid).probe = some { q with tries := q.tries + 1, asked := none } := by
  rw [probeWait_success hq hn hp hpage ha hc, State.ctx_modCtx_self]
  exact ⟨standQuiet_pc rfl, rfl⟩

theorem probeWait_fresh_ctx {s : State} (hq : i.c.quiescent = true) (hn : i.probeNext = some (p, .absent))
    (hp : ∀ q, (s.ctx i.cid).probe = some q → q.page ≠ p) (hf : (s.pri.filter (fun r => r.code.isNone)).length < 512) :
    ((probeWait i s).ctx i.cid).pc = (s.ctx i.cid).pc ∧
      ((probeWait i s).ctx i.cid).probe = some { page := p, tries := 0, asked := some s.nextUid } := by
  rw [probeWait_fresh hq hn hp hf, State.ctx_modCtx_self]
  exact ⟨standQuiet_pc rfl, rfl⟩

end

/-! ### The four bundles -/

/-- JOINP names no block, or one that the join step can reach. -/
theorem exitCheck_good {i : In} (hj : i.c.joinp = 0 ∨ sharedAddr i.c.joinp = true) : exitCheck i = none :=
  if_neg (by rcases hj with hj | hj <;> simp [hj])

theorem exitCheck_bad {i : In} (hj : ¬ (i.c.joinp = 0 ∨ sharedAddr i.c.joinp = true)) :
    exitCheck i = some (causeAddr, i.c.joinp) :=
  if_pos (by simpa [not_or] using hj)

/-- A legal PROBE that is not fatal has no trap. -/
theorem probe_chk_none {i : In} (hbad : probeBad i = false) (hf : probeFatal i = none) : opProbe.chk i = none := by
  simp only [opProbe, hbad, hf, Bool.false_eq_true, if_false, Option.map_none]

/-- The context of a bundle that waits, once its stores have performed. -/
theorem boundary_stores_ctx (s : State) :
    ((boundaryEff s).stores s.cur (fun _ => true)).st.ctx s.cur = { s.issuer with stores := [] } := stores_all_ctx ..

theorem boundary_stores_pc (s : State) :
    (((boundaryEff s).stores s.cur (fun _ => true)).st.ctx s.cur).pc = s.issuer.pc := by rw [boundary_stores_ctx]

theorem boundary_stores_pasid (s : State) :
    (((boundaryEff s).stores s.cur (fun _ => true)).st.ctx s.cur).pasid = s.issuer.pasid := by rw [boundary_stores_ctx]

theorem busy_false {c : Ctx} (hq : c.quiescent = true) : (!c.quiescent) = false := by rw [hq]; rfl

theorem busy_true {c : Ctx} (hq : c.quiescent = false) : (!c.quiescent) = true := by rw [hq]; rfl

/-- What a waiting bundle leaves of its context: it stands at the same program counter with the same s registers and the same
pending transfer, and is marked as blocked. -/
def StandsStill (s : State) (o : Host.Outcome State Fault Refusal) : Prop :=
  ∃ u, o = .next u ∧ (u.ctx s.cur).pc = s.issuer.pc ∧ (u.ctx s.cur).blocked = true ∧
    (u.ctx s.cur).xfer = s.issuer.xfer ∧ (u.ctx s.cur).s = s.issuer.s

/-- An operation whose wait keeps the program counter, the transfer and the s registers of its context. -/
def Op.waitsStill (o : Op) : Prop :=
  ∀ i t, ((o.wait i t).ctx i.cid).pc = (t.ctx i.cid).pc ∧ ((o.wait i t).ctx i.cid).xfer = (t.ctx i.cid).xfer ∧
    ((o.wait i t).ctx i.cid).s = (t.ctx i.cid).s

theorem opHalt_waitsStill : opHalt.waitsStill := fun _ _ => ⟨rfl, rfl, rfl⟩

theorem opExit_waitsStill : opExit.waitsStill := by
  intro i t
  simp [opExit, standQuiet]

theorem opQpt_waitsStill : opQpt.waitsStill := by
  intro i t
  simp [opQpt, standQuiet]

section
variable {s : State} {g : Guard} {src : Src} (h : Ready s g src)
include h

theorem Ready.standsStill {o : Op} (hw : o.waitsStill) (hl : o.bus.val ≠ 5) (hr : o.rnd = false)
    (hx : s.issuer.xfer = none ∨ o.xf (s.reads o.bus src) = false) (hp : o.priv = false)
    (hv : o.pv (s.reads o.bus src) = false) (hc : o.chk (s.reads o.bus src) = none) (hb : o.blk (s.reads o.bus src) = true) :
    StandsStill s (issueOne g src o s) := by
  refine ⟨_, h.issueOne_blocks (.inl hl) hr hx (.inl hp) hv hc hb, ?_⟩
  obtain ⟨hpc, hxf, hs⟩ := hw (s.reads o.bus src) ((boundaryEff s).stores s.cur (fun _ => true)).st
  have hcid : (s.reads o.bus src).cid = s.cur := rfl
  rw [hcid, boundary_stores_ctx] at hpc hxf hs
  simp only [commit_ctx, block_one_ctx, hpc, hxf, hs, and_self]

theorem Ready.exit_issues (hq : s.issuer.quiescent = true) (hx : s.issuer.xfer = none)
    (hj : s.issuer.joinp = 0 ∨ sharedAddr s.issuer.joinp = true) :
    exec (.exit g src) s = .next (s.afterCtx src false (fun c =>
      { c with ack := s.boundaryState.invNext, xfer := some { kind := .exit, target := 0, left := 2 } })) :=
  (issueOne_ready h (o := opExit) (.inl (by decide)) nofun (.inl hx) (.inl rfl) rfl (.inl rfl) (exitCheck_good hj)
    (busy_false hq) rfl rfl).trans (congrArg _ afterMove_ackAll)

theorem Ready.exit_traps (hx : s.issuer.xfer = none) (hj : ¬ (s.issuer.joinp = 0 ∨ sharedAddr s.issuer.joinp = true)) :
    exec (.exit g src) s = s.trapsAt 3 s.issuer.joinp :=
  h.issueOne_traps (o := opExit) (.inl (by decide)) rfl (.inl hx) (.inl rfl) rfl (exitCheck_bad hj)

theorem Ready.halt_issues (hq : s.issuer.quiescent = true) (hx : s.issuer.xfer = none) :
    exec (.halt g src) s = .next (s.afterMove src false (fun t =>
      State.modCtx { t with nextUid := t.nextUid + 1 } s.cur (fun c =>
        { c with xfer := some { kind := .halt, target := 0, left := 2 },
                 haltAt := some ((s.reads 7 src).b.word, t.nextUid) }))) :=
  issueOne_ready h (o := opHalt) (.inl (by decide)) nofun (.inl hx) (.inl rfl) rfl (.inl rfl) rfl (busy_false hq) rfl rfl

theorem Ready.qpt_issues (hq : s.issuer.quiescent = true)
    (hi : ∀ q ∈ s.boundaryState.invals, s.issuer.qpt.getD s.boundaryState.invNext ≤ q.num) :
    exec (.qpt g src) s =
      .next (s.afterCtx src false (fun c => { c with ack := s.boundaryState.invNext, qpt := none })) := by
  have hb : opQpt.blk (s.reads 7 src) = false := by
    have hnone : s.boundaryState.invals.any (fun q => q.num < s.issuer.qpt.getD s.boundaryState.invNext) = false := by
      simpa using hi
    exact Bool.or_eq_false_iff.2 ⟨busy_false hq, hnone⟩
  exact (issueOne_ready h (o := opQpt) (.inl (by decide)) nofun (.inr rfl) (.inl rfl) rfl (.inl rfl) rfl hb rfl rfl).trans
    (congrArg _ afterMove_ackAll)

theorem Ready.exit_waits (hq : s.issuer.quiescent = false) (hx : s.issuer.xfer = none)
    (hj : s.issuer.joinp = 0 ∨ sharedAddr s.issuer.joinp = true) : StandsStill s (exec (.exit g src) s) :=
  h.standsStill opExit_waitsStill (by decide) rfl (.inl hx) rfl rfl (exitCheck_good hj) (busy_true hq)

theorem Ready.halt_waits (hq : s.issuer.quiescent = false) (hx : s.issuer.xfer = none) :
    StandsStill s (exec (.halt g src) s) :=
  h.standsStill opHalt_waitsStill (by decide) rfl (.inl hx) rfl rfl rfl (busy_true hq)

theorem Ready.qpt_waits (hq : s.issuer.quiescent = false) : StandsStill s (exec (.qpt g src) s) := by
  have hb : opQpt.blk (s.reads 7 src) = true := Bool.or_eq_true_iff.2 (.inl (busy_true hq))
  exact h.standsStill opQpt_waitsStill (by decide) rfl (.inr rfl) rfl rfl rfl hb

/-! ### PROBE -/

theorem Ready.probe_illegal (hbad : probeBad (s.reads 7 src) = true) :
    exec (.probe g src) s = s.trapsAt 3 (s.reads 7 src).b.word :=
  h.issueOne_traps (o := opProbe) (.inl (by decide)) rfl (.inr rfl) (.inl rfl) rfl (if_pos hbad)

theorem Ready.probe_fatal {p : Nat} (hbad : probeBad (s.reads 7 src) = false) (hf : probeFatal (s.reads 7 src) = some p) :
    exec (.probe g src) s = s.trapsAt 6 (BitVec.ofNat 64 p) := by
  have hc : opProbe.chk (s.reads 7 src) = some (causeUnprobed, BitVec.ofNat 64 p) := by
    simp only [opProbe, hbad, hf, Bool.false_eq_true, if_false, Option.map_some]
  exact h.issueOne_traps (.inl (by decide)) rfl (.inr rfl) (.inl rfl) rfl hc

theorem Ready.probe_issues (hq : s.issuer.quiescent = true) (hbad : probeBad (s.reads 7 src) = false)
    (hn : (s.reads 7 src).probeNext = none) :
    exec (.probe g src) s =
      .next (s.afterCtx src false (fun c => { c with ack := s.boundaryState.invNext, probe := none })) := by
  have hb : opProbe.blk (s.reads 7 src) = false := by
    show ((!s.issuer.quiescent) || (s.reads 7 src).probeNext.isSome) = false
    rw [hq, hn]
    rfl
  exact (issueOne_ready h (o := opProbe) (.inl (by decide)) nofun (.inr rfl) (.inl rfl) rfl (.inl rfl)
    (probe_chk_none hbad (probeFatal_over hn)) hb rfl rfl).trans (congrArg _ afterMove_ackAll)

/-- A PROBE that waits for a page blocks its bundle. -/
theorem Ready.probe_blocks {p : Nat} {st : PageSt} (hbad : probeBad (s.reads 7 src) = false)
    (hf : probeFatal (s.reads 7 src) = none) (hn : (s.reads 7 src).probeNext = some (p, st)) :
    exec (.probe g src) s = .next (commit s ((boundaryEff s).block s.cur [(opProbe, s.reads 7 src)])) := by
  have hb : opProbe.blk (s.reads 7 src) = true := by
    show (_ || (s.reads 7 src).probeNext.isSome) = true
    rw [hn]
    exact Bool.or_true _
  exact h.issueOne_blocks (.inl (by decide)) rfl (.inr rfl) (.inl rfl) rfl (probe_chk_none hbad hf) hb

theorem Ready.probe_takes_success {p u : Nat} {q : Probe} (hq : s.issuer.quiescent = true)
    (hbad : probeBad (s.reads 7 src) = false) (hn : (s.reads 7 src).probeNext = some (p, .absent))
    (hp : s.issuer.probe = some q) (hpage : q.page = p) (ha : q.asked = some u)
    (hc : s.boundaryState.priCode u = some .success) :
    ∃ t, exec (.probe g src) s = .next t ∧ (t.ctx s.cur).pc = s.issuer.pc ∧
      (t.ctx s.cur).probe = some { q with tries := q.tries + 1, asked := none } := by
  have hp' : (((boundaryEff s).stores s.cur (fun _ => true)).st.ctx s.cur).probe = some q := by
    rw [boundary_stores_ctx]
    exact hp
  obtain ⟨hpc, hprobe⟩ := probeWait_success_ctx (i := s.reads 7 src) hq hn hp' hpage ha hc
  refine ⟨_, h.probe_blocks hbad (probeFatal_success hn hp hpage ha hc) hn, ?_⟩
  rw [commit_ctx, block_one_ctx]
  exact ⟨hpc.trans (boundary_stores_pc s), hprobe⟩

/-- A page of which the PROBE has no request is asked for. -/
theorem Ready.probe_asks {p : Nat} (hq : s.issuer.quiescent = true) (hbad : probeBad (s.reads 7 src) = false)
    (hn : (s.reads 7 src).probeNext = some (p, .absent))
    (hf : (s.boundaryState.pri.filter (fun r => r.code.isNone)).length < 512)
    (hp : ∀ q, s.issuer.probe = some q → q.page ≠ p) :
    ∃ t, exec (.probe g src) s = .next t ∧ (t.ctx s.cur).pc = s.issuer.pc ∧
      (t.ctx s.cur).probe = some { page := p, tries := 0, asked := some s.boundaryState.nextUid } ∧
      t.pri = s.boundaryState.pri ++ [{ uid := s.boundaryState.nextUid, pasid := s.issuer.pasid, page := p,
                                        write := !(s.reads 7 src).o1.word.getLsbD 31, code := none }] := by
  have hp' : ∀ q, (((boundaryEff s).stores s.cur (fun _ => true)).st.ctx s.cur).probe = some q → q.page ≠ p := by
    rw [boundary_stores_ctx]
    exact hp
  have hpri := congrArg State.pri (probeWait_fresh (i := s.reads 7 src) hq hn hp' hf)
  obtain ⟨hpc, hprobe⟩ := probeWait_fresh_ctx (i := s.reads 7 src) hq hn hp' hf
  refine ⟨_, h.probe_blocks hbad (probeFatal_fresh hn hp) hn, ?_⟩
  rw [commit_ctx, block_one_ctx]
  refine ⟨hpc.trans (boundary_stores_pc s), hprobe, hpri.trans ?_⟩
  have hcid : (s.reads 7 src).cid = s.cur := rfl
  simp only [State.modCtx_pri, hcid, boundary_stores_pasid]
  rfl

end

/-- Settles O35, bundle by bundle. -/
theorem quiescentBundles : Obligations.QuiescentBundles := by
  intro g src s h
  have still {P : Prop} (hs : s.issuer.still) (k : s.issuer.quiescent = true → P) : P := k ((quiescent_iff _).2 hs)
  have busy {P : Prop} (hs : ¬ s.issuer.still) (k : s.issuer.quiescent = false → P) : P :=
    k (Bool.eq_false_iff.2 (fun e => hs ((quiescent_iff _).1 e)))
  have legal := probeBad_iff (s.reads 7 src)
  refine ⟨fun hs hx hj => still hs (fun hq => h.exit_issues hq hx hj), fun hs hx => still hs (fun hq => h.halt_issues hq hx),
    fun hs hi => still hs (fun hq => h.qpt_issues hq hi), h.exit_traps, ?_, fun hs hbad hn => still hs (fun hq =>
      h.probe_issues hq hbad hn), fun hs hx => busy hs (fun hq => ⟨h.halt_waits hq hx, h.exit_waits hq hx⟩),
    fun hs => busy hs h.qpt_waits⟩
  refine ⟨legal, fun hl => h.probe_illegal (by simpa using fun e => hl (legal.1 e)), fun hc => if_neg (by simp [hc]),
    fun hc hp => probeNext_first hc hp, fun hs hl p => still hs (fun hq => ?_)⟩
  have hbad := legal.2 hl
  refine ⟨fun hn => h.probe_fatal hbad (probeFatal_noPort hq hn),
    fun hn => ⟨fun q u hp hpage ha => ⟨fun hc => ?_, ?_⟩, ?_, ?_⟩⟩
  · exact h.probe_fatal hbad (probeFatal_answered hq hn hp hpage ha hc)
  · exact h.probe_takes_success hq hbad hn hp hpage ha
  · intro q hp hpage ha ht
    exact h.probe_fatal hbad (probeFatal_tries hq hn hp hpage ha ht)
  · exact h.probe_asks hq hbad hn

end Sys2Proof.Machine
end

section
/-! The clearing of a launch while a CSC's command has sectors in flight (R97, R330): what the L9 has left of the launch is over,
but the granules that the CSC's command still writes are in state E. -/

namespace Sys2Proof.Machine

/-- A started copy of the CSC of cluster 0, which is no work of the launch. -/
def cscCopy : Cmd :=
  { uid := 1, cid := ⟨4096, 0⟩, seq := 0, bus := 10, t := 0, b := 0, o1 := 0, o2 := 0, tok := none, dst2 := none, id := 0,
    ixpol := 0, kregs := [], preds := [], xreg := 0, st := .started, desc := [], opnd := [], gran := [], touch := [],
    left := 1, res := [], prog := 0, cnt := 0, bits := 0, parked := 0, reason := 0, trapAt := none, miss := [], val2 := 0,
    key := 0, status := 0, slices := [], seen := [] }

/-- A sector of that copy, to the start of chip scratchpad, that has still to perform. -/
def cscSector : Flight :=
  { of := .cmd cscCopy.uid, wr := (List.range 32).map (fun j => (chipKey j, 0xFF)), src := [], grp := 0 }

/-- A launch that is being cleared and has no work left, beside the CSC's copy. -/
def clearingBesideCsc : State :=
  { State.reset with
    launch := { State.reset.launch with st := .running, clearing := true }
    cmds := [cscCopy]
    flight := [cscSector] }

theorem clearingBesideCsc_workOver : workOver clearingBesideCsc = true := by decide

/-- Whatever is to be cut there is the CSC's. -/
theorem clearingBesideCsc_csc : ∀ m ∈ clearingBesideCsc.cmds, isCsc m.cid = true := by decide

/-- LAUNCH_CLEAR leaves the sector of the CSC's copy in flight, and with it the first granule of chip scratchpad in state E. -/
theorem launchClear_leaves_cscSector {u : State} (h : exec .launchClear clearingBesideCsc = .next u) :
    u.engineOwns (granuleOf (chipKey 0)) = true := by
  have hu : commit clearingBesideCsc (((Eff.start clearingBesideCsc).put clearWrites).on (fun s => s.launchClear.msi 0)) = u :=
    done_eq_next.1 h
  rw [← hu]
  decide

/-- Refutes O56: LAUNCH_CLEAR keeps the sectors in flight of a CSC's commands, so it does not leave every granule in state C. -/
theorem not_launchSteps : ¬ Obligations.LaunchSteps := by
  rintro ⟨-, -, -, -, -, -, hclear⟩
  obtain ⟨u, hu, -, -, -, -, -, -, -, hfree, -⟩ := hclear clearingBesideCsc rfl rfl clearingBesideCsc_workOver
    (fun m hm _ => clearingBesideCsc_csc m hm)
  have howns := launchClear_leaves_cscSector hu
  rw [hfree] at howns
  cases howns

end Sys2Proof.Machine
end

section
/-! MAP, UNMAP and OWNSET (R59, R97 to R99, R101): what their checks ask of a window and of granules, in the spec's terms. -/

namespace Sys2Proof.Machine

/-! ### Set-up operations of the memory unit -/

/-- An operation of MU that is no access, and neither leaves work to firmware nor traps after issue: once its check and its
wait have passed, it issues. -/
structure SetupOp (o : Op) : Prop extends MemOp o where
  acc  : o.acc = false
  asst : ∀ i, o.asst i = none
  sw   : ∀ i, o.sw i = none

theorem SetupOp.issues {s : State} {g : Guard} {src : Src} {o : Op} (ho : SetupOp o) (h : Ready s g src)
    (hc : o.chk (s.reads 6 src) = none) (hb : o.blk (s.reads 6 src) = false) :
    issueOne g src o s = .next (s.afterMove src false (o.eff (s.reads 6 src))) := by
  have hbus := ho.bus
  have hrnd := ho.rnd
  have := issueOne_ready h (o := o) (.inl (by rw [hbus]; decide)) (by rw [hrnd]; nofun) (.inr (ho.xf _)) (.inl ho.priv)
    (ho.pv _) (.inl ho.acc) (by rwa [hbus]) (by rwa [hbus]) (ho.asst _) (ho.sw _)
  rwa [hbus, hrnd] at this

theorem opMap_setup : SetupOp opMap := ⟨⟨rfl, rfl, rfl, fun _ => rfl, fun _ => rfl⟩, rfl, fun _ => rfl, fun _ => rfl⟩
theorem opUnmap_setup : SetupOp opUnmap := ⟨⟨rfl, rfl, rfl, fun _ => rfl, fun _ => rfl⟩, rfl, fun _ => rfl, fun _ => rfl⟩
theorem opOwnset_setup : SetupOp opOwnset := ⟨⟨rfl, rfl, rfl, fun _ => rfl, fun _ => rfl⟩, rfl, fun _ => rfl, fun _ => rfl⟩

/-- A change that comes into force after three more bundles (R98, R99). -/
def Ctx.later (k : ApplyKind) (c : Ctx) : Ctx := { c with applies := c.applies ++ [{ kind := k, rem := 3 }] }

/-- Bits from bit 0 upward are a remainder. -/
theorem field_zero (x : Word) (n : Nat) : field x 0 n = x.toNat % 2 ^ n := by
  rw [field, pow_zero, Nat.div_one]

/-- The stream cores are those that are no CSC. -/
theorem isCsc_eq_false_iff (c : Cid) : isCsc c = false ↔ c.core.val < 4096 := by
  simp [isCsc]

/-! ### MAP (R99) -/

/-- Two extents have no byte in common. -/
def Apart (a n c m : Nat) : Prop := a + n ≤ c ∨ c + m ≤ a

theorem meets_eq_false_iff (a n c m : Nat) : meets a n c m = false ↔ Apart a n c m := by
  simp only [meets, Apart, Bool.and_eq_false_iff, decide_eq_false_iff_not]
  omega

/-- A window leaves a slot, and the backing that a new window `w` is to have, free. -/
def LeavesFree (p : Fin 8 × Win) (slot : Fin 8) (w : Win) : Prop :=
  p.1 ≠ slot ∧ Apart w.boff (2 ^ w.slog) p.2.boff (2 ^ p.2.slog)

/-- A window leaves a slot, and the range and backing that a new window `w` is to have, free. -/
def StandsBeside (p : Fin 8 × Win) (slot : Fin 8) (w : Win) : Prop :=
  p.1 ≠ slot ∧ Apart w.g0.toNat (2 ^ w.glog) p.2.g0.toNat (2 ^ p.2.glog) ∧ Apart w.boff (2 ^ w.slog) p.2.boff (2 ^ p.2.slog)

/-- The slots, ranges and backings of the windows that are not on their way out meet none of a new window's. -/
theorem live_any_eq_false_iff (l : List (Fin 8 × Win)) (slot : Fin 8) (w : Win) :
    ((l.filter (fun p => !p.2.dying)).any (fun p => p.1 == slot ||
      meets w.g0.toNat (2 ^ w.glog) p.2.g0.toNat (2 ^ p.2.glog) || meets w.boff (2 ^ w.slog) p.2.boff (2 ^ p.2.slog))) = false ↔
      ∀ p ∈ l, p.2.dying = false → StandsBeside p slot w := by
  simp only [List.any_eq_false, List.mem_filter, Bool.not_eq_true, Bool.not_eq_true', Bool.or_eq_false_iff, beq_eq_false_iff_ne,
    meets_eq_false_iff, StandsBeside, and_imp, and_assoc]

/-- The slot that a MAP names. -/
def In.mapSlot (i : In) : Fin 8 := Fin.ofNat 8 (i.o1.word.toNat % 8)

theorem mapWin_fst (i : In) : i.mapWin.1 = i.mapSlot := congrArg (Fin.ofNat 8) (field_zero ..)

/-- What R99 asks of a MAP: the conditions on its own fields, on the other windows, and on the backing in all. -/
def In.mapAllowed (i : In) : Prop :=
  let w := i.mapWin.2
  let others := mapped i.s i.cid.core
  i.cid.core.val < 4096 ∧ canonical w.g0 = true ∧ w.g0.toNat % 2 ^ w.glog = 0 ∧
    12 ≤ w.slog ∧ w.slog ≤ 16 ∧ w.slog ≤ w.glog ∧ w.glog ≤ 48 ∧
    w.boff % 2 ^ w.slog = 0 ∧ w.boff + 2 ^ w.slog ≤ 0x27F00 ∧
    (∀ p ∈ others, p.2.dying = false → StandsBeside p i.mapSlot w) ∧
    ((others.filter (fun p => !p.2.dying)).map (fun p => 2 ^ p.2.slog)).sum + 2 ^ w.slog ≤ 0x10000

theorem mapBad_eq_false_iff (i : In) : mapBad i = false ↔ i.mapAllowed := by
  simp only [mapBad, mapWin_fst, In.mapAllowed, Bool.or_eq_false_iff, isCsc_eq_false_iff, Bool.not_eq_false', bne_eq_false_iff_eq,
    decide_eq_false_iff_not, Nat.not_lt, live_any_eq_false_iff, and_assoc]
  constructor
  · rintro ⟨hcore, hcan, hmul, hsg, hg, h12, h16, hrest⟩
    exact ⟨hcore, hcan, hmul, h12, h16, hsg, hg, hrest⟩
  · rintro ⟨hcore, hcan, hmul, h12, h16, hsg, hg, hrest⟩
    exact ⟨hcore, hcan, hmul, hsg, hg, h12, h16, hrest⟩

/-- A MAP waits for no window on its way out that leaves its slot and backing free (log entry 24). -/
theorem mapWaits_eq_false_iff (i : In) :
    mapWaits i = false ↔ ∀ p ∈ mapped i.s i.cid.core, p.2.dying = true → LeavesFree p i.mapSlot i.mapWin.2 := by
  simp only [mapWaits, mapWin_fst, List.any_eq_false, Bool.not_eq_true, Bool.and_eq_false_imp, Bool.or_eq_false_iff,
    beq_eq_false_iff_ne, meets_eq_false_iff, LeavesFree]

/-- What a MAP brings into force. -/
def In.mapKind (i : In) : ApplyKind :=
  let w := i.mapWin.2
  .map i.mapSlot w.g0 w.glog w.slog w.boff w.shared

theorem opMap_eff (i : In) : opMap.eff i = fun t => t.modCtx i.cid (Ctx.later i.mapKind) := by
  funext t
  simp only [opMap, mapWin_fst]
  rfl

section
variable {s : State} {g : Guard} {src : Src} (h : Ready s g src)
include h

theorem Ready.map_issues (ha : (s.reads 6 src).mapAllowed)
    (hf : ∀ p ∈ mapped s.boundaryState s.cur.core, p.2.dying = true →
      LeavesFree p (s.reads 6 src).mapSlot (s.reads 6 src).mapWin.2) :
    exec (.map g src) s = .next (s.afterCtx src false (Ctx.later (s.reads 6 src).mapKind)) := by
  have hbad := (mapBad_eq_false_iff _).2 ha
  have hrun := opMap_setup.issues h (if_neg (by rw [hbad]; decide)) ((mapWaits_eq_false_iff _).2 hf)
  rw [opMap_eff] at hrun
  exact hrun

theorem Ready.map_traps (ha : ¬ (s.reads 6 src).mapAllowed) :
    exec (.map g src) s = s.trapsAt 3 (s.reads 6 src).b.word := by
  rw [← mapBad_eq_false_iff, Bool.not_eq_false] at ha
  exact opMap_setup.traps h (if_pos ha)

end

/-! ### OWNSET (R97, R98) -/

/-- How many granules an OWNSET names. -/
def In.ownCount (i : In) : Nat := field i.o1.word 16 8

/-- The memory that an OWNSET's granules lie in, as its key, and their offset there; none where its class, its core or its
end is outside R98's reach (log entry 19). -/
def In.ownBase (i : In) : Option (Nat × Nat) :=
  match classify i.b.word with
  | .own o => if i.cid.core.val < 4096 ∧ o + 1024 * i.ownCount ≤ 0x28000 then some (coreKey i.cid.core.val 0, o) else none
  | .slice n o => if i.cid.core.val < 4096 ∧ n = i.cid.core.val % 256 ∧ o + 1024 * i.ownCount ≤ 0x10000
      then some (sliceKey i.cid.core.val 0, o) else none
  | .chip o => if o + 1024 * i.ownCount ≤ 0x4000000 then some (chipKey 0, o) else none
  | _ => none

/-- The granules of an OWNSET at an offset of some memory. -/
def In.granulesAt (i : In) (k : Nat × Nat) : List Nat := (List.range i.ownCount).map (fun j => (k.1 + k.2) / 1024 + j)

/-- What an OWNSET brings into force at an offset of some memory. -/
def In.ownKind (i : In) (k : Nat × Nat) : ApplyKind := .own (i.granulesAt k) (i.o1.word.getLsbD 0) (field i.o1.word 8 8)

/-- A condition on the granules of an OWNSET is one on each number below their count. -/
theorem granulesAt_any_eq_false_iff (i : In) (k : Nat × Nat) (p : Nat → Bool) :
    (i.granulesAt k).any p = false ↔ ∀ j, j < i.ownCount → p ((k.1 + k.2) / 1024 + j) = false := by
  simp [In.granulesAt]

theorem map_granulesAt_ite (i : In) (c : Prop) [Decidable c] (k : Nat × Nat) :
    (if c then some k else none).map i.granulesAt = if c then some (i.granulesAt k) else none := by
  split <;> rfl

/-- The key of an offset is the memory's own key and the offset. -/
theorem coreKey_zero_add (n o : Nat) : coreKey n 0 + o = coreKey n o := by rw [coreKey, coreKey, Nat.add_zero]
theorem sliceKey_zero_add (n o : Nat) : sliceKey n 0 + o = sliceKey n o := by rw [sliceKey, sliceKey, Nat.add_zero]
theorem chipKey_zero_add (o : Nat) : chipKey 0 + o = chipKey o := by rw [chipKey, chipKey, Nat.add_zero]

/-- R98's range of an OWNSET: 1 to 64 granules from a multiple of 1 KiB in a memory within reach. -/
theorem ownRange_eq (i : In) :
    i.ownRange =
      if i.b.word.toNat % 1024 = 0 ∧ 1 ≤ i.ownCount ∧ i.ownCount ≤ 64 then i.ownBase.map i.granulesAt else none := by
  have hcount : field i.o1.word 16 8 = i.ownCount := rfl
  by_cases hc : i.b.word.toNat % 1024 = 0 ∧ 1 ≤ i.ownCount ∧ i.ownCount ≤ 64
  · have hgood : ¬ (i.b.word.toNat % 1024 ≠ 0 ∨ i.ownCount = 0 ∨ 64 < i.ownCount) := by omega
    simp only [In.ownRange, hcount, if_neg hgood, if_pos hc, In.ownBase, ← isCsc_eq_false_iff]
    cases classify i.b.word with
    | own o =>
      simp only [map_granulesAt_ite, In.granulesAt, coreKey_zero_add]
      cases isCsc i.cid <;> simp
    | slice n o =>
      simp only [map_granulesAt_ite, In.granulesAt, sliceKey_zero_add]
      cases isCsc i.cid <;> simp [coreIx, ite_and]
    | chip o => simp only [map_granulesAt_ite, In.granulesAt, chipKey_zero_add]
    | peer n o => rfl
    | glob va => rfl
    | bad => rfl
  · have hbad : i.b.word.toNat % 1024 ≠ 0 ∨ i.ownCount = 0 ∨ 64 < i.ownCount := by omega
    simp only [In.ownRange, hcount, if_pos hbad, if_neg hc]

/-- What R97 and R98 ask of an OWNSET: granules in reach at `k` and, for a grant, a count that takes none of them above 255
once the OWNSETs already issued are in force (log entry 64). -/
def In.takes (i : In) (k : Nat × Nat) : Prop :=
  let cnt := field i.o1.word 8 8
  i.b.word.toNat % 1024 = 0 ∧ 1 ≤ i.ownCount ∧ i.ownCount ≤ 64 ∧ i.ownBase = some k ∧
    (i.o1.word.getLsbD 0 = true →
      0 < cnt ∧ ∀ j, j < i.ownCount → ownGet i.s.ownAhead ((k.1 + k.2) / 1024 + j) + cnt ≤ 255)

theorem In.takes.ownRange {i : In} {k : Nat × Nat} (h : i.takes k) : i.ownRange = some (i.granulesAt k) := by
  obtain ⟨hmul, hpos, hmax, hbase, -⟩ := h
  rw [ownRange_eq, if_pos ⟨hmul, hpos, hmax⟩, hbase]
  rfl

theorem opOwnset_eff {i : In} {k : Nat × Nat} (h : i.takes k) :
    opOwnset.eff i = fun t => t.modCtx i.cid (Ctx.later (i.ownKind k)) := by
  funext t
  simp only [opOwnset, h.ownRange]
  rfl

/-- Granules in reach are those at some offset of some memory. -/
theorem ownRange_eq_some {i : In} {gs : List Nat} (h : i.ownRange = some gs) :
    (i.b.word.toNat % 1024 = 0 ∧ 1 ≤ i.ownCount ∧ i.ownCount ≤ 64) ∧ ∃ k, i.ownBase = some k ∧ i.granulesAt k = gs := by
  rw [ownRange_eq] at h
  split at h
  · rename_i hc
    exact ⟨hc, Option.map_eq_some_iff.1 h⟩
  · cases h

/-- Where the granules are in reach, ADDRCLASS is for the count of a grant alone. -/
theorem ownBad_of_ownRange {i : In} {k : Nat × Nat} (h : i.ownRange = some (i.granulesAt k)) :
    ownBad i = false ↔ (i.o1.word.getLsbD 0 = true → 0 < field i.o1.word 8 8 ∧
      ∀ j, j < i.ownCount → ownGet i.s.ownAhead ((k.1 + k.2) / 1024 + j) + field i.o1.word 8 8 ≤ 255) := by
  simp only [ownBad, h, Bool.and_eq_false_imp, Bool.or_eq_false_iff, beq_eq_false_iff_ne, granulesAt_any_eq_false_iff,
    decide_eq_false_iff_not, Nat.not_lt, Nat.pos_iff_ne_zero]

theorem ownBad_eq_false_iff (i : In) : ownBad i = false ↔ ∃ k, i.takes k := by
  constructor
  · intro hb
    cases hr : i.ownRange with
    | none => simp [ownBad, hr] at hb
    | some gs =>
      obtain ⟨⟨hmul, hpos, hmax⟩, k, hbase, rfl⟩ := ownRange_eq_some hr
      exact ⟨k, hmul, hpos, hmax, hbase, (ownBad_of_ownRange hr).1 hb⟩
  · rintro ⟨k, hk⟩
    have hr := hk.ownRange
    obtain ⟨-, -, -, -, hgrant⟩ := hk
    exact (ownBad_of_ownRange hr).2 hgrant

/-- A reclaim waits for no granule on which no engine access is performing. -/
theorem ownWaits_eq_false {i : In} {k : Nat × Nat} (hk : i.takes k)
    (hf : i.o1.word.getLsbD 0 = false → ∀ j, j < i.ownCount → i.s.granuleBusy ((k.1 + k.2) / 1024 + j) = false) :
    ownWaits i = false := by
  simp only [ownWaits, hk.ownRange, Option.getD_some, Bool.and_eq_false_imp, Bool.not_eq_true', granulesAt_any_eq_false_iff]
  exact hf

section
variable {s : State} {g : Guard} {src : Src} (h : Ready s g src)
include h

theorem Ready.ownset_issues {k : Nat × Nat} (hk : (s.reads 6 src).takes k)
    (hf : (s.reads 6 src).o1.word.getLsbD 0 = false →
      ∀ j, j < (s.reads 6 src).ownCount → s.boundaryState.granuleBusy ((k.1 + k.2) / 1024 + j) = false) :
    exec (.ownset g src) s = .next (s.afterCtx src false (Ctx.later ((s.reads 6 src).ownKind k))) := by
  have hbad := (ownBad_eq_false_iff _).2 ⟨k, hk⟩
  have hrun := opOwnset_setup.issues h (if_neg (by rw [hbad]; decide)) (ownWaits_eq_false hk hf)
  rw [opOwnset_eff hk] at hrun
  exact hrun

theorem Ready.ownset_traps (hk : ¬ ∃ k, (s.reads 6 src).takes k) :
    exec (.ownset g src) s = s.trapsAt 3 (s.reads 6 src).b.word := by
  rw [← ownBad_eq_false_iff, Bool.not_eq_false] at hk
  exact opOwnset_setup.traps h (if_pos hk)

end

/-! ### UNMAP (R101) -/

/-- The slot that an UNMAP names. -/
def In.unmapSlot (i : In) : Fin 8 := Fin.ofNat 8 (field i.b.word 0 3)

/-- What that slot of its core holds as the bundle issues. -/
def In.unmapWin (i : In) : Option Win := (i.s.core i.cid.core).wins.get i.unmapSlot

theorem unmapSlot_eq (i : In) : i.unmapSlot = Fin.ofNat 8 (i.b.word.toNat % 8) :=
  congrArg (Fin.ofNat 8) (field_zero ..)

/-- The window of that slot stops covering its range, and the UNMAP enters the scoreboard. -/
def In.unmaps (i : In) (t : State) : State :=
  (t.modCore i.cid.core (fun k => k.modWin i.unmapSlot (fun w => { w with dying := true }))).modCtx i.cid
    (fun c => c.addSb false (.unmap i.unmapSlot) 0 0 none)

theorem opUnmap_eff_active {i : In} {w : Win} (hw : i.unmapWin = some w) (hd : w.dying = false) :
    opUnmap.eff i = i.unmaps := by
  have hget : (i.s.core i.cid.core).wins.get (Fin.ofNat 8 (field i.b.word 0 3)) = some w := hw
  funext t
  simp only [opUnmap, hget, hd, Bool.false_eq_true, if_false]
  rfl

theorem opUnmap_eff_idle {i : In} (hw : ∀ w, i.unmapWin = some w → w.dying = true) : opUnmap.eff i = id := by
  funext t
  cases hwin : i.unmapWin with
  | none =>
    have hget : (i.s.core i.cid.core).wins.get (Fin.ofNat 8 (field i.b.word 0 3)) = none := hwin
    simp only [opUnmap, hget]
    rfl
  | some w =>
    have hget : (i.s.core i.cid.core).wins.get (Fin.ofNat 8 (field i.b.word 0 3)) = some w := hwin
    simp only [opUnmap, hget, hw w hwin, if_true]
    rfl

section
variable {s : State} {g : Guard} {src : Src} (h : Ready s g src) (hst : s.issuer.stc < 32)
include h hst

theorem Ready.unmap_issues : exec (.unmap g src) s = .next (s.afterMove src false (opUnmap.eff (s.reads 6 src))) :=
  opUnmap_setup.issues h rfl (decide_eq_false (Nat.not_le.2 hst))

theorem Ready.unmap_active {w : Win} (hw : (s.reads 6 src).unmapWin = some w) (hd : w.dying = false) :
    exec (.unmap g src) s = .next (s.afterMove src false (s.reads 6 src).unmaps) := by
  rw [h.unmap_issues hst, opUnmap_eff_active hw hd]

theorem Ready.unmap_idle (hw : ∀ w, (s.reads 6 src).unmapWin = some w → w.dying = true) :
    exec (.unmap g src) s = .next (s.afterMove src false id) := by
  rw [h.unmap_issues hst, opUnmap_eff_idle hw]

end

/-- Settles O27, trigger by trigger. -/
theorem windowAndOwnerTriggers : Obligations.WindowAndOwnerTriggers := by
  intro g src s h
  refine ⟨h.map_issues, h.map_traps, ⟨fun k => h.ownset_issues, h.ownset_traps⟩, fun hst => ?_⟩
  rw [← unmapSlot_eq]
  exact ⟨fun w hw hd => h.unmap_active hst hw hd, h.unmap_idle hst⟩

end Sys2Proof.Machine
end

section
/-! Owner states (R97): a list of granules in rising order of which no count is 0 is read and changed granule by granule. -/

namespace Sys2Proof.Machine

/-- A granule below every listed one is in state C. -/
theorem ownGet_eq_zero_of_below {o : List (Nat × Nat)} {g : Nat} (h : ∀ x ∈ o.map (·.1), g < x) : ownGet o g = 0 := by
  induction o with
  | nil => rfl
  | cons p r ih =>
    obtain ⟨a, j⟩ := p
    obtain ⟨ha, hr⟩ := List.forall_mem_cons.1 h
    rw [ownGet, if_neg (Nat.ne_of_gt ha), ih hr]

/-- A count that is set lists no granule but its own and those listed before. -/
theorem mem_ownSet {o : List (Nat × Nat)} {g k x : Nat} (h : x ∈ (ownSet o g k).map (·.1)) : x = g ∨ x ∈ o.map (·.1) := by
  induction o with
  | nil =>
    unfold ownSet at h
    split at h <;> simp_all
  | cons p r ih =>
    obtain ⟨a, j⟩ := p
    unfold ownSet at h
    split_ifs at h with hlt hk heq hk
    · exact .inr h
    · simpa using h
    · exact .inr (List.mem_cons_of_mem _ h)
    · rcases List.mem_cons.1 h with rfl | h
      · exact .inl rfl
      · exact .inr (List.mem_cons_of_mem _ h)
    · rcases List.mem_cons.1 h with rfl | h
      · exact .inr (List.mem_cons_self ..)
      · exact (ih h).imp_right (List.mem_cons_of_mem _)

/-- Setting a count keeps the granules in rising order. -/
theorem pairwise_ownSet {o : List (Nat × Nat)} {g k : Nat} (h : (o.map (·.1)).Pairwise (· < ·)) :
    ((ownSet o g k).map (·.1)).Pairwise (· < ·) := by
  induction o with
  | nil =>
    unfold ownSet
    split <;> simp
  | cons p r ih =>
    obtain ⟨a, j⟩ := p
    obtain ⟨ha, hr⟩ := List.pairwise_cons.1 h
    unfold ownSet
    split_ifs with hlt hk heq hk
    · exact h
    · refine List.pairwise_cons.2 ⟨List.forall_mem_cons.2 ⟨hlt, fun x hx => ?_⟩, h⟩
      exact Nat.lt_trans hlt (ha x hx)
    · exact hr
    · exact List.pairwise_cons.2 ⟨heq ▸ ha, hr⟩
    · refine List.pairwise_cons.2 ⟨fun x hx => ?_, ih hr⟩
      rcases mem_ownSet hx with rfl | hx
      · show a < x
        omega
      · exact ha x hx

/-- Setting a count gives no other granule a new one. -/
theorem ownGet_ownSet_ne {o : List (Nat × Nat)} {g k h : Nat} (hg : h ≠ g) : ownGet (ownSet o g k) h = ownGet o h := by
  induction o with
  | nil =>
    unfold ownSet
    split <;> simp [ownGet, Ne.symm hg]
  | cons p r ih =>
    obtain ⟨a, j⟩ := p
    unfold ownSet
    split_ifs with hlt hk heq hk
    · rfl
    · rw [ownGet, if_neg (Ne.symm hg)]
    · rw [ownGet, if_neg (heq ▸ Ne.symm hg)]
    · rw [ownGet, ownGet, if_neg (Ne.symm hg), if_neg (heq ▸ Ne.symm hg)]
    · rw [ownGet, ownGet, ih]

/-- Setting a count gives that granule the count; count 0 is state C, which is not listed. -/
theorem ownGet_ownSet_self {o : List (Nat × Nat)} (ho : (o.map (·.1)).Pairwise (· < ·)) (g k : Nat) :
    ownGet (ownSet o g k) g = k := by
  induction o with
  | nil =>
    unfold ownSet
    split <;> simp_all [ownGet]
  | cons p r ih =>
    obtain ⟨a, j⟩ := p
    obtain ⟨ha, hr⟩ := List.pairwise_cons.1 ho
    unfold ownSet
    split_ifs with hlt hk heq hk
    · rw [hk]
      exact ownGet_eq_zero_of_below (List.forall_mem_cons.2 ⟨hlt, fun x hx => Nat.lt_trans hlt (ha x hx)⟩)
    · rw [ownGet, if_pos rfl]
    · rw [hk]
      exact ownGet_eq_zero_of_below (heq ▸ ha)
    · rw [ownGet, if_pos rfl]
    · rw [ownGet, if_neg (Ne.symm heq), ih hr]

theorem ownGet_ownSet {o : List (Nat × Nat)} (ho : (o.map (·.1)).Pairwise (· < ·)) (g k h : Nat) :
    ownGet (ownSet o g k) h = if h = g then k else ownGet o h := by
  split
  · rename_i hg
    rw [hg, ownGet_ownSet_self ho]
  · rename_i hg
    exact ownGet_ownSet_ne hg

/-- Settles O46: grants and releases are counts set, and a count set touches its own granule alone. -/
theorem ownerCounts : Obligations.OwnerCounts := by
  intro o g ho
  exact ⟨fun k h => ownGet_ownSet ho g k h, fun k => pairwise_ownSet ho, fun h => ownGet_ownSet ho g _ h,
    fun h => ownGet_ownSet ho g _ h⟩

end Sys2Proof.Machine
end

section
/-! VLDL, VSTL, VGATH and VSCAT (R89, R91 to R93): what lets each issue, and what it leaves. -/

namespace Sys2Proof.Machine

/-! ### Accesses of fixed latency -/

/-- An operation of MU that leaves nothing outstanding behind a WAIT, leaves no work to firmware and does not trap after issue. -/
structure PlainAccess (o : Op) : Prop extends MemOp o where
  left : ∀ i, o.left i = []
  asst : ∀ i, o.asst i = none
  sw   : ∀ i, o.sw i = none

/-- Once its check and its wait have passed, it issues. -/
theorem PlainAccess.issues {s : State} {g : Guard} {src : Src} {o : Op} (ho : PlainAccess o) (h : Ready s g src) (hf : s.unfenced)
    (hc : o.chk (s.reads 6 src) = none) (hb : o.blk (s.reads 6 src) = false) :
    issueOne g src o s = .next (s.afterMove src false (o.eff (s.reads 6 src))) := by
  have hbus := ho.bus
  have hrnd := ho.rnd
  have := issueOne_ready h (o := o) (.inl (by rw [hbus]; decide)) (by rw [hrnd]; nofun) (.inr (ho.xf _)) (.inl ho.priv)
    (ho.pv _) (.inr ⟨hf, ho.left _⟩) (by rwa [hbus]) (by rwa [hbus]) (ho.asst _) (ho.sw _)
  rwa [hbus, hrnd] at this

theorem opVldl_plain (a : Fin 4) : PlainAccess (opVldl a) := ⟨opVldl_mem a, fun _ => rfl, fun _ => rfl, fun _ => rfl⟩
theorem opVstl_plain (a : Fin 4) : PlainAccess (opVstl a) := ⟨opVstl_mem a, fun _ => rfl, fun _ => rfl, fun _ => rfl⟩
theorem opVgath_plain (a : Fin 4) : PlainAccess (opVgath a) := ⟨opVgath_mem a, fun _ => rfl, fun _ => rfl, fun _ => rfl⟩
theorem opVscat_plain (a : Fin 4) : PlainAccess (opVscat a) := ⟨opVscat_mem a, fun _ => rfl, fun _ => rfl, fun _ => rfl⟩

/-- With DBG 0 neither debug check is on (R103). -/
theorem Ctx.dbgPend_of_zero {c : Ctx} (h : c.dbg = 0) : c.dbgPend = false := by
  rw [Ctx.dbgPend, h]
  rfl

theorem Ctx.dbgOwn_of_zero {c : Ctx} (h : c.dbg = 0) : c.dbgOwn = false := by
  rw [Ctx.dbgOwn, h]
  rfl

theorem debugTrap_off {i : In} (h : i.c.dbg = 0) (load : Bool) (ps : List Piece) : debugTrap i load ps = none := by
  simp [debugTrap, Ctx.dbgOwn_of_zero h, Ctx.dbgPend_of_zero h]

theorem lanePend_off {i : In} (h : i.c.dbg = 0) : lanePend i = none := by
  simp [lanePend, Ctx.dbgPend_of_zero h]

/-! ### Lane slices (R92) -/

/-- The word of lane `k`'s slice at the trigger's offset. -/
def In.laneAt (i : In) (k : Nat) : Nat := laneKey i.cid.core.val k (i.laneOff k)

/-- Lane `k` of the value in .o1. -/
def In.laneData (i : In) (k : Nat) : Nat := laneOf 32 (i.o1.lanes 32).toNat k

/-- The lanes that the mask in .o3 enables, in rising order. -/
def In.lanesOn (i : In) : List Nat := (List.range 32).filter (fun k => i.o3.getLsbD k)

theorem opVldl_eff (i : In) (a : Fin 4) : (opVldl a).eff i = fun t => t.modCtx i.cid (fun c => c.result 6 2
    (some (.vc (vecOf 32 ((List.range 32).map (fun k => i.s.mem.nat (i.laneAt k) 4))))) none 0) := by
  simp only [opVldl, lanePieces_all, List.map_map]
  rfl

theorem opVstl_eff (i : In) (a : Fin 4) : (opVstl a).eff i = fun t => t.modCtx i.cid (fun c => c.store 2 a
    (i.lanesOn.flatMap (fun k => pairsAt (i.laneAt k) (leBytes 4 (i.laneData k))))) := by
  simp only [opVstl, offs_zipIdx, List.filter_map, List.flatMap_map]
  rfl

/-! ### Gather and scatter (R93) -/

/-- The word that lane `k` of a gather or scatter addresses, if it addresses one. -/
def In.gatherAt (i : In) (k : Nat) : Option Nat := i.lanePlace (i.laneOff k)

/-- Nothing stands in the way of the word that lane `k` addresses: no engine owns its granule, and no earlier access on it is
left (R91). -/
def In.laneFree (i : In) (a : Fin 4) (k : Nat) : Prop :=
  ∀ x, i.gatherAt k = some x → i.s.engineOwns (granuleOf x) = false ∧ behindAccess i.s i.cid i.c.seq a x 4 = false

/-- A gather or scatter does not wait where nothing stands in the way of a lane. -/
theorem gather_not_blocked {i : In} {a : Fin 4} {on : Nat → Bool} (h : ∀ k, k < 32 → on k = true → i.laneFree a k) :
    fixedBlocks i a 4 ((gatherPieces i on).map (·.2)) = false := by
  rw [fixedBlocks, gatherPieces_map, List.any_eq_false]
  intro p hp
  obtain ⟨k, hk, hkp⟩ := List.mem_filterMap.1 hp
  split at hkp
  · rename_i hon
    obtain ⟨x, hx, rfl⟩ := Option.map_eq_some_iff.1 hkp
    obtain ⟨howns, hbehind⟩ := h k (List.mem_range.1 hk) hon x hx
    simp [howns, hbehind]
  · cases hkp

/-- The pieces of a scatter of which every enabled lane addresses a word. -/
theorem gatherPieces_of_isSome {i : In} (h : ∀ k, k < 32 → i.o3.getLsbD k = true → (i.gatherAt k).isSome = true) :
    gatherPieces i (fun k => i.o3.getLsbD k) =
      i.lanesOn.map (fun k => (k, ⟨(i.gatherAt k).getD 0, i.o2.word + BitVec.ofNat 64 (i.laneOff k)⟩)) := by
  rw [gatherPieces, offs_zipIdx, List.filterMap_map, In.lanesOn, ← List.filterMap_eq_map, List.filterMap_filter]
  refine List.filterMap_congr (fun k hk => ?_)
  simp only [Function.comp_apply]
  split
  · rename_i hon
    obtain ⟨x, hx⟩ := Option.isSome_iff_exists.1 (h k (List.mem_range.1 hk) hon)
    have hx' : i.lanePlace (i.laneOff k) = some x := hx
    rw [hx, hx']
    rfl
  · rfl

theorem opVgath_eff (i : In) (a : Fin 4) : (opVgath a).eff i = fun t => t.modCtx i.cid (fun c => c.result 6 4
    (some (.vc (vecOf 32 ((List.range 32).map (fun k => ((i.gatherAt k).map (fun x => i.s.mem.nat x 4)).getD 0)))))
    (some (.sc (bitsOf ((List.range 32).map (fun k => (i.gatherAt k).isNone))))) 0) := by
  have hoffs : i.offs = (List.range 32).map i.laneOff := rfl
  simp only [opVgath, hoffs, List.map_map, Function.comp_def, Option.isNone_map]
  rfl

theorem opVscat_eff {i : In} (h : ∀ k, k < 32 → i.o3.getLsbD k = true → (i.gatherAt k).isSome = true) (a : Fin 4) :
    (opVscat a).eff i = fun t => t.modCtx i.cid (fun c => c.store 4 a
      (i.lanesOn.flatMap (fun k => pairsAt ((i.gatherAt k).getD 0) (leBytes 4 (i.laneData k))))) := by
  simp only [opVscat, gatherPieces_of_isSome h, List.flatMap_map]
  rfl

/-! ### The four bundles -/

section
variable {s : State} {g : Guard} {src : Src} (h : Ready s g src) (hd : s.issuer.dbg = 0) (hf : s.unfenced) (a : Fin 4)
include h hf

theorem Ready.vstl_issues (hl : (s.reads 6 src).lanesGood) :
    exec (.vstl g src a) s = .next (s.afterMove src false ((opVstl a).eff (s.reads 6 src))) :=
  (opVstl_plain a).issues h hf (laneCheck_good hl) rfl

include hd

theorem Ready.vldl_issues (hl : (s.reads 6 src).lanesGood) :
    exec (.vldl g src a) s = .next (s.afterMove src false ((opVldl a).eff (s.reads 6 src))) := by
  refine (opVldl_plain a).issues h hf ?_ rfl
  show (laneCheck _).or (lanePend _) = none
  rw [laneCheck_good hl, lanePend_off (i := s.reads 6 src) hd]
  rfl

theorem Ready.vgath_issues (hb : (s.reads 6 src).baseLoc.isSome = true) (hfree : ∀ k, k < 32 → (s.reads 6 src).laneFree a k) :
    exec (.vgath g src a) s = .next (s.afterMove src false ((opVgath a).eff (s.reads 6 src))) := by
  refine (opVgath_plain a).issues h hf ?_ (gather_not_blocked (fun k hk _ => hfree k hk))
  show (baseCheck _).or (debugTrap _ _ _) = none
  rw [baseCheck_good hb, debugTrap_off (i := s.reads 6 src) hd]
  rfl

theorem Ready.vscat_issues (hb : (s.reads 6 src).baseLoc.isSome = true)
    (hfree : ∀ k, k < 32 → (s.reads 6 src).o3.getLsbD k = true → (s.reads 6 src).laneFree a k)
    (hall : ∀ k, k < 32 → (s.reads 6 src).o3.getLsbD k = true → ((s.reads 6 src).gatherAt k).isSome = true) :
    exec (.vscat g src a) s = .next (s.afterMove src false ((opVscat a).eff (s.reads 6 src))) := by
  refine (opVscat_plain a).issues h hf ?_ (gather_not_blocked hfree)
  show ((baseCheck _).or (scatterCheck _)).or (debugTrap _ _ _) = none
  rw [baseCheck_good hb, scatterCheck_good hall, debugTrap_off (i := s.reads 6 src) hd]
  rfl

end

/-- Settles O25, operation by operation. -/
theorem lanesGathersScatters : Obligations.LanesGathersScatters := by
  intro g src a s h hd hf
  refine ⟨fun hl => ⟨?_, ?_⟩, fun hb => ⟨fun hfree => ?_, fun hon => ?_⟩⟩
  · rw [h.vldl_issues hd hf a hl, opVldl_eff]
    rfl
  · rw [h.vstl_issues hf a hl, opVstl_eff]
    rfl
  · rw [h.vgath_issues hd hf a hb hfree, opVgath_eff]
    rfl
  · have hall : ∀ k, k < 32 → (s.reads 6 src).o3.getLsbD k = true → ((s.reads 6 src).gatherAt k).isSome = true :=
      fun k hk he => (hon k hk he).2
    rw [h.vscat_issues hd hf a hb (fun k hk he => (hon k hk he).1) hall, opVscat_eff hall]
    rfl

end Sys2Proof.Machine
end

section
/-! Blocks of one size laid side by side (R1): the words of a masked vector store, the sectors of a line. -/

namespace Sys2Proof.Machine

/-- The writes that lay block `j` of `b` bytes at its place from `base` upward, for some numbers `j`. -/
def wrBlocks (base b : Nat) (f : Nat → List Byte) (js : List Nat) : List Wr := js.flatMap (fun j => wrBytes (base + b * j) (f j))

section
variable {m : Mem} {base b : Nat} {f : Nat → List Byte} (hf : ∀ j, (f j).length = b)
include hf

/-- A byte of no block that is laid reads as before. -/
theorem Mem.get_wrBlocks_outside {js : List Nat} {a : Nat} (h : ∀ j ∈ js, a < base + b * j ∨ base + b * j + b ≤ a) :
    (m.applyAll (wrBlocks base b f js)).get a = m.get a := by
  refine Mem.get_applyAll_of_untouched (fun w hw => ?_)
  obtain ⟨j, hj, hw⟩ := List.mem_flatMap.1 hw
  exact wrBytes_touches hw (by rw [hf]; exact h j hj)

/-- Every block that is laid reads back. -/
theorem Mem.bytes_wrBlocks (hm : m.wf = true) {js : List Nat} {j : Nat} (hj : j ∈ js) :
    (m.applyAll (wrBlocks base b f js)).bytes (base + b * j) b = f j := by
  induction js generalizing m with
  | nil => cases hj
  | cons i js ih =>
    have hsplit : m.applyAll (wrBlocks base b f (i :: js)) =
        (m.applyAll (wrBytes (base + b * i) (f i))).applyAll (wrBlocks base b f js) := Mem.applyAll_append ..
    rw [hsplit]
    by_cases hjs : j ∈ js
    · exact ih (Mem.wf_applyAll hm _) hjs
    · obtain rfl : j = i := (List.mem_cons.1 hj).resolve_right hjs
      have hlater : ∀ x, base + b * j ≤ x → x < base + b * j + b →
          ((m.applyAll (wrBytes (base + b * j) (f j))).applyAll (wrBlocks base b f js)).get x =
            (m.applyAll (wrBytes (base + b * j) (f j))).get x := by
        refine fun x hlo hhi => Mem.get_wrBlocks_outside hf (fun i hi => ?_)
        have hne : i ≠ j := fun e => hjs (e ▸ hi)
        rcases Nat.lt_or_gt_of_ne hne with hlt | hgt
        · have : b * i + b ≤ b * j := by simpa only [Nat.mul_succ] using Nat.mul_le_mul_left b hlt
          omega
        · have : b * j + b ≤ b * i := by simpa only [Nat.mul_succ] using Nat.mul_le_mul_left b hgt
          omega
      rw [Mem.bytes_congr hlater]
      simpa only [hf] using Mem.bytes_wrBytes hm (base + b * j) (f j)

/-- So does each byte of it. -/
theorem Mem.get_wrBlocks (hm : m.wf = true) {js : List Nat} {j i : Nat} (hj : j ∈ js) (hi : i < b) :
    (m.applyAll (wrBlocks base b f js)).get (base + b * j + i) = (f j)[i]'(by rwa [hf]) := by
  rw [← Mem.getElem_bytes _ _ b i (by rwa [Mem.length_bytes])]
  simp only [Mem.bytes_wrBlocks hf hm hj]

end

/-! ### Masked vector stores (R89, R94) -/

theorem wrPairs_pairsAt (k : Nat) (bs : List Byte) : wrPairs (pairsAt k bs) = wrBytes k bs := by
  induction bs generalizing k with
  | nil => rfl
  | cons b bs ih => exact congrArg (Wr.byte k b :: ·) (ih (k + 1))

/-- The bytes of lane `j` of a value. -/
def laneBytes (data : Vec) (j : Nat) : List Byte := leBytes 4 (laneOf 32 data.toNat j)

/-- A masked vector store lays the words of the enabled lanes. -/
theorem wrPairs_maskedPairs (k : Nat) (data : Vec) (mask : Word) : wrPairs (maskedPairs k data mask) =
    wrBlocks k 4 (laneBytes data) ((List.range 32).filter (fun j => mask.getLsbD j)) := by
  rw [maskedPairs, wrPairs, List.map_flatMap]
  exact congrArg (List.flatMap · _) (funext (fun j => wrPairs_pairsAt ..))

/-- After a masked vector store an enabled lane's word is the lane, and every other word of the extent is as it was. -/
theorem Mem.nat_maskedPairs {m : Mem} (hm : m.wf = true) (k : Nat) (data : Vec) (mask : BitVec 32) {j : Nat} (hj : j < 32) :
    (m.applyAll (wrPairs (maskedPairs k data (mask.setWidth 64)))).nat (k + 4 * j) 4 =
      if mask.getLsbD j then laneOf 32 data.toNat j else m.nat (k + 4 * j) 4 := by
  have hlen : ∀ j, (laneBytes data j).length = 4 := fun j => length_leBytes ..
  have hmask : (mask.setWidth 64).getLsbD j = mask.getLsbD j := by simp [BitVec.getLsbD_setWidth]; omega
  rw [wrPairs_maskedPairs, Mem.nat]
  split
  · rename_i hon
    have hmem : j ∈ (List.range 32).filter (fun j => (mask.setWidth 64).getLsbD j) :=
      List.mem_filter.2 ⟨List.mem_range.2 hj, hmask.trans hon⟩
    have hlane : laneOf 32 data.toNat j < 256 ^ 4 := Nat.mod_lt _ (by decide)
    rw [Mem.bytes_wrBlocks hlen hm hmem, laneBytes, leNat_leBytes, Nat.mod_eq_of_lt hlane]
  · rename_i hoff
    rw [Mem.bytes_congr (m := m) (fun x hlo hhi => Mem.get_wrBlocks_outside hlen (fun i hi => ?_))]
    · rfl
    · obtain ⟨-, hon⟩ := List.mem_filter.1 hi
      have hne : i ≠ j := by rintro rfl; exact hoff (hmask ▸ hon)
      omega

/-- A masked vector store leaves every byte outside its 128. -/
theorem Mem.get_maskedPairs_outside (m : Mem) {k x : Nat} (data : Vec) (mask : Word) (h : x < k ∨ k + 128 ≤ x) :
    (m.applyAll (wrPairs (maskedPairs k data mask))).get x = m.get x := by
  rw [wrPairs_maskedPairs]
  refine Mem.get_wrBlocks_outside (fun j => length_leBytes ..) (fun j hj => ?_)
  obtain ⟨hj, -⟩ := List.mem_filter.1 hj
  have hlt : j < 32 := List.mem_range.1 hj
  omega

end Sys2Proof.Machine
end

section
/-! The steps in which a scoreboarded operation performs at its memory (R94, R96, R100). -/

namespace Sys2Proof.Machine

/-! ### A context changed as a step ends -/

/-- What a context of an effect is once the step has completed. -/
theorem commit_ctx_self (s : State) (e : Eff) (cid : Cid) (f : Ctx → Ctx) : (commit s (e.ctx cid f)).ctx cid = f (e.st.ctx cid) := by
  rw [commit_ctx, Eff.ctx_st, State.ctx_modCtx_self]

theorem commit_ctx_ne (s : State) (e : Eff) {cid d : Cid} (h : d ≠ cid) (f : Ctx → Ctx) :
    (commit s (e.ctx cid f)).ctx d = e.st.ctx d := by
  rw [commit_ctx, Eff.ctx_st, State.ctx_modCtx_ne _ h]

/-! ### What a store through a window leaves -/

/-- A store marks its line in its window, and leaves the core's contexts. -/
@[simp] theorem Core.touch_ctx (k : Core) (slot : Fin 8) (x : Word) (dirty : BitVec 128) : (k.touch slot x dirty).ctx = k.ctx := rfl

/-- A line put in its place is the line there. -/
@[simp] theorem Win.lineAt_putLine (w : Win) (l : Line) : (w.putLine l).lineAt l.slot = some l := by
  simp [Win.lineAt, Win.putLine]

/-- A hit is the line at the address's place, with its number. -/
theorem Win.hit_eq_some {w : Win} {x : Word} {l : Line} (h : w.hit x = some l) :
    l.slot = w.place (w.lineNo x) ∧ l.tag = w.lineNo x := by
  unfold Win.hit at h
  split at h
  · rename_i l' hl
    split at h
    · rename_i htag
      cases h
      exact ⟨by simpa using List.find?_some hl, htag⟩
    · cases h
  · cases h

/-- A line that is put where a hit was, under the same number, is the hit. -/
theorem Win.hit_putLine {w : Win} {x : Word} {l l' : Line} (h : w.hit x = some l) (hs : l'.slot = l.slot) (ht : l'.tag = l.tag) :
    (w.putLine l').hit x = some l' := by
  obtain ⟨hslot, htag⟩ := Win.hit_eq_some h
  have hat : (w.putLine l').lineAt ((w.putLine l').place ((w.putLine l').lineNo x)) = some l' := by
    have hplace : (w.putLine l').place ((w.putLine l').lineNo x) = l'.slot := hslot.symm.trans hs.symm
    rw [hplace, Win.lineAt_putLine]
  have hno : l'.tag = (w.putLine l').lineNo x := ht.trans htag
  simp only [Win.hit, hat, if_pos hno]

/-- A changed slot holds the changed window. -/
theorem Core.wins_modWin (k : Core) (i : Fin 8) (f : Win → Win) (j : Fin 8) :
    (k.modWin i f).wins.get j = if j = i then (k.wins.get j).map f else k.wins.get j := by
  by_cases h : j = i
  · subst h
    simp [Core.modWin, vget]
  · have hv : i.val ≠ j.val := fun e => h (Fin.ext e.symm)
    simp [Core.modWin, vget, h, hv]

@[simp] theorem Core.ctx_modWin (k : Core) (i : Fin 8) (f : Win → Win) : (k.modWin i f).ctx = k.ctx := rfl

/-- A store through a window gives its line scope CORE (R100). -/
theorem Core.touch_marks {k : Core} {i : Fin 8} {w : Win} {x : Word} {l : Line} (hw : k.wins.get i = some w) (hl : w.hit x = some l)
    (dirty : BitVec 128) : ∃ w' l', (k.touch i x dirty).wins.get i = some w' ∧ w'.hit x = some l' ∧ l'.scope = .core := by
  refine ⟨_, { l with scope := .core, dirty := l.dirty ||| dirty }, ?_, Win.hit_putLine hl rfl rfl, rfl⟩
  rw [Core.touch, Core.wins_modWin, if_pos rfl, hw, Option.map_some, hl]

/-- What the contexts of a core share is left by a change of a context: its windows. -/
@[simp] theorem State.wins_modCtx (s : State) (c : Cid) (f : Ctx → Ctx) (n : Fin 4112) :
    ((s.modCtx c f).core n).wins = (s.core n).wins := by
  rw [State.modCtx, State.core_setCtx]
  split
  · rename_i h
    rw [h, Core.setAt_wins]
  · rfl

section
variable (e : Eff) (cid : Cid) (o : SbOp) (ws : List Wr)

@[simp] theorem Eff.windowStore_wr : (e.windowStore cid o ws).wr = e.wr ++ ws := rfl

@[simp] theorem Eff.windowStore_ctx (d : Cid) : (e.windowStore cid o ws).st.ctx d = e.st.ctx d := by
  simp only [Eff.windowStore, Eff.on_st]
  split
  · rw [State.ctx_modCore _ _ _ (fun _ => Core.touch_ctx ..), Eff.put_ctx]
  · rfl

theorem Eff.windowStore_marks {i : Fin 8} {w : Win} {l : Line} (hi : o.win = some i)
    (hw : (e.st.core cid.core).wins.get i = some w) (hl : w.hit o.addr = some l) :
    ∃ w' l', ((e.windowStore cid o ws).st.core cid.core).wins.get i = some w' ∧ w'.hit o.addr = some l' ∧ l'.scope = .core := by
  simp only [Eff.windowStore, Eff.on_st, hi, State.core_modCore_self]
  exact Core.touch_marks hw hl _

end

/-! ### Whether an operation performs -/

/-- An AMO is counted in ld (R73). -/
theorem SbKind.isLd_of_isAmo {k : SbKind} (h : k.isAmo = true) : k.isLd = true := by
  cases k with
  | ldx | vldx | stx | vstx | drain | unmap => cases h
  | amoAdd | amoMin | amoMax | amoSwap | amoCas | amoFadd => rfl

/-- A store waits while the host's reply for the page of its line is awaited. -/
theorem store_waits {s : State} {o : SbOp} (ho : (s.ctx s.act.cid).sbAt s.act.num = some o) (hl : o.kind.isLd = false)
    (hf : windowFate s s.act.cid o.win o.addr = .wait) : exec .scoreboardedAccessPerform s = .next s := by
  have hearly : sbEarly s s.act.cid o = true := by simp [sbEarly, hl, hf]
  simp only [exec, execScoreboardedAccessPerform, ho, hearly, Bool.not_true, Bool.and_false, Bool.false_eq_true, if_false]
  rfl

section
variable {s : State} {o : SbOp} {k : Nat} (ho : (s.ctx s.act.cid).sbAt s.act.num = some o) (ht : sbTurn s s.act.cid o = true)
  (hk : sbTarget s s.act.cid o = .at k)
include ho ht hk

/-- An AMO whose turn has come, whose context has tried a bundle since it and whose location is no engine's performs. -/
theorem amo_performs (ha : o.kind.isAmo = true) (hy : (s.ctx s.act.cid).young o.seq = false) :
    exec .amoPerform s = done s ((Eff.start s).amo s.act.cid o k) := by
  have hearly : sbEarly s s.act.cid o = false := by simp [sbEarly, SbKind.isLd_of_isAmo ha, hy]
  simp only [exec, execAmoPerform, ho, ha, ht, hearly, hk, Bool.not_false, Bool.and_self, if_true]

variable (ha : o.kind.isAccess = true)
include ha

/-- A load performs once its context has tried a bundle since it. -/
theorem load_performs (hl : o.kind.isLd = true) (hy : (s.ctx s.act.cid).young o.seq = false) :
    exec .scoreboardedAccessPerform s = done s ((Eff.start s).access s.act.cid o k) := by
  have hearly : sbEarly s s.act.cid o = false := by simp [sbEarly, hl, hy]
  simp only [exec, execScoreboardedAccessPerform, ho, ha, ht, hearly, hk, hl, Bool.not_false, Bool.and_self, if_true]

variable (hl : o.kind.isLd = false)
include hl

/-- A store performs where its line's page permits writing. -/
theorem store_performs {h : Nat} (hf : windowFate s s.act.cid o.win o.addr = .ok h) :
    exec .scoreboardedAccessPerform s = done s ((Eff.start s).access s.act.cid o k) := by
  have hearly : sbEarly s s.act.cid o = false := by simp [sbEarly, hl, hf]
  simp only [exec, execScoreboardedAccessPerform, ho, ha, ht, hearly, hk, hl, hf, Bool.not_false, Bool.and_self,
    Bool.false_eq_true, if_true, if_false]

/-- Where the page forbids it, the store is over and FATAL_UNPROBED falls due. -/
theorem store_fails (hw : windowFate s s.act.cid o.win o.addr ≠ .wait) (hf : ∀ h, windowFate s s.act.cid o.win o.addr ≠ .ok h) :
    exec .scoreboardedAccessPerform s = done s ((Eff.start s).ctx s.act.cid (fun c => c.failSb o o.addr)) := by
  have hearly : sbEarly s s.act.cid o = false := by simp [sbEarly, hl, hw]
  have hgo : (o.kind.isAccess && sbTurn s s.act.cid o && !sbEarly s s.act.cid o) = true := by simp [ha, ht, hearly]
  cases hfate : windowFate s s.act.cid o.win o.addr with
  | ok h => exact absurd hfate (hf h)
  | wait => exact absurd hfate hw
  | absent | noPort =>
    simp only [exec, execScoreboardedAccessPerform, ho, hgo, hk, hl, hfate, Bool.false_eq_true, if_true, if_false]

end

/-! ### AMOs (R96) -/

theorem amoNew_add (v : Word) (rd : Fin 64) (m : Nat) : amoNew (.amoAdd v rd) m = ((m + v.toNat) % 2 ^ 64, rd) := by
  simp [amoNew, BitVec.toNat_add]

theorem amoNew_max (v : Word) (rd : Fin 64) (m : Nat) : amoNew (.amoMax v rd) m =
    ((if (BitVec.ofNat 64 m).toInt ≤ v.toInt then v else BitVec.ofNat 64 m).toNat, rd) := by
  have hpick (w : Word) : (if v.toInt ≤ w.toInt then w else v) = if w.toInt ≤ v.toInt then v else w := by
    split_ifs with h1 h2 h2
    · exact BitVec.eq_of_toInt_eq (Int.le_antisymm h2 h1)
    · rfl
    · rfl
    · omega
  rw [amoNew, hpick]

theorem amoNew_cas (v cmp : Word) (rd : Fin 64) {m : Nat} (hm : m < 2 ^ 64) :
    amoNew (.amoCas v cmp rd) m = (if BitVec.ofNat 64 m = cmp then v.toNat else m, rd) := by
  have hold : (BitVec.ofNat 64 m).toNat = m := by rw [BitVec.toNat_ofNat, Nat.mod_eq_of_lt hm]
  rw [amoNew, apply_ite BitVec.toNat, hold]

/-- A number of `n` bytes of memory is below 256 to `n`. -/
theorem Mem.nat_lt (m : Mem) (k n : Nat) : m.nat k n < 256 ^ n := by
  have h := leNat_lt (m.bytes k n)
  rwa [Mem.length_bytes] at h

/-- An AMO that performs leaves its new value at its location and no other byte changed, and the old value in its register; it
is over. -/
theorem amo_effect {s : State} (hs : s.Inv) (cid : Cid) (o : SbOp) (k : Nat) :
    let u := commit s ((Eff.start s).amo cid o k)
    let m := s.mem.nat k o.kind.size
    u.mem.nat k o.kind.size = (amoNew o.kind m).1 % 256 ^ o.kind.size ∧
    (∀ x, x < k ∨ k + o.kind.size ≤ x → u.mem.get x = s.mem.get x) ∧
    u.ctx cid = ((s.ctx cid).landS (amoNew o.kind m).2 (BitVec.ofNat 64 m)).dropSb o.seq true ∧
    ∀ d, d ≠ cid → u.ctx d = s.ctx d := by
  intro u m
  have hmem : u.mem = s.mem.applyAll (wrNat k o.kind.size (amoNew o.kind m).1) := rfl
  have hu : u = commit s (((Eff.start s).put (wrNat k o.kind.size (amoNew o.kind m).1)).ctx cid
      (fun c => (c.landS (amoNew o.kind m).2 (BitVec.ofNat 64 m)).dropSb o.seq true)) := rfl
  refine ⟨?_, fun x hx => ?_, ?_, fun d hd => ?_⟩
  · rw [hmem, Mem.nat_wrNat hs]
  · rw [hmem, Mem.get_wrNat_outside _ _ hx]
  · rw [hu, commit_ctx_self, Eff.put_ctx, Eff.start_st]
  · rw [hu, commit_ctx_ne _ _ hd, Eff.put_ctx, Eff.start_st]

/-- Settles O28: the AMO performs in one step, and its new value is the table's. -/
theorem atomicMemoryOperations : Obligations.AtomicMemoryOperations := by
  intro s o k cid c hs ho ha hy ht hk n m w new
  have hn : n = o.kind.size := by
    cases hkind : o.kind with
    | ldx | vldx | stx | vstx | drain | unmap => rw [hkind] at ha; cases ha
    | amoAdd | amoMin | amoMax | amoSwap | amoCas | amoFadd => simp only [n, hkind]; rfl
  have hnew : new = amoNew o.kind m := by
    cases hkind : o.kind with
    | amoAdd v rd => simp only [new, hkind, amoNew_add]
    | amoMax v rd => simp only [new, hkind, amoNew_max]; rfl
    | amoCas v cmp rd =>
      have hm : m < 256 ^ 8 := by
        have hn8 : n = 8 := by rw [hn, hkind]; rfl
        exact hn8 ▸ Mem.nat_lt s.mem k n
      simp only [new, hkind, amoNew_cas v cmp rd (m := m) hm]
      rfl
    | amoMin v rd | amoSwap v rd | amoFadd v rd => simp only [new, hkind]; rfl
    | ldx | vldx | stx | vstx | drain | unmap => rw [hkind] at ha; cases ha
  refine ⟨_, amo_performs ho ht hk ha hy, ?_⟩
  rw [hnew]
  simp only [m, w, hn]
  exact amo_effect hs cid o k

/-! ### LDX, VLDX, STX and VSTX (R94, R100) -/

/-- The line of a store through a window has scope CORE in `u`. -/
def MarksLine (s u : State) (cid : Cid) (o : SbOp) : Prop :=
  ∀ i w l, o.win = some i → (s.core cid.core).wins.get i = some w → w.hit o.addr = some l →
    ∃ w' l', (u.core cid.core).wins.get i = some w' ∧ w'.hit o.addr = some l' ∧ l'.scope = .core

/-- A store that its page forbids is over without effect on memory, and FATAL_UNPROBED is due. -/
def FailsUnprobed (s u : State) (cid : Cid) (o : SbOp) : Prop :=
  (∀ x, u.mem.get x = s.mem.get x) ∧ u.ctx cid = ((s.ctx cid).dropSb o.seq false).unprobed o.addr

/-- What a store comes to that lays `ws`: where its page permits writing, they are written and its line is marked; else it fails. -/
theorem store_outcome {s : State} {o : SbOp} {k : Nat} {ws : List Wr} (ho : (s.ctx s.act.cid).sbAt s.act.num = some o)
    (ht : sbTurn s s.act.cid o = true) (hk : sbTarget s s.act.cid o = .at k) (ha : o.kind.isAccess = true)
    (hl : o.kind.isLd = false) (hw : windowFate s s.act.cid o.win o.addr ≠ .wait)
    (he : (Eff.start s).access s.act.cid o k =
      ((Eff.start s).windowStore s.act.cid o ws).ctx s.act.cid (fun c => c.dropSb o.seq false)) :
    ∃ u, exec .scoreboardedAccessPerform s = .next u ∧
      ((∃ h, windowFate s s.act.cid o.win o.addr = .ok h) → MarksLine s u s.act.cid o ∧ u.mem = s.mem.applyAll ws ∧
        u.ctx s.act.cid = (s.ctx s.act.cid).dropSb o.seq false) ∧
      ((∀ h, windowFate s s.act.cid o.win o.addr ≠ .ok h) → FailsUnprobed s u s.act.cid o) := by
  by_cases hf : ∃ h, windowFate s s.act.cid o.win o.addr = .ok h
  · obtain ⟨h, hh⟩ := hf
    refine ⟨_, store_performs ho ht hk ha hl hh, fun _ => ⟨fun i w l hi hwin hhit => ?_, ?_, ?_⟩, fun hno => absurd hh (hno h)⟩
    · rw [he]
      simpa only [commit_core, Eff.ctx_st, State.wins_modCtx] using
        Eff.windowStore_marks (Eff.start s) s.act.cid o ws hi hwin hhit
    · simp [he]
    · simp [he]
  · refine ⟨_, store_fails ho ht hk ha hl hw (fun h hh => hf ⟨h, hh⟩), fun hh => absurd hh hf, fun _ => ⟨fun x => rfl, ?_⟩⟩
    rw [commit_ctx, Eff.ctx_st, State.ctx_modCtx_self, Ctx.failSb, hl]
    rfl

/-- Settles O29, access by access. -/
theorem scoreboardedAccesses : Obligations.ScoreboardedAccesses := by
  intro s o k cid c hs ho ht hk same fate fails marks
  refine ⟨fun z sgn rd hkind hy => ?_, fun rd hkind hy => ?_, fun z d hkind hw => ?_, fun hst hf => ?_, fun d mask hkind hw => ?_⟩
  · refine ⟨_, load_performs ho ht hk (by rw [hkind]; rfl) (by rw [hkind]; rfl) hy, ?_⟩
    simp only [Eff.access, hkind]
    exact ⟨fun _ => rfl, commit_ctx_self ..⟩
  · refine ⟨_, load_performs ho ht hk (by rw [hkind]; rfl) (by rw [hkind]; rfl) hy, ?_⟩
    simp only [Eff.access, hkind]
    exact ⟨fun _ => rfl, commit_ctx_self ..⟩
  · obtain ⟨u, hu, hok, hfail⟩ := store_outcome (ws := wrNat k (2 ^ z.val) d.toNat) ho ht hk (by rw [hkind]; rfl)
      (by rw [hkind]; rfl) hw (by simp only [Eff.access, hkind])
    refine ⟨u, hu, fun h => ?_, hfail⟩
    obtain ⟨hmarks, hmem, hctx⟩ := hok h
    exact ⟨hmarks, by rw [hmem, Mem.nat_wrNat hs], fun x hx => by rw [hmem, Mem.get_wrNat_outside _ _ hx], hctx⟩
  · refine store_waits ho ?_ hf
    rcases hst with ⟨z, d, hkind⟩ | ⟨d, mask, hkind⟩ <;> rw [hkind] <;> rfl
  · obtain ⟨u, hu, hok, hfail⟩ := store_outcome (ws := wrPairs (maskedPairs k d (mask.setWidth 64))) ho ht hk
      (by rw [hkind]; rfl) (by rw [hkind]; rfl) hw (by simp only [Eff.access, hkind])
    refine ⟨u, hu, fun h => ?_, hfail⟩
    obtain ⟨hmarks, hmem, hctx⟩ := hok h
    exact ⟨hmarks, fun j hj => by rw [hmem, Mem.nat_maskedPairs hs k d mask hj],
      fun x hx => by rw [hmem, Mem.get_maskedPairs_outside _ _ _ hx], hctx⟩

end Sys2Proof.Machine
end

section
/-! Windows (R99 to R102): the windows of a core, the lines that a step writes back, and what writing them back leaves. -/

namespace Sys2Proof.Machine

/-! ### The windows of a core -/

theorem Core.mem_slots {k : Core} {p : Fin 8 × Win} : p ∈ k.slots ↔ k.wins.get p.1 = some p.2 := by
  obtain ⟨i, w⟩ := p
  simp only [Core.slots, List.mem_filterMap, List.mem_finRange, true_and, Option.map_eq_some_iff, Prod.mk.injEq]
  constructor
  · rintro ⟨j, v, hv, rfl, rfl⟩
    exact hv
  · exact fun h => ⟨i, w, h, rfl, rfl⟩

/-- The core with each of its windows changed. -/
def Core.modWins (k : Core) (f : Fin 8 → Win → Win) : Core := (List.finRange 8).foldl (fun k i => k.modWin i (f i)) k

theorem foldl_modWin_wins (f : Fin 8 → Win → Win) (j : Fin 8) {l : List (Fin 8)} (hl : l.Nodup) (k : Core) :
    (l.foldl (fun k i => k.modWin i (f i)) k).wins.get j = if j ∈ l then (k.wins.get j).map (f j) else k.wins.get j := by
  induction l generalizing k with
  | nil => rfl
  | cons i l ih =>
    obtain ⟨hi, hl⟩ := List.nodup_cons.1 hl
    rw [List.foldl_cons, ih hl, Core.wins_modWin]
    by_cases hj : j = i
    · subst hj
      simp [hi]
    · simp [hj]

/-- Each slot then holds its own window changed. -/
@[simp] theorem Core.wins_modWins (k : Core) (f : Fin 8 → Win → Win) (j : Fin 8) :
    (k.modWins f).wins.get j = (k.wins.get j).map (f j) := by
  rw [Core.modWins, foldl_modWin_wins f j (List.nodup_finRange 8), if_pos (List.mem_finRange j)]

@[simp] theorem Core.ctx_modWins (k : Core) (f : Fin 8 → Win → Win) : (k.modWins f).ctx = k.ctx := by
  unfold Core.modWins
  generalize List.finRange 8 = l
  induction l generalizing k with
  | nil => rfl
  | cons i l ih => rw [List.foldl_cons, ih]; rfl

/-! ### CORE lines (R100 to R102) -/

theorem mem_coreLines {s : State} {n : Fin 4112} {which : Fin 8 → Win → Line → Bool} {p : Win × Line} :
    p ∈ coreLines s n which ↔ ∃ i, (s.core n).wins.get i = some p.1 ∧ p.2 ∈ p.1.lines ∧ p.2.scope = .core ∧ which i p.1 p.2 = true := by
  obtain ⟨w, l⟩ := p
  simp only [coreLines, List.mem_flatMap, List.mem_map, List.mem_filter, Bool.and_eq_true, beq_iff_eq, Prod.exists, Core.mem_slots]
  constructor
  · rintro ⟨i, v, hv, l', ⟨hl, hc, hw⟩, he⟩
    cases he
    exact ⟨i, hv, hl, hc, hw⟩
  · rintro ⟨i, hv, hl, hc, hw⟩
    exact ⟨i, w, hv, l, ⟨hl, hc, hw⟩, rfl⟩

/-- Of a list without repeats, one element alone gives something: that is what the list gives. -/
theorem flatMap_eq_of_nodup {α β : Type} {f : α → List β} {l : List α} {a : α} (hl : l.Nodup) (ha : a ∈ l)
    (hf : ∀ b, b ≠ a → f b = []) : l.flatMap f = f a := by
  induction l with
  | nil => cases ha
  | cons b l ih =>
    obtain ⟨hb, hl⟩ := List.nodup_cons.1 hl
    rw [List.flatMap_cons]
    rcases List.mem_cons.1 ha with rfl | ha
    · have hrest : l.flatMap f = [] := List.flatMap_eq_nil_iff.2 (fun c hc => hf c (fun e => hb (e ▸ hc)))
      rw [hrest, List.append_nil]
    · rw [ih hl ha, hf b (fun e => hb (e ▸ ha)), List.nil_append]

/-- The lines of one slot that a test picks. -/
def slotLines (slot : Fin 8) (p : Line → Bool) : Fin 8 → Win → Line → Bool := fun i _ l => i == slot && p l

/-- The CORE lines of one slot are those of its window. -/
theorem coreLines_slotLines {s : State} {n : Fin 4112} {slot : Fin 8} {w : Win} (hw : (s.core n).wins.get slot = some w)
    (p : Line → Bool) :
    coreLines s n (slotLines slot p) = (w.lines.filter (fun l => l.scope == .core && p l)).map (fun l => (w, l)) := by
  rw [coreLines, Core.slots, List.filterMap_eq_flatMap_toList, List.flatMap_assoc]
  refine (flatMap_eq_of_nodup (List.nodup_finRange 8) (List.mem_finRange slot) (fun i hi => ?_)).trans ?_
  · cases (s.core n).wins.get i with
    | none => rfl
    | some v => simp [slotLines, hi]
  · simp [hw, slotLines]

/-- A line of some windows that a write-back has reached: a CORE line that has a home takes scope `sc`. -/
def writtenBack (s : State) (n : Fin 4112) (pasid : BitVec 20) (sc : LineScope) (which : Fin 8 → Win → Line → Bool) (i : Fin 8)
    (w : Win) : Win :=
  { w with lines := w.lines.map (fun l =>
      if l.scope == .core && which i w l && lineHome s n pasid w l then { l with scope := sc } else l) }

/-- What the CORE lines of some windows write at their homes. -/
def coreWrites (s : State) (n : Fin 4112) (pasid : BitVec 20) (which : Fin 8 → Win → Line → Bool) : List Wr :=
  (coreLines s n which).flatMap (fun p => lineWrites s n pasid p.1 p.2)

/-- A window of which no CORE line is picked is left as it is. -/
theorem writtenBack_of_not_core {s : State} {n : Fin 4112} {pasid : BitVec 20} {sc : LineScope}
    {which : Fin 8 → Win → Line → Bool} {i : Fin 8} {w : Win} (h : ∀ l ∈ w.lines, which i w l = true → l.scope ≠ .core) :
    writtenBack s n pasid sc which i w = w := by
  have hlines : w.lines.map (fun l =>
      if l.scope == .core && which i w l && lineHome s n pasid w l then { l with scope := sc } else l) = w.lines := by
    refine (List.map_congr_left (g := id) (fun l hl => if_neg ?_)).trans (List.map_id _)
    simp only [Bool.and_eq_true, beq_iff_eq, not_and]
    exact fun hc _ => absurd hc.1 (h l hl hc.2)
  rw [writtenBack, hlines]

/-! ### Sectors in flight -/

theorem landFlights_none {e : Eff} {of : FlightOf} (h : e.st.flightsOf of = []) : e.landFlights of = e := by
  rw [Eff.landFlights, h]
  show Eff.mk _ (e.wr ++ []) = e
  rw [List.append_nil]
  rfl

@[simp] theorem landFlights_cores (e : Eff) (of : FlightOf) : (e.landFlights of).st.cores = e.st.cores := rfl

@[simp] theorem lay_cores (e : Eff) (of : FlightOf) (ws : List Wr) : (e.lay of ws).st.cores = e.st.cores := by
  unfold Eff.lay
  split <;> rfl

/-- Writes perform at once where nothing is in flight, and the step does not put them off or there are none. -/
theorem lay_now {e : Eff} {of : FlightOf} {ws : List Wr} (h : e.st.flightsOf of = []) (hl : e.st.act.later = false ∨ ws = []) :
    e.lay of ws = e.put ws := by
  unfold Eff.lay
  split
  · rename_i hlater
    obtain rfl : ws = [] := hl.resolve_left (by rw [hlater]; decide)
    show Eff.mk { e.st with flight := e.st.flight ++ [] } e.wr = Eff.mk e.st (e.wr ++ [])
    rw [List.append_nil, List.append_nil]
  · rw [landFlights_none h]

/-! ### Writing back -/

section
variable (e : Eff) (n : Fin 4112) (pasid : BitVec 20) (sc : LineScope) (which : Fin 8 → Win → Line → Bool)

theorem writeBack_eq : e.writeBack n pasid sc which = (e.lay (.win n) (coreWrites e.st n pasid which)).on (fun t =>
    t.modCore n (fun k => k.modWins (writtenBack e.st n pasid sc which))) := rfl

@[simp] theorem writeBack_ctx (d : Cid) : (e.writeBack n pasid sc which).st.ctx d = e.st.ctx d := by
  rw [writeBack_eq, Eff.on_st, State.ctx_modCore _ _ _ (fun k => Core.ctx_modWins ..)]
  exact State.ctx_congr (lay_cores ..) d

@[simp] theorem writeBack_wins (i : Fin 8) : ((e.writeBack n pasid sc which).st.core n).wins.get i =
    ((e.st.core n).wins.get i).map (writtenBack e.st n pasid sc which i) := by
  have hcore : (e.lay (.win n) (coreWrites e.st n pasid which)).st.core n = e.st.core n := by simp only [State.core, lay_cores]
  rw [writeBack_eq, Eff.on_st, State.core_modCore_self, Core.wins_modWins, hcore]

end

section
variable {s : State} {n : Fin 4112} {pasid : BitVec 20} {sc : LineScope} {which : Fin 8 → Win → Line → Bool}
  (hf : s.flightsOf (.win n) = []) (hl : s.act.later = false ∨ coreWrites s n pasid which = [])
include hf hl

/-- A write-back that performs at once writes the lines' bytes at their homes. -/
theorem writeBack_wr : ((Eff.start s).writeBack n pasid sc which).wr = coreWrites s n pasid which := by
  rw [writeBack_eq, Eff.on_wr, lay_now hf hl]
  rfl

theorem writeBack_mem : ((Eff.start s).writeBack n pasid sc which).st.mem = s.mem.applyAll (coreWrites s n pasid which) := by
  rw [writeBack_eq, Eff.on_st, lay_now hf hl]
  rfl

/-- Nothing is in flight after it. -/
theorem writeBack_flightsOf : ((Eff.start s).writeBack n pasid sc which).st.flightsOf (.win n) = [] := by
  rw [writeBack_eq, Eff.on_st, lay_now hf hl]
  exact hf

end

end Sys2Proof.Machine
end

section
/-! WINDOW_FILL (R100, R231, R240, R374): the sectors that a fill copies, the line that it makes valid, and the fill that fails. -/

namespace Sys2Proof.Machine

/-! ### The line that a fill makes (R100) -/

theorem mem_dedup {g : Nat} {l : List Nat} : g ∈ dedup l ↔ g ∈ l := by
  induction l with
  | nil => rfl
  | cons x l ih =>
    rw [dedup]
    split
    · rename_i hx
      have hx : x ∈ l := List.contains_iff_mem.1 hx
      rw [ih, List.mem_cons]
      exact ⟨.inr, fun h => h.elim (fun e => e ▸ hx) id⟩
    · rw [List.mem_cons, List.mem_cons, ih]

/-- Whether all four sectors are copied once a fill has copied `js`. -/
theorem copied_all_iff (w : Win) (no : Nat) (js : List Nat) :
    [0, 1, 2, 3].all (fun j => (dedup (w.copied no ++ js)).contains j) = true ↔ ∀ j, j < 4 → j ∈ w.copied no ∨ j ∈ js := by
  simp only [List.all_eq_true, List.contains_iff_mem, mem_dedup, List.mem_append]
  refine ⟨fun h j hj => h j ?_, fun h j hj => h j ?_⟩
  · simp only [List.mem_cons, List.not_mem_nil, or_false]
    omega
  · simp only [List.mem_cons, List.not_mem_nil, or_false] at hj
    omega

/-- A line all of whose sectors are copied is valid, with scope SYS and nothing written. -/
theorem lineAt_copy_of_all {w : Win} {no : Nat} {js : List Nat} (h : ∀ j, j < 4 → j ∈ w.copied no ∨ j ∈ js) :
    (w.copy no js).lineAt (w.place no) = some { slot := w.place no, tag := no, scope := .sys, dirty := 0 } := by
  simp only [Win.copy, if_pos ((copied_all_iff w no js).2 h)]
  exact Win.lineAt_putLine _ { slot := w.place no, tag := no, scope := .sys, dirty := 0 }

/-- A line of which a sector is still to copy is not valid. -/
theorem lineAt_copy_of_missing {w : Win} {no : Nat} {js : List Nat} (h : ∃ j, j < 4 ∧ j ∉ w.copied no ∧ j ∉ js) :
    (w.copy no js).lineAt (w.place no) = none := by
  obtain ⟨j, hj, hc, hjs⟩ := h
  have hnot : ¬ ∀ j, j < 4 → j ∈ w.copied no ∨ j ∈ js := fun hall => (hall j hj).elim hc hjs
  simp only [Win.copy, if_neg (mt (copied_all_iff w no js).1 hnot)]
  simp [Win.lineAt, List.find?_eq_none]

/-! ### The sectors that a fill copies (R231, R240) -/

/-- The sectors of line `no` that the step copies: the one that it picks, or all that are not yet copied. -/
def State.fillJs (s : State) (w : Win) (no : Nat) : List Nat :=
  match s.act.pick with
  | some j => [j % 4]
  | none => [0, 1, 2, 3].filter (fun j => !(w.copied no).contains j)

theorem fillJs_lt {s : State} {w : Win} {no j : Nat} (h : j ∈ s.fillJs w no) : j < 4 := by
  unfold State.fillJs at h
  split at h
  · rw [List.mem_singleton.1 h]
    exact Nat.mod_lt _ (by decide)
  · have hj := (List.mem_filter.1 h).1
    simp only [List.mem_cons, List.not_mem_nil, or_false] at hj
    omega

section
variable {m : Mem} (m' : Mem) {base k : Nat} {js : List Nat}

/-- A byte of a sector that is copied reads as its source. -/
theorem Mem.get_copied (hm : m.wf = true) {j : Nat} (h : j / 32 ∈ js) :
    (m.applyAll (wrBlocks base 32 (fun j => m'.bytes (k + 32 * j) 32) js)).get (base + j) = m'.get (k + j) := by
  have hlen : ∀ j, (m'.bytes (k + 32 * j) 32).length = 32 := fun j => Mem.length_bytes ..
  have hread := Mem.get_wrBlocks (base := base) hlen hm h (Nat.mod_lt j (by decide))
  have hj : 32 * (j / 32) + j % 32 = j := Nat.div_add_mod j 32
  rw [Mem.getElem_bytes, Nat.add_assoc, Nat.add_assoc, hj] at hread
  exact hread

/-- A byte of no sector that is copied reads as before. -/
theorem Mem.get_copied_outside (hjs : ∀ j ∈ js, j < 4) {a : Nat} (h : ∀ j, j < 128 → j / 32 ∈ js → a ≠ base + j) :
    (m.applyAll (wrBlocks base 32 (fun j => m'.bytes (k + 32 * j) 32) js)).get a = m.get a := by
  refine Mem.get_wrBlocks_outside (fun j => Mem.length_bytes ..) (fun j hj => ?_)
  by_contra hin
  have hj4 := hjs j hj
  have hsector : (a - base) / 32 = j := by omega
  exact h (a - base) (by omega) (hsector ▸ hj) (by omega)

end

/-! ### The fill -/

/-- The line in the way of a fill. -/
def lineInWay (slot : Fin 8) (place : Nat) : Fin 8 → Win → Line → Bool := slotLines slot (fun l => l.slot == place)

/-- What a fill leaves of the line of `x` in window `w`, whose home is at `k`: the line in the way written back, the sectors
copied, and the window with them. -/
def Eff.filled (e : Eff) (cid : Cid) (slot : Fin 8) (w : Win) (x : Word) (k : Nat) : Eff :=
  let no := w.lineNo x
  let e' := e.writeBack cid.core (e.st.ctx cid).pasid .sys (lineInWay slot (w.place no))
  let js := e.st.fillJs w no
  (e'.put (wrBlocks (coreKey cid.core.val (w.boff + 128 * w.place no)) 32 (fun j => e'.st.mem.bytes (k + 32 * j) 32) js)).on
    (fun s => s.modCore cid.core (fun c => c.modWin slot (fun w => w.copy (w.lineNo x) js)))

section
variable {s : State} {cid : Cid} {slot : Fin 8} {x : Word} {w : Win}

/-- A fill does neither wait nor find the line in its way without a home. -/
structure FillReady (s : State) (cid : Cid) (slot : Fin 8) (x : Word) (w : Win) : Prop where
  win    : (s.core cid.core).wins.get slot = some w
  drain  : drainFree s cid (lineInWay slot (w.place (w.lineNo x))) = true
  free   : lineFree s cid.core (s.ctx cid).pasid (w.g0.toNat + 128 * w.lineNo x) false = true
  turned : s.turned cid (BitVec.ofNat 64 (w.g0.toNat + 128 * w.lineNo x)) 128 = false
  home   : homeless s cid.core (s.ctx cid).pasid (lineInWay slot (w.place (w.lineNo x))) = none

theorem FillReady.not_waits (h : FillReady s cid slot x w) :
    (!drainFree s cid (fun i _ l => i == slot && l.slot == w.place (w.lineNo x)) ||
      !lineFree s cid.core (s.ctx cid).pasid (w.g0.toNat + 128 * w.lineNo x) false ||
      s.turned cid (BitVec.ofNat 64 (w.g0.toNat + 128 * w.lineNo x)) 128) = false := by
  have hdrain : drainFree s cid (fun i _ l => i == slot && l.slot == w.place (w.lineNo x)) = true := h.drain
  rw [hdrain, h.free, h.turned]
  rfl

/-- Where the page of the line is present, the fill does its work. -/
theorem FillReady.fill (h : FillReady s cid slot x w) (hf : s.flightsOf (.win cid.core) = []) {k : Nat}
    (hk : translate s (clusterOf cid.core) (s.ctx cid).pasid (w.g0.toNat + 128 * w.lineNo x) false = .ok k) :
    (Eff.start s).fill cid slot x = .fill ((Eff.start s).filled cid slot w x k) := by
  have hland : (Eff.start s).landFlights (.win cid.core) = Eff.start s := landFlights_none hf
  have hkey (j : Nat) : coreKey cid.core.val (w.boff + 128 * w.place (w.lineNo x) + 32 * j) =
      coreKey cid.core.val (w.boff + 128 * w.place (w.lineNo x)) + 32 * j := by simp only [coreKey]; omega
  have hwait := h.not_waits
  have hhome : homeless s cid.core (s.ctx cid).pasid (fun i _ l => i == slot && l.slot == w.place (w.lineNo x)) = none := h.home
  simp only [Eff.fill, Eff.start_st, h.win, hwait, hhome, hk, hland, hkey, Bool.false_eq_true, if_false]
  rfl

/-- Where it is not, the fill fails at the access's address. -/
theorem FillReady.fault (h : FillReady s cid slot x w)
    (hk : ∀ k, translate s (clusterOf cid.core) (s.ctx cid).pasid (w.g0.toNat + 128 * w.lineNo x) false ≠ .ok k) :
    (Eff.start s).fill cid slot x = .fault x := by
  have hwait := h.not_waits
  have hhome : homeless s cid.core (s.ctx cid).pasid (fun i _ l => i == slot && l.slot == w.place (w.lineNo x)) = none := h.home
  cases hx : translate s (clusterOf cid.core) (s.ctx cid).pasid (w.g0.toNat + 128 * w.lineNo x) false with
  | ok k => exact absurd hx (hk k)
  | absent | noPort | wait => simp only [Eff.fill, Eff.start_st, h.win, hwait, hhome, hx, Bool.false_eq_true, if_false]

end

/-! ### What a fill leaves -/

section
variable {s : State} {cid : Cid} {slot : Fin 8} {w : Win} {x : Word} {k : Nat} (hf : s.flightsOf (.win cid.core) = [])

theorem filled_ctx (d : Cid) : ((Eff.start s).filled cid slot w x k).st.ctx d = s.ctx d := by
  rw [Eff.filled, Eff.on_st, State.ctx_modCore _ _ _ (fun _ => Core.ctx_modWin ..), Eff.put_ctx, writeBack_ctx, Eff.start_st]

/-- The window has the sectors copied, beside what the write-back made of its lines. -/
theorem filled_wins (hw : (s.core cid.core).wins.get slot = some w) :
    (((Eff.start s).filled cid slot w x k).st.core cid.core).wins.get slot =
      some ((writtenBack s cid.core (s.ctx cid).pasid .sys (lineInWay slot (w.place (w.lineNo x))) slot w).copy (w.lineNo x) (s.fillJs w (w.lineNo x))) := by
  rw [Eff.filled, Eff.on_st, State.core_modCore_self, Core.wins_modWin, if_pos rfl]
  have hback := writeBack_wins (Eff.start s) cid.core (s.ctx cid).pasid .sys (lineInWay slot (w.place (w.lineNo x))) slot
  rw [Eff.start_st, hw, Option.map_some] at hback
  exact congrArg (Option.map _) hback

include hf

/-- What memory holds after a fill: the bytes of the line in the way at their home, then the sectors copied. -/
theorem filled_mem (hl : s.act.later = false ∨ coreWrites s cid.core (s.ctx cid).pasid (lineInWay slot (w.place (w.lineNo x))) = []) :
    let m := s.mem.applyAll (coreWrites s cid.core (s.ctx cid).pasid (lineInWay slot (w.place (w.lineNo x))))
    (commit s ((Eff.start s).filled cid slot w x k)).mem = m.applyAll
      (wrBlocks (coreKey cid.core.val (w.boff + 128 * w.place (w.lineNo x))) 32 (fun j => m.bytes (k + 32 * j) 32) (s.fillJs w (w.lineNo x))) := by
  intro m
  rw [commit_mem, Eff.filled, Eff.on_wr, Eff.put_wr, Eff.start_st, writeBack_wr hf hl, writeBack_mem hf hl, Mem.applyAll_append]

end

/-! ### The step -/

section
variable {s : State} {slot : Fin 8} {x : Word} (hhi : s.act.hi = 0) (hflag : s.act.flag = false)
  (hmiss : accessMiss s s.act.cid s.act.num = some (slot, x))
include hhi hflag hmiss

theorem windowFill_fills {e : Eff} (h : (Eff.start s).fill s.act.cid slot x = .fill e) : exec .windowFill s = done s e := by
  simp only [exec, execWindowFill, hhi, hflag, hmiss, h, ne_eq, not_true_eq_false, Bool.false_eq_true, if_false]

theorem windowFill_faults {y : Word} (h : (Eff.start s).fill s.act.cid slot x = .fault y) :
    exec .windowFill s = done s ((Eff.start s).ctx s.act.cid (fun c => c.accessFault s.act.num y)) := by
  simp only [exec, execWindowFill, hhi, hflag, hmiss, h, ne_eq, not_true_eq_false, Bool.false_eq_true, if_false]

end

/-! ### What an operation's end leaves in its context -/

@[simp] theorem Ctx.unprobed_sb (c : Ctx) (x : Word) : (c.unprobed x).sb = c.sb := by
  unfold Ctx.unprobed
  split <;> rfl

@[simp] theorem Ctx.unprobed_stc (c : Ctx) (x : Word) : (c.unprobed x).stc = c.stc := by
  unfold Ctx.unprobed
  split <;> rfl

/-- FATAL_UNPROBED is due for the address, as it may have been before. -/
theorem Ctx.unprobed_due (c : Ctx) (x : Word) : (6, x) ∈ (c.unprobed x).due := by
  unfold Ctx.unprobed
  split
  · rename_i h
    exact List.contains_iff_mem.1 h
  · exact List.mem_append_right _ (List.mem_singleton_self _)

/-- An operation that is over is at no place of its context any more. -/
@[simp] theorem Ctx.sbAt_dropSb (c : Ctx) (q : Nat) (ld : Bool) : (c.dropSb q ld).sbAt q = none := by
  simp [Ctx.sbAt, Ctx.dropSb, List.find?_eq_none]

@[simp] theorem Ctx.sbAt_unprobed (c : Ctx) (x : Word) (q : Nat) : (c.unprobed x).sbAt q = c.sbAt q := by
  rw [Ctx.sbAt, Ctx.unprobed_sb]
  rfl

theorem Ctx.accessFault_due (c : Ctx) (q : Nat) (x : Word) : (6, x) ∈ (c.accessFault q x).due := by
  unfold Ctx.accessFault
  split <;> exact Ctx.unprobed_due ..

/-- An access whose fill fails is over. -/
theorem Ctx.accessFault_sbAt {c : Ctx} {q : Nat} {o : SbOp} (h : c.sbAt q = some o) (x : Word) :
    (c.accessFault q x).sbAt o.seq = none := by
  simp only [Ctx.accessFault, h, Ctx.failSb, Ctx.sbAt_unprobed, Ctx.sbAt_dropSb]

/-! ### What stands in the way of a fill (R100, R231) -/

section
variable {s : State} {slot : Fin 8} {x : Word} {w : Win}

/-- A line in whose place no CORE line stands writes nothing back. -/
theorem coreLines_inWay_nil {n : Fin 4112} (hw : (s.core n).wins.get slot = some w) {place : Nat}
    (hcore : ∀ l ∈ w.lines, l.slot = place → l.scope ≠ .core) : coreLines s n (lineInWay slot place) = [] := by
  rw [lineInWay, coreLines_slotLines hw, List.map_eq_nil_iff, List.filter_eq_nil_iff]
  intro l hl
  simp only [Bool.and_eq_true, beq_iff_eq, not_and]
  exact fun hc hs => hcore l hl hs hc

/-- The one line that stands in a place, of scope CORE, is what is written back. -/
theorem coreLines_inWay_one {n : Fin 4112} (hw : (s.core n).wins.get slot = some w) {place : Nat} {l : Line}
    (hl : w.lines.filter (fun m => m.slot == place) = [l]) (hc : l.scope = .core) :
    coreLines s n (lineInWay slot place) = [(w, l)] := by
  have hfilter : w.lines.filter (fun m => m.scope == .core && m.slot == place) = [l] := by
    rw [← List.filter_filter, hl]
    simp [hc]
  rw [lineInWay, coreLines_slotLines hw, hfilter]
  rfl

/-- A fill is ready where no CORE line stands in its way. -/
theorem fillReady_clean {cid : Cid} (hw : (s.core cid.core).wins.get slot = some w)
    (hfree : lineFree s cid.core (s.ctx cid).pasid (w.g0.toNat + 128 * w.lineNo x) false = true)
    (ht : s.turned cid (BitVec.ofNat 64 (w.g0.toNat + 128 * w.lineNo x)) 128 = false)
    (hnil : coreLines s cid.core (lineInWay slot (w.place (w.lineNo x))) = []) : FillReady s cid slot x w where
  win := hw
  drain := by simp only [drainFree, writeBackFree, hnil, List.all_nil, Bool.and_self]
  free := hfree
  turned := ht
  home := by simp only [homeless, hnil, List.find?_nil, Option.map_none]

/-- A fill is ready where one CORE line stands in its way that may be written back. -/
theorem fillReady_dirty {cid : Cid} (hw : (s.core cid.core).wins.get slot = some w)
    (hfree : lineFree s cid.core (s.ctx cid).pasid (w.g0.toNat + 128 * w.lineNo x) false = true)
    (ht : s.turned cid (BitVec.ofNat 64 (w.g0.toNat + 128 * w.lineNo x)) 128 = false) {l : Line} {h : Nat}
    (hone : coreLines s cid.core (lineInWay slot (w.place (w.lineNo x))) = [(w, l)])
    (hh : translate s (clusterOf cid.core) (s.ctx cid).pasid (w.lineAddr l) true = .ok h) (ha : atomicHeld s h 128 = false)
    (htl : s.turned cid (BitVec.ofNat 64 (w.lineAddr l)) 128 = false) : FillReady s cid slot x w where
  win := hw
  drain := by
    have hline : lineFree s cid.core (s.ctx cid).pasid (w.lineAddr l) true = true := by simp only [lineFree, hh, ha, Bool.not_false]
    simp [drainFree, writeBackFree, hone, hline, htl]
  free := hfree
  turned := ht
  home := by
    have hhome : lineHome s cid.core (s.ctx cid).pasid w l = true := by simp only [lineHome, hh]
    simp [homeless, hone, hhome]

end

/-- A line writes back the bytes that stores wrote in it since the fill, each at its place. -/
theorem lineWrites_eq {s : State} {n : Fin 4112} {pasid : BitVec 20} {w : Win} {l : Line} {h : Nat}
    (hh : translate s (clusterOf n) pasid (w.lineAddr l) true = .ok h) : lineWrites s n pasid w l =
      wrBlocks h 1 (fun j => [s.mem.get (coreKey n.val (w.boff + 128 * l.slot) + j)])
        ((List.range 128).filter (fun j => l.dirty.getLsbD j)) := by
  have hkey (j : Nat) : coreKey n.val (w.boff + 128 * l.slot + j) = coreKey n.val (w.boff + 128 * l.slot) + j := by
    simp only [coreKey]
    omega
  simp only [lineWrites, hh, hkey, wrBlocks, wrBytes]
  generalize List.range 128 = js
  induction js with
  | nil => rfl
  | cons j js ih => cases hd : l.dirty.getLsbD j <;> simp [hd, ih]

/-- So its home reads what stores wrote, and elsewhere as before. -/
theorem get_lineWrites {s : State} (hs : s.Inv) {n : Fin 4112} {pasid : BitVec 20} {w : Win} {l : Line} {h : Nat}
    (hh : translate s (clusterOf n) pasid (w.lineAddr l) true = .ok h) {j : Nat} (hj : j < 128) :
    (s.mem.applyAll (lineWrites s n pasid w l)).get (h + j) =
      if l.dirty.getLsbD j then s.mem.get (coreKey n.val (w.boff + 128 * l.slot) + j) else s.mem.get (h + j) := by
  have hlen : ∀ j, [s.mem.get (coreKey n.val (w.boff + 128 * l.slot) + j)].length = 1 := fun _ => rfl
  rw [lineWrites_eq hh]
  split
  · rename_i hd
    have hmem : j ∈ (List.range 128).filter (fun j => l.dirty.getLsbD j) := List.mem_filter.2 ⟨List.mem_range.2 hj, hd⟩
    simpa using Mem.get_wrBlocks (base := h) hlen hs hmem Nat.one_pos
  · rename_i hd
    refine Mem.get_wrBlocks_outside hlen (fun i hi => ?_)
    have hne : i ≠ j := by rintro rfl; exact hd (List.mem_filter.1 hi).2
    omega

/-! ### The three outcomes of a fill -/

section
variable {s : State} {slot : Fin 8} {x : Word} {w : Win} (hf : s.flightsOf (.win s.act.cid.core) = []) (hs : s.Inv)
  (hw : (s.core s.act.cid.core).wins.get slot = some w) {k : Nat}
include hf hs hw

/-- A fill in whose way no CORE line stands copies its sectors and changes no other byte, and the window has them. -/
theorem filled_clean (hcore : ∀ l ∈ w.lines, l.slot = w.place (w.lineNo x) → l.scope ≠ .core) :
    let u := commit s ((Eff.start s).filled s.act.cid slot w x k)
    let place := coreKey s.act.cid.core.val (w.boff + 128 * w.place (w.lineNo x))
    let js := s.fillJs w (w.lineNo x)
    (∀ j, j / 32 ∈ js → u.mem.get (place + j) = s.mem.get (k + j)) ∧
    (∀ a, (∀ j, j < 128 → j / 32 ∈ js → a ≠ place + j) → u.mem.get a = s.mem.get a) ∧
    (u.core s.act.cid.core).wins.get slot = some (w.copy (w.lineNo x) js) := by
  intro u place js
  have hnil : coreWrites s s.act.cid.core (s.ctx s.act.cid).pasid (lineInWay slot (w.place (w.lineNo x))) = [] := by
    rw [coreWrites, coreLines_inWay_nil hw hcore]
    rfl
  have hmem : u.mem = s.mem.applyAll (wrBlocks place 32 (fun j => s.mem.bytes (k + 32 * j) 32) js) := by
    have h := filled_mem (k := k) hf (.inr hnil)
    rwa [hnil] at h
  have hsame : writtenBack s s.act.cid.core (s.ctx s.act.cid).pasid .sys (lineInWay slot (w.place (w.lineNo x))) slot w = w :=
    writtenBack_of_not_core (fun l hl hp => hcore l hl (by simpa [lineInWay, slotLines] using hp))
  refine ⟨fun j hj => ?_, fun a ha => ?_, ?_⟩
  · rw [hmem, Mem.get_copied s.mem hs hj]
  · rw [hmem, Mem.get_copied_outside s.mem (fun j hj => fillJs_lt hj) ha]
  · rw [commit_core, filled_wins hw, hsame]

/-- A fill in whose way one CORE line stands leaves at that line's home the bytes that stores wrote in it. -/
theorem filled_dirty {l : Line} {h : Nat} (hl : w.lines.filter (fun m => m.slot == w.place (w.lineNo x)) = [l])
    (hc : l.scope = .core) (hh : translate s (clusterOf s.act.cid.core) (s.ctx s.act.cid).pasid (w.lineAddr l) true = .ok h)
    (hlater : s.act.later = false) :
    let u := commit s ((Eff.start s).filled s.act.cid slot w x k)
    let place := coreKey s.act.cid.core.val (w.boff + 128 * w.place (w.lineNo x))
    h + 128 ≤ place ∨ place + 128 ≤ h → ∀ j, j < 128 →
      u.mem.get (h + j) = if l.dirty.getLsbD j then s.mem.get (place + j) else s.mem.get (h + j) := by
  intro u place hapart j hj
  have hwrites : coreWrites s s.act.cid.core (s.ctx s.act.cid).pasid (lineInWay slot (w.place (w.lineNo x))) =
      lineWrites s s.act.cid.core (s.ctx s.act.cid).pasid w l := by
    rw [coreWrites, coreLines_inWay_one hw hl hc, List.flatMap_singleton]
  have hslot : l.slot = w.place (w.lineNo x) := by
    have hmem : l ∈ w.lines.filter (fun m => m.slot == w.place (w.lineNo x)) := hl ▸ List.mem_singleton_self l
    simpa using (List.mem_filter.1 hmem).2
  have hmem := filled_mem (x := x) (k := k) (slot := slot) (w := w) hf (.inl hlater)
  rw [hwrites] at hmem
  rw [hmem, Mem.get_copied_outside _ (fun j hj => fillJs_lt hj) (fun i hi _ => by omega), get_lineWrites hs hh hj, hslot]

end

end Sys2Proof.Machine
end

section
/-! DRAIN and UNMAP (R101, R102, R374): how each ends, with the CORE lines written back or with FATAL_UNPROBED, and what a DRAIN
leaves of the windows. -/

namespace Sys2Proof.Machine

/-! ### Write-backs that end an operation -/

/-- The effect with a core changed. -/
def Eff.onCore (e : Eff) (n : Fin 4112) (g : Core → Core) : Eff := e.on (fun s => s.modCore n g)

/-- A core whose windows a DRAIN of scope CLU, DEV or SYS has drained (R102). -/
def Core.drained (k : Core) (sys : Bool) : Core := k.modWins (fun _ w => w.drained sys)

/-- A core with a window slot free again (R101). -/
def Core.freeSlot (k : Core) (slot : Fin 8) : Core := { k with wins := k.wins.set slot.val none slot.isLt }

theorem Core.wins_freeSlot (k : Core) (slot : Fin 8) : (k.freeSlot slot).wins.get slot = none := by
  simp [Core.freeSlot, vget]

section
variable {s : State} {cid : Cid} {q : Nat} {which : Fin 8 → Win → Line → Bool} (hp : s.act.pick = none)
include hp

/-- The end of an operation some of whose lines have no home: FATAL_UNPROBED is due for the first, and the operation is over. -/
theorem drainLines_homeless {x : Word} (hx : homeless s cid.core (s.ctx cid).pasid which = some x) (fin : Eff → Eff) :
    let u := commit s ((Eff.start s).drainLines cid q which fin)
    (6, x) ∈ (u.ctx cid).due ∧ (u.ctx cid).stc = (s.ctx cid).stc - 1 ∧ (u.ctx cid).sbAt q = none := by
  have heff : (Eff.start s).drainLines cid q which fin =
      (((Eff.start s).writeBack cid.core (s.ctx cid).pasid .dev which).landFlights (.win cid.core)).ctx cid
        (fun c => (c.dropSb q false).unprobed x) := by
    simp only [Eff.drainLines, Eff.start_st, hp, hx]
  have hctx : (((Eff.start s).writeBack cid.core (s.ctx cid).pasid .dev which).landFlights (.win cid.core)).st.ctx cid = s.ctx cid :=
    (State.ctx_congr (landFlights_cores ..) cid).trans (writeBack_ctx ..)
  rw [heff]
  simp only [commit_ctx_self, hctx]
  refine ⟨Ctx.unprobed_due .., ?_, ?_⟩
  · rw [Ctx.unprobed_stc]
    rfl
  · rw [Ctx.sbAt_unprobed, Ctx.sbAt_dropSb]

/-- What an operation leaves all of whose lines have homes: their bytes there, the windows as the write-back and then `g` make
them, and the operation over. -/
theorem drainLines_home (hx : homeless s cid.core (s.ctx cid).pasid which = none) (hl : s.act.later = false)
    (hf : s.flightsOf (.win cid.core) = []) {g : Core → Core} (hg : ∀ k, (g k).ctx = k.ctx) :
    let w := (Eff.start s).writeBack cid.core (s.ctx cid).pasid .dev which
    let u := commit s ((Eff.start s).drainLines cid q which (fun e => e.onCore cid.core g))
    u.mem = s.mem.applyAll (coreWrites s cid.core (s.ctx cid).pasid which) ∧ (u.core cid.core).wins = (g (w.st.core cid.core)).wins ∧
    (u.ctx cid).stc = (s.ctx cid).stc - 1 ∧ (u.ctx cid).sbAt q = none := by
  intro w u
  have heff : (Eff.start s).drainLines cid q which (fun e => e.onCore cid.core g) =
      (w.onCore cid.core g).ctx cid (fun c => c.dropSb q false) := by
    have hland : w.landFlights (.win cid.core) = w := landFlights_none (writeBack_flightsOf hf (.inl hl))
    simp only [Eff.drainLines, Eff.start_st, hp, hx, hl, Bool.false_eq_true, if_false]
    exact congrArg (fun e => (e.onCore cid.core g).ctx cid (fun c => c.dropSb q false)) hland
  have hu : u = commit s ((w.onCore cid.core g).ctx cid (fun c => c.dropSb q false)) := by rw [← heff]
  have hctx : u.ctx cid = (s.ctx cid).dropSb q false := by
    rw [hu, commit_ctx_self, Eff.onCore, Eff.on_st, State.ctx_modCore _ _ _ hg, writeBack_ctx, Eff.start_st]
  refine ⟨?_, ?_, ?_, ?_⟩
  · rw [hu, commit_mem, Eff.ctx_wr, Eff.onCore, Eff.on_wr, writeBack_wr hf (.inl hl)]
  · rw [hu, commit_core, Eff.ctx_st, State.wins_modCtx, Eff.onCore, Eff.on_st, State.core_modCore_self]
  · rw [hctx]
    rfl
  · rw [hctx, Ctx.sbAt_dropSb]

end

/-! ### What a DRAIN leaves of a window (R102) -/

/-- No CORE line is left in a window of which every CORE line is picked and has a home. -/
theorem writtenBack_not_core {s : State} {n : Fin 4112} {pasid : BitVec 20} {i : Fin 8} {w : Win}
    (hw : (s.core n).wins.get i = some w) (hx : homeless s n pasid (fun _ _ _ => true) = none) {l : Line}
    (hl : l ∈ (writtenBack s n pasid .dev (fun _ _ _ => true) i w).lines) : l.scope ≠ .core := by
  obtain ⟨l', hl', rfl⟩ := List.mem_map.1 hl
  by_cases hcore : l'.scope = .core
  · have hhome : lineHome s n pasid w l' = true := by
      rw [homeless, Option.map_eq_none_iff, List.find?_eq_none] at hx
      simpa using hx (w, l') (mem_coreLines.2 ⟨i, hw, hl', hcore, rfl⟩)
    simp [hcore, hhome]
  · simp [hcore]

/-- After a DRAIN of a window without CORE lines: at SYS every line is recorded SYS; below SYS the lines left in a SHARED window
are recorded DEV; and in a SHARED window no sector that a fill has copied is left. -/
theorem drained_lines {w : Win} {sys : Bool} (hw : ∀ l ∈ w.lines, l.scope ≠ .core) :
    ((w.drained sys).shared = true → (w.drained sys).parts = []) ∧
    ∀ l ∈ (w.drained sys).lines, l.scope ≠ .core ∧ (sys = true → l.scope = .sys) ∧
      (sys = false → (w.drained sys).shared = true → l.scope = .dev) := by
  have hkept : ∀ l ∈ (if w.shared then w.lines.filter (fun l => l.scope != .sys) else w.lines),
      l.scope ≠ .core ∧ (w.shared = true → l.scope = .dev) := by
    intro l hl
    split at hl
    · obtain ⟨hl, hsys⟩ := List.mem_filter.1 hl
      have hcore := hw l hl
      cases hscope : l.scope <;> simp_all
    · rename_i hshared
      exact ⟨hw l hl, fun h => absurd h hshared⟩
  refine ⟨fun h => if_pos h, fun l hl => ?_⟩
  cases sys with
  | false =>
    obtain ⟨hcore, hdev⟩ := hkept l hl
    exact ⟨hcore, nofun, fun _ => hdev⟩
  | true =>
    obtain ⟨l', hl', rfl⟩ := List.mem_map.1 hl
    obtain ⟨hcore, -⟩ := hkept l' hl'
    cases hscope : l'.scope <;> simp_all

/-- What a DRAIN leaves in a slot. -/
theorem drained_slot {s : State} {n : Fin 4112} {pasid : BitVec 20} (hx : homeless s n pasid (fun _ _ _ => true) = none)
    {i : Fin 8} {v : Win} {sc : Fin 4}
    (h : (((s.core n).wins.get i).map (writtenBack s n pasid .dev (fun _ _ _ => true) i)).map (fun w => w.drained (sc == 3)) = some v) :
    (v.shared = true → v.parts = []) ∧
    ∀ l ∈ v.lines, l.scope ≠ .core ∧ (sc = 3 → l.scope = .sys) ∧ (sc ≠ 3 → v.shared = true → l.scope = .dev) := by
  rw [Option.map_map, Option.map_eq_some_iff] at h
  obtain ⟨w, hw, rfl⟩ := h
  simpa using drained_lines (sys := sc == 3) (fun l hl => writtenBack_not_core hw hx hl)

/-! ### The steps -/

section
variable {s : State} {o : SbOp} (ho : (s.ctx s.act.cid).sbAt s.act.num = some o)
include ho

/-- DRAIN of CORE ends once the earlier accesses have performed. -/
theorem drainComplete_core (hk : o.kind = .drain 0) (hd : accessesDone s s.act.cid o.seq = true) :
    exec .drainComplete s = done s ((Eff.start s).ctx s.act.cid (fun c => c.dropSb o.seq false)) := by
  simp only [exec, execDrainComplete, ho, hk, hd, Bool.not_true, Bool.false_eq_true, if_false, if_true]

/-- A wider DRAIN writes the core's CORE lines back and then leaves its windows drained. -/
theorem drainComplete_lines {sc : Fin 4} (hk : o.kind = .drain sc) (hsc : sc ≠ 0) (hd : accessesDone s s.act.cid o.seq = true)
    (hfree : drainFree s s.act.cid (fun _ _ _ => true) = true) :
    exec .drainComplete s = done s ((Eff.start s).drainLines s.act.cid o.seq (fun _ _ _ => true)
      (fun e => e.onCore s.act.cid.core (fun k => k.drained (sc == 3)))) := by
  simp only [exec, execDrainComplete, ho, hk, hd, hsc, hfree, Bool.not_true, Bool.false_eq_true, if_false, if_true]
  rfl

/-- An UNMAP of a quiet window writes its CORE lines back and then frees its slot. -/
theorem unmapComplete_lines {slot : Fin 8} (hk : o.kind = .unmap slot) (hq : windowQuiet s s.act.cid.core slot = true)
    (hfree : drainFree s s.act.cid (fun i _ _ => i == slot) = true) :
    exec .unmapComplete s = done s ((Eff.start s).drainLines s.act.cid o.seq (fun i _ _ => i == slot)
      (fun e => e.onCore s.act.cid.core (fun k => k.freeSlot slot))) := by
  simp only [exec, execUnmapComplete, ho, hk, hq, hfree, Bool.and_self, if_true]
  rfl

end

/-- Settles O47: the outcomes of a fill, of a DRAIN and of an UNMAP. -/
theorem windowSteps : Obligations.WindowSteps := by
  refine ⟨fun s slot x w => ?_, fun s o sc => ?_, fun s o slot => ?_⟩
  · intro cid pasid no la place js hs hhi hflag hf hmiss hw hfree hturned
    refine ⟨fun hcore => ?_, fun l h k hl hc hh ha ht hk hapart hlater => ?_⟩
    · have hnil := coreLines_inWay_nil hw hcore
      have hready := fillReady_clean hw hfree hturned hnil
      refine ⟨fun k hk => ?_, fun hk => ?_⟩
      · obtain ⟨hcopied, hframe, hwin⟩ := filled_clean (x := x) (k := k) hf hs hw hcore
        exact ⟨_, _, windowFill_fills hhi hflag hmiss (hready.fill hf hk), fun j _ => hcopied j, hframe, hwin,
          lineAt_copy_of_all, lineAt_copy_of_missing, fun d => filled_ctx d⟩
      · refine ⟨_, windowFill_faults hhi hflag hmiss (hready.fault hk), rfl, ?_, fun o ho => ?_⟩
        · rw [commit_ctx_self]
          exact Ctx.accessFault_due ..
        · rw [commit_ctx_self]
          exact Ctx.accessFault_sbAt ho x
    · have hready := fillReady_dirty hw hfree hturned (coreLines_inWay_one hw hl hc) hh ha ht
      exact ⟨_, windowFill_fills hhi hflag hmiss (hready.fill hf hk), filled_dirty hf hs hw hl hc hh hlater hapart⟩
  · intro cid n pasid every ho hk hd
    refine ⟨?_, fun hsc hfree hp => ⟨fun hx hl hf => ?_, fun x hx => ?_⟩⟩
    · rintro rfl
      refine ⟨_, drainComplete_core ho hk hd, rfl, ?_, ?_, rfl⟩
      · rw [commit_ctx_self]
        rfl
      · rw [commit_ctx_self, Ctx.sbAt_dropSb]
    · obtain ⟨hmem, hwins, hstc, hsb⟩ := drainLines_home (q := o.seq) hp hx hl hf
        (g := fun k => k.drained (sc == 3)) (fun k => Core.ctx_modWins ..)
      refine ⟨_, drainComplete_lines ho hk hsc hd hfree, hstc, hsb, hmem, fun p hp => ?_⟩
      rw [Core.mem_slots, hwins, Core.drained, Core.wins_modWins, writeBack_wins] at hp
      exact drained_slot hx hp
    · obtain ⟨hdue, hstc, hsb⟩ := drainLines_homeless (q := o.seq) hp hx
        (fun e => e.onCore n (fun k => k.drained (sc == 3)))
      exact ⟨_, drainComplete_lines ho hk hsc hd hfree, hdue, hstc, hsb⟩
  · intro cid n pasid mine ho hk hq hfree hp
    refine ⟨fun hx hl hf => ?_, fun x hx => ?_⟩
    · obtain ⟨hmem, hwins, hstc, hsb⟩ := drainLines_home (q := o.seq) hp hx hl hf
        (g := fun k => k.freeSlot slot) (fun _ => rfl)
      refine ⟨_, unmapComplete_lines ho hk hq hfree, ?_, hmem, hstc, hsb⟩
      rw [hwins, Core.wins_freeSlot]
    · obtain ⟨hdue, hstc, hsb⟩ := drainLines_homeless (q := o.seq) hp hx
        (fun e => e.onCore n (fun k => k.freeSlot slot))
      exact ⟨_, unmapComplete_lines ho hk hq hfree, hdue, hstc, hsb⟩

end Sys2Proof.Machine
end

section
/-! Operations that ask for the assist (R120, R347, R360): which they are, what their records hold, and what their bundle
leaves. -/

namespace Sys2Proof.Machine

/-! ### The record of a lane-wise operation (R360) -/

/-- The lane width that the type of a trigger code names (R55, R56). -/
def codeWidth (n : Nat) : Nat := if n % 8 ∈ [1, 2, 4, 6] then 16 else 32

/-- The widths at which the trigger value, .o1 and .o2 of a trigger stand in its record: VCVT and VDOT2 name their own. -/
def recWidths (b : Fin 16) (t : Nat) (o2 : Val) : Nat × Nat × Nat :=
  if b.val = 5 then (32, 32, 32)
  else if b.val < 4 ∧ t / 8 = 29 then (codeWidth o2.word.toNat, 16, 16)
  else if b.val < 4 ∧ t / 8 = 31 then (16, 16, 32)
  else (codeWidth t, codeWidth t, codeWidth t)

/-- The same operand by operand. -/
theorem recWidths_eq (b : Fin 16) (t : Nat) (o2 : Val) : recWidths b t o2 =
    let w := if b.val = 5 then 32 else codeWidth t
    let cvt : Bool := b.val < 4 ∧ t / 8 = 29
    let dot : Bool := b.val < 4 ∧ t / 8 = 31
    (if cvt then codeWidth o2.word.toNat else if dot then 16 else w, if cvt || dot then 16 else w,
      if cvt then 16 else if dot then 32 else w) := by
  unfold recWidths
  split
  next h => simp [h]
  next h =>
    split
    next hc => simp [hc]
    next hc =>
      split
      next hd => simp [hd]
      next hd => simp only [hc, hd, decide_false, Bool.or_false, Bool.false_eq_true, if_false]

/-- The bundles of a class V latency that remain when the record is made, by the operation's place. -/
def vecRem : Nat → Nat | 23 => 2 | 24 => 5 | 27 => 7 | 29 => 1 | _ => 3

/-- The bundles of a trigger's latency that remain when its record is made. -/
def recRem (b : Fin 16) (t : Nat) : Nat :=
  if b.val = 5 then 1 else if b.val = 8 then (if t / 8 = 12 then 15 else 11) else vecRem (t / 8)

/-- What the record of a trigger on bus `b` with code `t` holds of what its operation of unit `u` reads; `rnd` says that it pops a
random word. -/
structure Recorded (b : Fin 16) (t : Nat) (u : Fin 15) (rnd : Bool) (i : In) (rec : AssistRec) : Prop where
  unit : rec.u = u
  bus  : u.val = b.val
  code : rec.t = t
  fpc  : rec.fpc = i.c.fpc
  rnd  : rec.rnd = if rnd then i.rnd else 0
  mask : rec.o3 = i.o3
  trig : rec.b = i.b.lanes (recWidths b t i.o2).1
  one  : rec.o1 = i.o1.lanes (recWidths b t i.o2).2.1
  two  : rec.o2 = i.o2.lanes (recWidths b t i.o2).2.2
  left : rec.rem = recRem b t

section
variable {u : Fin 15} {t lat : Nat} {rnd : Bool} {wb w w2 : VIn → Nat} {f : VIn → VOut} {i : In} {rec : AssistRec}

/-- A lane-wise operation asks exactly where a lane of its result does, and its record holds its operands. -/
theorem laneOp_asst : (laneOp u t lat rnd wb w f w2).asst i = some rec ↔ (f i.v).sub = true ∧
    rec = { u := u, t := t, rem := lat - 1, fpc := i.c.fpc, rnd := if rnd then i.rnd else 0, o3 := i.o3,
            b := i.b.lanes (wb i.v), o1 := i.o1.lanes (w i.v), o2 := i.o2.lanes (w2 i.v), kr := some i.v.kr } := by
  cases h : (f i.v).sub with
  | false => simp [laneOp, h]
  | true =>
    simp only [laneOp, h, if_true, true_and, Option.some.injEq]
    exact eq_comm

theorem laneOp_sub (h : (laneOp u t lat rnd wb w f w2).asst i = some rec) : (f i.v).sub = true := (laneOp_asst.1 h).1

/-- An operation that asks places no result. -/
theorem laneOp_eff_of_asst (h : (laneOp u t lat rnd wb w f w2).asst i = some rec) (s : State) :
    (laneOp u t lat rnd wb w f w2).eff i s = s := if_pos (laneOp_sub h)

/-- A lane-wise operation that asks leaves the record of its bus and code, where its widths and its latency are theirs. -/
theorem laneOp_recorded {b : Fin 16} {c : Nat} (h : (laneOp u t lat rnd wb w f w2).asst i = some rec) (hu : u.val = b.val)
    (hc : t = c) (hw : recWidths b c i.o2 = (wb i.v, w i.v, w2 i.v)) (hlat : lat - 1 = recRem b c) :
    Recorded b c u rnd i rec := by
  obtain ⟨-, rfl⟩ := laneOp_asst.1 h
  exact ⟨rfl, hu, hc, rfl, rfl, rfl, by rw [hw], by rw [hw], by rw [hw], hlat⟩

end

theorem tyNum_eq (ty : VTy) : tyNum ty = vtyCode ty := by cases ty <;> rfl

theorem xNum_eq (ty : XTy) : xNum ty = xtyCode ty := by cases ty <;> rfl

/-- The place and the type of a class V code. -/
theorem vecCode_div (n : Nat) (ty : VTy) : (8 * n + vtyCode ty) / 8 = n := by
  cases ty <;> simp only [vtyCode] <;> omega

theorem codeWidth_vecCode (n : Nat) (ty : VTy) : codeWidth (8 * n + vtyCode ty) = (laneTy ty).w := by
  rw [codeWidth, Nat.mul_add_mod]
  cases ty <;> rfl

theorem specCode_div (n : Nat) (ty : XTy) : (8 * n + xtyCode ty) / 8 = n := by
  cases ty <;> simp only [xtyCode] <;> omega

theorem codeWidth_specCode (n : Nat) (ty : XTy) : codeWidth (8 * n + xtyCode ty) = (xFmt ty).width := by
  rw [codeWidth, Nat.mul_add_mod]
  cases ty <;> rfl

/-- The bus of VA0 or VA1. -/
def vaBus (u : Fin 2) : Fin 16 := ⟨2 + u.val, by omega⟩

theorem recRem_vec (u : Fin 2) (n : Nat) (ty : VTy) : recRem (vaBus u) (8 * n + vtyCode ty) = vecRem n := by
  have hbus : (vaBus u).val ≠ 5 ∧ (vaBus u).val ≠ 8 := by simp only [vaBus]; omega
  rw [recRem, if_neg hbus.1, if_neg hbus.2, vecCode_div]

/-! ### The operations that ask (R120) -/

/-- What the bundle of an operation that asks rests on: it needs no privilege, raises no trap and waits for no earlier access,
places no result, and its record is that of R360. -/
structure Assisted (i : Instr) (b : Fin 16) (t : Nat) (g : Guard) (src : Src) (o : Op) (j : In) (rec : AssistRec) : Prop where
  runs : ∀ s, exec i s = issueOne g src o s
  same : o.t = t
  free : o.priv = false ∧ o.acc = false
  calm : o.pv j = false ∧ o.xf j = false ∧ o.chk j = none ∧ o.sw j = none
  kept : ∀ s, o.eff j s = s
  made : Recorded b t o.bus o.rnd j rec

/-- An operation whose type field names a variant. -/
theorem typed_some {legal : Bool} {o' o : Op} (h : (if legal then some o' else none) = some o) : legal = true ∧ o' = o := by
  cases legal with
  | false => cases h
  | true => exact ⟨rfl, Option.some.inj h⟩

theorem issueTyped_legal {legal : Bool} (h : legal = true) (g : Guard) (src : Src) (o : Op) (s : State) :
    issueTyped legal g src o s = issueOne g src o s := by
  subst h
  rfl

section
variable {i : Instr} {u : Fin 2} {g : Guard} {src : Src} {t n lat : Nat} {ty : VTy} {j : In} {rec : AssistRec} {legal : Bool}

theorem vecOp_sub {f : VTy → VIn → VOut} (h : (vecOp u n lat ty f).asst j = some rec) : (f ty j.v).sub = true := laneOp_sub h

theorem packOp_sub {rnd : Bool} {w : VIn → Nat} {f : VIn → VOut} (h : (packOp t rnd w f).asst j = some rec) :
    (f j.v).sub = true := laneOp_sub h

/-- A class V operation whose operands all expand at the lane width of its type. -/
theorem vecOp_recorded {f : VTy → VIn → VOut} (h : (vecOp u n lat ty f).asst j = some rec)
    (hn : n ≠ 29 ∧ n ≠ 31) (hlat : (f ty j.v).sub = true → lat - 1 = vecRem n) :
    Recorded (vaBus u) (8 * n + vtyCode ty) (vaUnit u) false j rec := by
  have hw : recWidths (vaBus u) (8 * n + vtyCode ty) j.o2 = ((laneTy ty).w, (laneTy ty).w, (laneTy ty).w) := by
    rw [recWidths, vecCode_div, codeWidth_vecCode, if_neg (by simp only [vaBus]; omega), if_neg (fun hc => hn.1 hc.2),
      if_neg (fun hc => hn.2 hc.2)]
  exact laneOp_recorded h (Nat.add_comm ..) (by rw [tyNum_eq]) hw ((hlat (laneOp_sub h)).trans (recRem_vec ..).symm)

theorem vecOp_assisted {f : VTy → VIn → VOut} (h : (vecOp u n lat ty f).asst j = some rec)
    (hx : ∀ s, exec i s = issueTyped legal g src (vecOp u n lat ty f) s) (hl : legal = true) (ht : 8 * n + vtyCode ty = t)
    (hn : n ≠ 29 ∧ n ≠ 31) (hlat : (f ty j.v).sub = true → lat - 1 = vecRem n) :
    Assisted i (vaBus u) t g src (vecOp u n lat ty f) j rec where
  runs s := (hx s).trans (issueTyped_legal hl ..)
  same := ht ▸ congrArg (8 * n + ·) (tyNum_eq ty)
  free := ⟨rfl, rfl⟩
  calm := ⟨rfl, rfl, rfl, rfl⟩
  kept := laneOp_eff_of_asst h
  made := ht ▸ vecOp_recorded h hn hlat

/-- VTBL differs in what it waits for alone. -/
theorem opVtbl_assisted (h : (opVtbl u ty).asst j = some rec) (hl : laneLegal true false false ty = true) :
    Assisted (.vtbl u g src ty) (vaBus u) (184 + vtyCode ty) g src (opVtbl u ty) j rec where
  runs s := issueTyped_legal hl ..
  same := congrArg (184 + ·) (tyNum_eq ty)
  free := ⟨rfl, rfl⟩
  calm := ⟨rfl, rfl, rfl, rfl⟩
  kept := laneOp_eff_of_asst (show (vecOp u 23 3 ty fnVtbl).asst j = some rec from h)
  made := vecOp_recorded (show (vecOp u 23 3 ty fnVtbl).asst j = some rec from h) (by decide) (fun _ => rfl)

/-- A source type that VCVT names has the width that its code names. -/
theorem cvtSrc_width {v : VIn} {sty : VTy} (h : v.cvtSrc = some sty) : codeWidth v.o2.word.toNat = (laneTy sty).w := by
  have hmod : v.o2.word.toNat % 8 < 8 := Nat.mod_lt _ (by decide)
  rw [codeWidth]
  rw [VIn.cvtSrc] at h
  interval_cases v.o2.word.toNat % 8 <;> cases h <;> rfl

theorem opVcvt_assisted (h : (opVcvt u ty).asst j = some rec) (hl : laneLegal true true true ty = true) :
    Assisted (.vcvt u g src ty) (vaBus u) (232 + vtyCode ty) g src (opVcvt u ty) j rec := by
  have hcode : (232 + vtyCode ty) / 8 = 29 := vecCode_div 29 ty
  obtain ⟨sty, hs⟩ : ∃ sty, j.v.cvtSrc = some sty := by
    refine Option.ne_none_iff_exists'.1 (fun hnone => ?_)
    have hsub := laneOp_sub h
    simp [fnVcvt, hnone] at hsub
  have hw : recWidths (vaBus u) (232 + vtyCode ty) j.o2 = (((j.v.cvtSrc.map laneTy).getD (laneTy ty)).w, 16, 16) := by
    rw [recWidths, if_neg (by simp only [vaBus]; omega), if_pos ⟨by simp only [vaBus]; omega, hcode⟩, hs]
    exact congrArg (fun w => (w, 16, 16)) (cvtSrc_width hs)
  exact {
    runs := fun s => issueTyped_legal hl .., same := congrArg (232 + ·) (tyNum_eq ty), free := ⟨rfl, rfl⟩
    calm := ⟨rfl, rfl, rfl, rfl⟩, kept := laneOp_eff_of_asst h
    made := laneOp_recorded h (Nat.add_comm ..) (congrArg (232 + ·) (tyNum_eq ty)) hw (recRem_vec u 29 ty).symm }

theorem opVdot2_assisted (h : (opVdot2 u ty).asst j = some rec) (hl : (ty == .bf16 || ty == .f16 || ty == .i16) = true)
    (hlat : lat42 ty = 4) : Assisted (.vdot2 u g src ty) (vaBus u) (248 + vtyCode ty) g src (opVdot2 u ty) j rec := by
  have hcode : (248 + vtyCode ty) / 8 = 31 := vecCode_div 31 ty
  have hw : recWidths (vaBus u) (248 + vtyCode ty) j.o2 = (16, 16, 32) := by
    rw [recWidths, if_neg (by simp only [vaBus]; omega), if_neg (by omega), if_pos ⟨by simp only [vaBus]; omega, hcode⟩]
  exact {
    runs := fun s => issueTyped_legal hl .., same := congrArg (248 + ·) (tyNum_eq ty), free := ⟨rfl, rfl⟩
    calm := ⟨rfl, rfl, rfl, rfl⟩, kept := laneOp_eff_of_asst h
    made := laneOp_recorded h (Nat.add_comm ..) (congrArg (248 + ·) (tyNum_eq ty)) hw
      (by rw [hlat]; exact (recRem_vec u 31 ty).symm) }

theorem specOp_assisted {ty : XTy} {f : XTy → VIn → VOut} (h : (specOp n lat ty f).asst j = some rec)
    (hx : ∀ s, exec i s = issueOne g src (specOp n lat ty f) s) (ht : 8 * n + xtyCode ty = t)
    (hlat : lat - 1 = if n = 12 then 15 else 11) : Assisted i 8 t g src (specOp n lat ty f) j rec := by
  have hw : recWidths 8 (8 * n + xtyCode ty) j.o2 = ((xFmt ty).width, (xFmt ty).width, (xFmt ty).width) := by
    rw [recWidths, codeWidth_specCode, if_neg (by decide), if_neg (fun hc => absurd hc.1 (by decide)),
      if_neg (fun hc => absurd hc.1 (by decide))]
  have hrem : recRem 8 (8 * n + xtyCode ty) = if n = 12 then 15 else 11 := by
    rw [recRem, if_neg (by decide), if_pos (by decide), specCode_div]
  have hcode : 8 * n + xNum ty = t := ht ▸ congrArg (8 * n + ·) (xNum_eq ty)
  exact {
    runs := hx, same := hcode, free := ⟨rfl, rfl⟩, calm := ⟨rfl, rfl, rfl, rfl⟩, kept := laneOp_eff_of_asst h
    made := ht ▸ laneOp_recorded h rfl (by rw [xNum_eq]) hw (hlat.trans hrem.symm) }

/-- A floating pack whose source is F32 lanes. -/
theorem packOp_assisted {c : Nat} {rnd : Bool} {f : VIn → VOut} (h : (packOp c rnd (fun _ => 32) f).asst j = some rec)
    (hx : ∀ s, exec i s = issueOne g src (packOp c rnd (fun _ => 32) f) s) (ht : c = t) :
    Assisted i 5 t g src (packOp c rnd (fun _ => 32) f) j rec where
  runs := hx
  same := ht
  free := ⟨rfl, rfl⟩
  calm := ⟨rfl, rfl, rfl, rfl⟩
  kept := laneOp_eff_of_asst h
  made := laneOp_recorded h rfl ht (if_pos rfl) (if_pos rfl).symm

end

theorem rmNum_eq (rm : PRm) : rmNum rm = prmCode rm := by cases rm <;> rfl

/-- Integer lanes need no rounding, so that a lane of VADD to VNFMA that asks is floating. -/
theorem vArith_sub {ff : Bool → Rl → Rl → Rl → Rl} {fi : Int → Int → Int → Int} {k : Nat} {ty : VTy} {v : VIn}
    (h : (vArith ff fi k ty v).sub = true) : lat42 ty = 4 := by
  rw [lat42]
  cases ht : laneTy ty with
  | fl f => rfl
  | int w => simp [vArith, ofLanes, plainLane, ht] at h
  | nat w => simp [vArith, ofLanes, plainLane, ht] at h

theorem fnVdot2_sub {ty : VTy} {v : VIn} (h : (fnVdot2 ty v).sub = true) : lat42 ty = 4 := by
  rw [lat42]
  cases ht : laneTy ty with
  | fl f => rfl
  | int w => simp [fnVdot2, ofLanes, plainLane, ht] at h
  | nat w => simp [fnVdot2, ofLanes, plainLane, ht] at h

/-- A pack into 8 bits takes no part in R120 (R149). -/
theorem packE_sub (g : Fmt) (rm : PRm) (v : VIn) : (packE g rm v).sub = false := by
  have h : ∀ (f : Fmt) (n first : Nat), (packFl f g n first rm false v).sub = false := by
    intro f n first
    simp [packFl]
  unfold packE
  split
  · exact h ..
  · exact h ..

/-- VREDMAX and VREDMIN round nothing. -/
theorem vReduce_sub (larger : Bool) (ty : VTy) (v : VIn) : (vReduce larger ty v).sub = false := by
  simp only [vReduce]
  split <;> rfl

/-- Every operation that asks is one of class V with rounded lanes, of class X, or PACKB16 or PACKH16 (R120, R149). -/
theorem assisted_of_asst {i : Instr} {b : Fin 16} {t : Nat} {g : Guard} {src : Src} {o : Op} {j : In} {rec : AssistRec}
    (htrig : trigOf i = some (b, t, g, src)) (hop : opOf i = some o) (h : o.asst j = some rec) :
    Assisted i b t g src o j rec := by
  cases i with
  | vadd u g src ty | vsub u g src ty | vmul u g src ty | vfma u g src ty | vfms u g src ty | vnfma u g src ty =>
    cases htrig
    obtain ⟨hl, rfl⟩ := typed_some hop
    exact vecOp_assisted h (fun _ => rfl) hl rfl (by decide) (fun hsub => by rw [vArith_sub hsub]; rfl)
  | vredadd u g src ty | vscan u g src ty =>
    cases htrig
    obtain ⟨hl, rfl⟩ := typed_some hop
    exact vecOp_assisted h (fun _ => rfl) hl rfl (by decide) (fun _ => rfl)
  | vtbl u g src ty =>
    cases htrig
    obtain ⟨hl, rfl⟩ := typed_some hop
    exact opVtbl_assisted h hl
  | vcvt u g src ty =>
    cases htrig
    obtain ⟨hl, rfl⟩ := typed_some hop
    exact opVcvt_assisted h hl
  | vdot2 u g src ty =>
    cases htrig
    obtain ⟨hl, rfl⟩ := typed_some hop
    exact opVdot2_assisted h hl (fnVdot2_sub (laneOp_sub h))
  | vmin u g src ty | vmax u g src ty | vabs u g src ty | vneg u g src ty | vcmpeq u g src ty | vcmplt u g src ty
  | vcmple u g src ty | vcmpun u g src ty | vand u g src ty | vor u g src ty | vxor u g src ty | vshl u g src ty
  | vshr u g src ty | vsar u g src ty | vsel u g src ty | vbcast u g src ty | vperm u g src ty | vtopk u g src ty
  | vmulh u g src ty | vclamp u g src ty | vcntm u g src ty =>
    obtain ⟨-, rfl⟩ := typed_some hop
    cases h
  | vredmax u g src ty | vredmin u g src ty =>
    obtain ⟨-, rfl⟩ := typed_some hop
    exact absurd (vecOp_sub h) (ne_true_of_eq_false (vReduce_sub ..))
  | xrcp g src ty | xrsq g src ty | xsqrt g src ty | xexp2 g src ty | xlog2 g src ty | xexp g src ty | xsin g src ty
  | xcos g src ty | xtanh g src ty | xsigm g src ty | xgelu g src ty | xsilu g src ty | xdiv g src ty =>
    cases htrig
    cases hop
    exact specOp_assisted h (fun _ => rfl) rfl rfl
  | packb16 g src rm | packh16 g src rm =>
    cases htrig
    cases hop
    exact packOp_assisted h (fun _ => rfl) (by rw [rmNum_eq])
  | packe4 g src rm | packe5 g src rm =>
    cases hop
    exact absurd (packOp_sub h) (ne_true_of_eq_false (packE_sub ..))
  | pack4s g src wrap | pack4z g src wrap | pack6s g src wrap | pack6z g src wrap | pack8s g src wrap | pack8z g src wrap
  | packix g src wrap =>
    cases hop
    cases h
  | _ => cases hop <;> cases h

/-! ### The bundle of an operation that asks (R120, R347) -/

/-- A trigger alone keeps to R36: where a pack pops a random word, its source is not the random-bit queue. -/
theorem wf_random {i : Instr} {b : Fin 16} {t : Nat} {g : Guard} {src : Src} (htrig : trigOf i = some (b, t, g, src))
    (hwf : i.wf = true) : b.val ≠ 5 ∨ src ≠ .rnd ∨ (t % 768) % 4 ≠ 2 := by
  by_contra hnot
  push Not at hnot
  obtain ⟨hb, rfl, ht⟩ := hnot
  have hlim : limitsOk [⟨b, g, .rnd, .trig (Fin.ofNat 768 t)⟩] = true := by
    unfold Instr.wf at hwf
    split at hwf
    · cases htrig
    · simp only [movesOfInstr, htrig, Option.getD_some, Bool.and_eq_true] at hwf
      exact hwf.2
  simp [limitsOk, Move.popsRnd, hb, ht] at hlim

/-- The maps that come into force change no context. -/
theorem foldl_applyMap_ctx (l : List Apply) (k : Core) : (l.foldl (fun k a => k.applyMap a.kind) k).ctx = k.ctx := by
  induction l generalizing k with
  | nil => rfl
  | cons a l ih =>
    rw [List.foldl_cons, ih]
    cases a.kind <;> rfl

/-- What comes into force once a bundle has issued changes of its context the operations under way and the traps due alone. -/
theorem applyDue_ctx {α : Type} (p : Ctx → α) (hp : ∀ c as ds, p { c with applies := as, due := ds } = p c) (s : State) (cid : Cid) :
    p ((s.applyDue cid).ctx cid) = p (s.ctx cid) := by
  have hmaps : p ((s.applyMaps cid).ctx cid) = p (s.ctx cid) := by
    rw [State.applyMaps, State.ctx_modCtx_self, State.ctx_modCore _ _ _ (fun k => foldl_applyMap_ctx _ k)]
    exact hp (s.ctx cid) _ (s.ctx cid).due
  rw [State.applyDue, State.applyOwns, State.ctx_modCtx_self]
  exact (hp ..).trans hmaps

/-- A ready bundle whose operation asks issues, and the context then halts with the one record (R120, R347, R360). -/
theorem Ready.issueOne_assists {s : State} {g : Guard} {src : Src} {o : Op} {rec : AssistRec} (h : Ready s g src)
    (hl : o.bus.val ≠ 5 ∨ src ≠ .rnd ∨ (o.t % 768) % 4 ≠ 2) (hr : o.rnd = true → s.issuer.sourceWaits .rnd = false)
    (hf : o.priv = false ∧ o.acc = false)
    (hc : o.pv (s.reads o.bus src) = false ∧ o.xf (s.reads o.bus src) = false ∧ o.chk (s.reads o.bus src) = none ∧
      o.sw (s.reads o.bus src) = none)
    (hb : o.blk (s.reads o.bus src) = false) (ha : o.asst (s.reads o.bus src) = some rec) :
    issueOne g src o s = .next (commit s ((((boundaryEff s).issue s.cur [oneSlot g src o] [(o, s.reads o.bus src)]).takeTrap
      s.cur causeAssist 1).ctx s.cur (fun c => { c with assist := [rec], trap := some ⟨causeAssist, 1, none⟩ }))) := by
  obtain ⟨hpriv, hacc⟩ := hf
  obtain ⟨hpv, hxf, hchk, hsw⟩ := hc
  rw [h.issueOne_attempt hl (.inr hxf) (.inl hpriv)]
  congr 2
  have hops : opsOf (boundaryEff s).st s.cur [oneSlot g src o] = [(o, s.reads o.bus src)] := rfl
  have hmove : moveWaits (boundaryEff s).st s.cur (oneSlot g src o).mv = false := h.move_ready
  have hpop : popTrap ((boundaryEff s).st.ctx s.cur) [oneSlot g src o] = none := h.popTrap_none
  have hrnd : (o.rnd && ((boundaryEff s).st.ctx s.cur).sourceWaits .rnd) = false := by
    cases ho : o.rnd with
    | false => rfl
    | true => exact hr ho
  have hroom : ¬ 16 < ((boundaryEff s).st.ctx s.cur).pend.length + ([(o, s.reads o.bus src)].filter (fun p => p.1.res)).length := by
    have hone : ([(o, s.reads o.bus src)].filter (fun p => p.1.res)).length ≤ 1 := List.length_filter_le ..
    have hpend : ((boundaryEff s).st.ctx s.cur).pend.length < 16 := h.room
    omega
  have hblk : opsBlock (boundaryEff s).st s.cur [(o, s.reads o.bus src)] = false := by
    simp only [opsBlock, List.any_cons, List.any_nil, hb, hacc, decide_eq_false hroom, Bool.or_false, Bool.false_and]
  simp only [Eff.attempt, hops, hpop, issueTrap, List.any_cons, List.any_nil, List.findSome?_cons, List.findSome?_nil, hmove,
    hrnd, hpv, hchk, hblk, Option.none_or, Bool.or_false, Bool.false_eq_true, if_false, Eff.postTrap, List.filterMap_cons,
    List.filterMap_nil, ha, hsw]
  rfl

/-- The issue of a bundle whose operation changes nothing leaves its context as its move does, but for its flags and what comes
into force. -/
theorem issue_ctx_of_kept {α : Type} (p : Ctx → α) (hp : ∀ c st as ds, p { c with stat := st, applies := as, due := ds } = p c)
    {s : State} {g : Guard} {src : Src} {o : Op} (hk : ∀ t, o.eff (s.reads o.bus src) t = t) :
    p (((boundaryEff s).issue s.cur [oneSlot g src o] [(o, s.reads o.bus src)]).st.ctx s.cur) = p (s.moved src o.rnd) := by
  have hmoved : ((boundaryEff s).st.ctx s.cur).doMoves (boundaryEff s).st.ir [oneSlot g src o] = s.moved src o.rnd :=
    doMoves_one ..
  simp only [Eff.issue, Eff.on_st, List.foldl_cons, List.foldl_nil, hk, hmoved]
  rw [applyDue_ctx p (fun c as ds => hp c c.stat as ds), State.ctx_modCtx_self, State.ctx_setCtx_self]
  exact hp (s.moved src o.rnd) _ (s.moved src o.rnd).applies (s.moved src o.rnd).due

theorem issue_launch_of_kept {s : State} {g : Guard} {src : Src} {o : Op} (hk : ∀ t, o.eff (s.reads o.bus src) t = t) :
    ((boundaryEff s).issue s.cur [oneSlot g src o] [(o, s.reads o.bus src)]).st.launch = s.launch := by
  simp only [Eff.issue, Eff.on_st, List.foldl_cons, List.foldl_nil, hk]
  rfl

/-- Settles O21: an operation that asks issues without a result, and its context halts with the record of R360. -/
theorem assistTaken : Obligations.AssistTaken := by
  intro i b t g src o rec s htrig hwf hop hready hasst hrnd hblk
  obtain ⟨hruns, rfl, hfree, hcalm, hkept, hrec⟩ := assisted_of_asst htrig hop hasst
  obtain ⟨hunit, hbus, hcode, hfpc, hword, hmask, htrigger, hone, htwo, hleft⟩ := hrec
  have hlegal : o.bus.val ≠ 5 ∨ src ≠ .rnd ∨ (o.t % 768) % 4 ≠ 2 := hbus ▸ wf_random htrig hwf
  refine ⟨_, (hruns s).trans (hready.issueOne_assists hlegal hrnd hfree hcalm hblk hasst), issue_launch_of_kept hkept, ?_, ?_, ?_,
    ?_, ?_, (congrArg Fin.val hunit).trans hbus, hcode, hfpc, hword, ?_, ?_, ?_, ?_, ?_⟩
  · rw [commit_ctx_self, takeTrap_ctx]
  · rw [commit_ctx_self]
    rfl
  · rw [commit_ctx_self]
  · rw [commit_ctx_self, takeTrap_ctx]
    exact issue_ctx_of_kept Ctx.pc (fun _ _ _ _ => rfl) hkept
  · rw [commit_ctx_self, takeTrap_ctx]
    exact issue_ctx_of_kept Ctx.pend (fun _ _ _ _ => rfl) hkept
  · rw [hmask, hunit]
    rfl
  · rw [htrigger, recWidths_eq, hunit]
    rfl
  · rw [hone, recWidths_eq, hunit]
    rfl
  · rw [htwo, recWidths_eq, hunit]
    rfl
  · rw [hleft, recRem]
    clear * -
    generalize b.val = x, o.t / 8 = y
    symm
    split <;> simp_all [vecRem]

end Sys2Proof.Machine
end

section
/-! Rounding (R114 to R116): RoundTo gives the value that R114 names, the overflow of R115 and the flags of R116. -/

namespace Sys2Proof.Machine

/-! ### Patterns and their magnitudes (R105) -/

theorem Fmt.maxMag_lt (f : Fmt) : f.maxMag < 2 ^ (f.width - 1) := by cases f <;> decide

theorem Fmt.two_pow_width (f : Fmt) : 2 ^ f.width = 2 ^ (f.width - 1) + 2 ^ (f.width - 1) := by cases f <;> decide

theorem Fmt.signed_lt (f : Fmt) (n : Bool) {m : Nat} (h : m < 2 ^ (f.width - 1)) : f.signed n m < 2 ^ f.width := by
  rw [f.two_pow_width]
  cases n <;> simp only [Fmt.signed, Bool.false_eq_true, if_false, if_true] <;> omega

/-- The bits of a pattern below its sign. -/
theorem Fmt.signed_mod (f : Fmt) (n : Bool) {m : Nat} (h : m < 2 ^ (f.width - 1)) : f.signed n m % 2 ^ (f.width - 1) = m := by
  cases n
  · exact Nat.mod_eq_of_lt h
  · exact (Nat.add_mod_right ..).trans (Nat.mod_eq_of_lt h)

/-- The sign of a pattern. -/
theorem Fmt.signed_testBit (f : Fmt) (n : Bool) {m : Nat} (h : m < 2 ^ (f.width - 1)) :
    (f.signed n m).testBit (f.width - 1) = n := by
  have hm : m.testBit (f.width - 1) = false := Nat.testBit_lt_two_pow h
  cases n
  · exact hm
  · rw [Fmt.signed, if_pos rfl, Nat.add_comm, Nat.testBit_two_pow_add_eq, hm]
    rfl

/-- The magnitude that a finite pattern with the bits `m` below its sign stands for. -/
noncomputable def Fmt.mag (f : Fmt) (m : Nat) : ℝ :=
  if m / 2 ^ f.fbits = 0 then (m % 2 ^ f.fbits : ℕ) * 2 ^ (f.emin - f.fbits)
  else (m % 2 ^ f.fbits + 2 ^ f.fbits : ℕ) * 2 ^ (((m / 2 ^ f.fbits : ℕ) : ℤ) - f.bias - f.fbits)

/-- The value of a pattern up to the largest finite one. -/
theorem Fmt.value_signed (f : Fmt) (n : Bool) {m : Nat} (h : m ≤ f.maxMag) :
    ∃ (q : Nat) (d : ℤ), f.value (f.signed n m) = .fin n q d false ∧ (q : ℝ) * 2 ^ d = f.mag m := by
  have hlt := Nat.lt_of_le_of_lt h f.maxMag_lt
  have hinf : ¬ (f.hasInf = true ∧ m = f.infMag) := fun hc => by
    have := hc.2
    simp only [Fmt.infMag] at this
    omega
  simp only [Fmt.value, Fmt.signed_mod f n hlt, Fmt.signed_testBit f n hlt, hinf, Nat.not_lt.2 h, if_false, Fmt.mag]
  split
  · exact ⟨_, _, rfl, rfl⟩
  · exact ⟨_, _, rfl, rfl⟩

/-- A pattern as `E` steps of the exponent and a magnitude `j` in units of the last place: `j` may be twice the least normal one,
which is the next exponent. -/
theorem Fmt.mag_cut (f : Fmt) (E j : Nat) (hj : j ≤ 2 * 2 ^ f.fbits) (hE : 0 < E → 2 ^ f.fbits ≤ j) :
    f.mag (E * 2 ^ f.fbits + j) = j * 2 ^ (f.emin + E - f.fbits) := by
  have hpos : 0 < 2 ^ f.fbits := Nat.two_pow_pos _
  have hdiv : (E * 2 ^ f.fbits + j) / 2 ^ f.fbits = E + j / 2 ^ f.fbits := by
    rw [Nat.add_comm, Nat.add_mul_div_right _ _ hpos, Nat.add_comm]
  rw [Fmt.mag, hdiv, Nat.mul_add_mod_self_right]
  rcases Nat.lt_or_ge j (2 ^ f.fbits) with hlt | hge
  · have h0 : E = 0 := Nat.eq_zero_of_not_pos (fun h => absurd (hE h) (Nat.not_le.2 hlt))
    rw [Nat.div_eq_of_lt hlt, Nat.mod_eq_of_lt hlt, h0, if_pos rfl]
    simp
  rcases Nat.lt_or_eq_of_le hj with hlt | rfl
  · have hone : j / 2 ^ f.fbits = 1 := Nat.div_eq_of_lt_le (by omega) (by omega)
    have hmod : j % 2 ^ f.fbits + 2 ^ f.fbits = j := by
      have := Nat.div_add_mod j (2 ^ f.fbits)
      rw [hone] at this
      omega
    have hexp : ((E + 1 : ℕ) : ℤ) - f.bias - f.fbits = f.emin + E - f.fbits := by
      simp only [Fmt.emin]
      omega
    rw [hone, hmod, if_neg (Nat.succ_ne_zero E), hexp]
  · have hexp : ((E + 2 : ℕ) : ℤ) - f.bias - f.fbits = f.emin + E - f.fbits + 1 := by
      simp only [Fmt.emin]
      omega
    rw [Nat.mul_div_cancel _ hpos, Nat.mul_mod_left, Nat.zero_add, if_neg (Nat.succ_ne_zero (E + 1)), hexp,
      zpow_add_one₀ two_ne_zero]
    push_cast
    ring

/-- Every pattern is some steps of the exponent and a magnitude below twice the least normal one. -/
theorem Fmt.cut (f : Fmt) (m : Nat) :
    ∃ E j : Nat, m = E * 2 ^ f.fbits + j ∧ j < 2 * 2 ^ f.fbits ∧ (0 < E → 2 ^ f.fbits ≤ j) := by
  have hpos : 0 < 2 ^ f.fbits := Nat.two_pow_pos _
  have hmod := Nat.mod_lt m hpos
  have hdiv := Nat.div_add_mod' m (2 ^ f.fbits)
  rcases Nat.eq_zero_or_pos (m / 2 ^ f.fbits) with h0 | h1
  · rw [h0] at hdiv
    exact ⟨0, m, by omega, by omega, by omega⟩
  · obtain ⟨E, hE⟩ := Nat.exists_eq_succ_of_ne_zero (Nat.ne_of_gt h1)
    rw [hE, Nat.succ_mul] at hdiv
    exact ⟨E, m % 2 ^ f.fbits + 2 ^ f.fbits, by omega, by omega, by omega⟩

/-- Patterns rise with their magnitudes. -/
theorem Fmt.mag_strictMono (f : Fmt) : StrictMono f.mag := by
  refine strictMono_nat_of_lt_succ (fun m => ?_)
  obtain ⟨E, j, rfl, hj, hE⟩ := f.cut m
  rw [Nat.add_assoc, f.mag_cut E j (Nat.le_of_lt hj) hE, f.mag_cut E (j + 1) hj (fun h => Nat.le_succ_of_le (hE h))]
  have hu : (0 : ℝ) < 2 ^ (f.emin + E - f.fbits) := zpow_pos two_pos _
  push_cast
  linarith

theorem Fmt.mag_zero (f : Fmt) : f.mag 0 = 0 := by
  have h := f.mag_cut 0 0 (Nat.zero_le _) (fun h => absurd h (Nat.lt_irrefl 0))
  simpa using h

/-- The least normal magnitude. -/
theorem Fmt.mag_two_pow_fbits (f : Fmt) : f.mag (2 ^ f.fbits) = 2 ^ f.emin := by
  have h := f.mag_cut 0 (2 ^ f.fbits) (by omega) (fun _ => Nat.le_refl _)
  rw [Nat.zero_mul, Nat.zero_add] at h
  rw [h]
  push_cast
  rw [← zpow_natCast, ← zpow_add₀ two_ne_zero]
  congr 1
  ring

/-- The largest finite magnitude (R105). -/
theorem Fmt.mag_maxMag (f : Fmt) : f.mag f.maxMag =
    if f = .e4m3 then 448 else (2 - 2 ^ (-(f.fbits : ℤ))) * 2 ^ (2 ^ f.ebits - 2 - f.bias : ℤ) := by
  cases f <;> simp only [reduceCtorEq, if_true, if_false] <;> norm_num [Fmt.mag, Fmt.maxMag, Fmt.fbits, Fmt.bias, Fmt.ebits]

/-! ### The part that a rounding discards (R114) -/

/-- `d` is the part that a rounding discards in units of the last place: `rest` and a part τ of one over `one`, where τ is 0, or
strictly between 0 and 1 when `st` is set; then `one` is large enough for τ to lie below every bit that a rounding looks at. -/
structure Discards (rest one : Nat) (st : Bool) (d : ℝ) : Prop where
  part : ∃ τ : ℝ, 0 ≤ τ ∧ τ < 1 ∧ (τ = 0 ↔ st = false) ∧ d = (rest + τ) / one
  less : rest < one
  wide : st = true → ∃ g, one = 65536 * (2 * g)

section
variable {rest one : Nat} {st : Bool} {d : ℝ} (h : Discards rest one st d)
include h

theorem Discards.nonneg : 0 ≤ d := by
  obtain ⟨τ, h0, -, -, rfl⟩ := h.part
  positivity

theorem Discards.lt_one : d < 1 := by
  obtain ⟨τ, -, h1, -, rfl⟩ := h.part
  have hlt : (rest : ℝ) + 1 ≤ one := by exact_mod_cast h.less
  rw [div_lt_one (by linarith [Nat.cast_nonneg (α := ℝ) rest])]
  linarith

theorem Discards.eq_zero_iff : d = 0 ↔ rest = 0 ∧ st = false := by
  obtain ⟨τ, h0, -, hst, rfl⟩ := h.part
  have hone : (one : ℝ) ≠ 0 := by exact_mod_cast Nat.ne_of_gt (Nat.lt_of_le_of_lt (Nat.zero_le _) h.less)
  have hrest : (0 : ℝ) ≤ rest := Nat.cast_nonneg rest
  rw [div_eq_zero_iff, or_iff_left hone, ← hst, ← Nat.cast_eq_zero (R := ℝ)]
  constructor
  · intro hsum
    constructor <;> linarith
  · rintro ⟨hr, ht⟩
    rw [hr, ht, add_zero]

/-- Where the discarded part stands to one half. -/
theorem Discards.half_iff : (1 / 2 < d ↔ one < 2 * rest ∨ (one = 2 * rest ∧ st = true)) ∧
    (d = 1 / 2 ↔ one = 2 * rest ∧ st = false) := by
  obtain ⟨τ, h0, h1, hst, rfl⟩ := h.part
  have hone : (0 : ℝ) < one := by exact_mod_cast Nat.lt_of_le_of_lt (Nat.zero_le _) h.less
  rw [div_lt_div_iff₀ two_pos hone, div_eq_div_iff hone.ne' two_ne_zero]
  cases st with
  | false =>
    obtain rfl : τ = 0 := hst.2 rfl
    simp only [add_zero, one_mul, reduceCtorEq, and_false, or_false, and_true]
    constructor
    · rw [mul_comm]; exact_mod_cast Iff.rfl
    · rw [mul_comm, eq_comm]; exact_mod_cast Iff.rfl
  | true =>
    have hpos : 0 < τ := lt_of_le_of_ne h0 (fun hz => absurd (hst.1 hz.symm) (by decide))
    obtain ⟨g, rfl⟩ := h.wide rfl
    simp only [and_true, reduceCtorEq, and_false, iff_false]
    rcases Nat.lt_or_ge rest (65536 * g) with hlt | hge
    · have hlow : (rest : ℝ) + 1 ≤ 65536 * g := by exact_mod_cast hlt
      have hnot : ¬ (65536 * (2 * g) < 2 * rest ∨ 65536 * (2 * g) = 2 * rest) := by omega
      push_cast
      exact ⟨⟨fun hc => by linarith, fun hc => absurd hc hnot⟩, fun hc => by linarith⟩
    · have hhigh : (65536 : ℝ) * g ≤ rest := by exact_mod_cast hge
      have hyes : 65536 * (2 * g) < 2 * rest ∨ 65536 * (2 * g) = 2 * rest := by omega
      push_cast
      exact ⟨⟨fun _ => hyes, fun _ => by linarith⟩, fun hc => by linarith⟩

/-- The discarded part's first 16 bits. -/
theorem Discards.floor : ⌊d * 65536⌋₊ = rest * 65536 / one := by
  obtain ⟨τ, h0, h1, hst, rfl⟩ := h.part
  have hone : 0 < one := Nat.lt_of_le_of_lt (Nat.zero_le _) h.less
  cases st with
  | false =>
    obtain rfl : τ = 0 := hst.2 rfl
    rw [add_zero, div_mul_eq_mul_div, ← Nat.floor_div_eq_div (K := ℝ)]
    push_cast
    rfl
  | true =>
    obtain ⟨g, rfl⟩ := h.wide rfl
    have hg : ((rest : ℝ) + τ) / (65536 * (2 * g) : ℕ) * 65536 = (rest + τ) / (2 * g : ℕ) := by
      push_cast
      rw [div_mul_eq_mul_div, mul_comm _ (65536 : ℝ), mul_div_mul_left _ _ (by norm_num)]
    have hfloor : ⌊(rest : ℝ) + τ⌋₊ = rest := by
      rw [Nat.floor_eq_iff (by positivity)]
      exact ⟨by linarith, by linarith⟩
    rw [hg, Nat.floor_div_natCast, hfloor, Nat.mul_comm rest, Nat.mul_div_mul_left _ _ (by decide)]

/-- The half that RoundTo compares the discarded part with. -/
def cutHalf (sh : Int) (rest one : Nat) (st : Bool) : Ordering :=
  if rest = 0 then (if sh ≤ 0 ∧ st then .lt else if st ∧ one ≤ 1 then .gt else .lt)
  else if 2 * rest < one then .lt else if 2 * rest = one ∧ !st then .eq else .gt

/-- That comparison is the one of the discarded part with one half. -/
theorem Discards.cutHalf_iff {sh : Int} (hs : st = true → 0 < sh) : (cutHalf sh rest one st = .gt ↔ 1 / 2 < d) ∧
    (cutHalf sh rest one st = .eq ↔ d = 1 / 2) := by
  obtain ⟨hgt, heq⟩ := h.half_iff
  have hless := h.less
  rw [hgt, heq, cutHalf]
  cases st with
  | false =>
    split_ifs <;> simp_all <;> omega
  | true =>
    have hsh := hs rfl
    obtain ⟨g, hg⟩ := h.wide rfl
    split_ifs <;> simp_all <;> omega

/-- RoundTo rounds a magnitude up exactly where R114 says so. -/
theorem Discards.roundsUp_iff {sh : Int} (hs : st = true → 0 < sh) (m : RMode) (n : Bool) (k : Nat) :
    roundsUp m n k (cutHalf sh rest one st) (decide (rest = 0 ∧ (!st) = true)) (rest * 65536 / one) = true ↔ upward m n k d := by
  obtain ⟨hgt, heq⟩ := h.cutHalf_iff hs
  have hpos : 0 < d ↔ d ≠ 0 := h.nonneg.lt_iff_ne'
  have hexact : decide (rest = 0 ∧ (!st) = true) = decide (d = 0) := by simp [h.eq_zero_iff]
  rw [hexact]
  cases m with
  | rne => simp [roundsUp, upward, hgt, heq]
  | sat => simp [roundsUp, upward, hgt, heq]
  | rtz => simp [roundsUp, upward]
  | rup => simp [roundsUp, upward, hpos]
  | rdn => simp [roundsUp, upward, hpos]
  | sr rb => simp [roundsUp, upward, h.floor]

end

/-! ### RoundTo by its parts (R114) -/

/-- The exponent of the unit of the last place is that of the value, or the format's least. -/
def cutExp (f : Fmt) (q : Nat) (e : Int) : Int := max ((Nat.log2 q : Int) + e) f.emin

/-- The bits that a rounding discards. -/
def cutShift (f : Fmt) (q : Nat) (e : Int) : Int := cutExp f q e - f.fbits - e

/-- The magnitude in units of the last place, rounded down. -/
def cutKept (f : Fmt) (q : Nat) (e : Int) : Nat :=
  if cutShift f q e ≤ 0 then q * 2 ^ (-cutShift f q e).toNat else q / 2 ^ (cutShift f q e).toNat

/-- The bits below it. -/
def cutRest (f : Fmt) (q : Nat) (e : Int) : Nat := if cutShift f q e ≤ 0 then 0 else q % 2 ^ (cutShift f q e).toNat

/-- Whether they are all that is discarded, and zero. -/
def cutExact (f : Fmt) (q : Nat) (e : Int) (st : Bool) : Bool := cutRest f q e = 0 ∧ (!st) = true

/-- Whether the magnitude rounds up. -/
def cutUp (f : Fmt) (m : RMode) (n : Bool) (q : Nat) (e : Int) (st : Bool) : Bool :=
  roundsUp m n (cutKept f q e) (cutHalf (cutShift f q e) (cutRest f q e) (2 ^ (cutShift f q e).toNat) st)
    (cutExact f q e st) (cutRest f q e * 65536 / 2 ^ (cutShift f q e).toNat)

/-- The pattern below its sign, which may lie beyond the largest finite one. -/
def cutMag (f : Fmt) (m : RMode) (n : Bool) (q : Nat) (e : Int) (st : Bool) : Nat :=
  (cutExp f q e - f.emin).toNat * 2 ^ f.fbits + cutKept f q e + if cutUp f m n q e st then 1 else 0

theorem roundTo_fin {f : Fmt} {m : RMode} {n : Bool} {q : Nat} {e : Int} {st : Bool} (h : ¬ (q = 0 ∧ (!st) = true)) :
    roundTo f (.fin n q e st) m = if f.maxMag < cutMag f m n q e st then overflow f n true m
      else
        let nx := !cutExact f q e st
        ⟨f.signed n (cutMag f m n q e st), (if nx then flNX else 0) ||| (if nx && ((Nat.log2 q : Int) + e < f.emin) then flUF else 0),
          cutMag f m n q e st < 2 ^ f.fbits && cutMag f m n q e st != 0⟩ := by
  rw [roundTo, if_neg h]
  rfl

section
variable {q : Nat} {e : Int} {st : Bool} {τ : ℝ} (hq : q ≠ 0) (hwide : st = true → 2 ^ 40 ≤ q) (h0 : 0 ≤ τ) (h1 : τ < 1)

include hq in
theorem two_pow_log2_le : (2 : ℝ) ^ (Nat.log2 q) ≤ q := by exact_mod_cast Nat.log2_self_le hq

include h1 in
theorem lt_two_pow_log2 : (q : ℝ) + τ < 2 ^ (Nat.log2 q + 1) := by
  have h : (q : ℝ) + 1 ≤ 2 ^ (Nat.log2 q + 1) := by exact_mod_cast Nat.lt_log2_self (n := q)
  linarith

include hq h0 h1 in
/-- The exponent of an exact value is that of its leading bit. -/
theorem log_exact : Int.log 2 (((q : ℝ) + τ) * 2 ^ e) = Nat.log2 q + e := by
  have hu : (0 : ℝ) < 2 ^ e := zpow_pos two_pos e
  have hlo := two_pow_log2_le hq
  have hhi := lt_two_pow_log2 (q := q) h1
  have hpos : 0 < ((q : ℝ) + τ) * 2 ^ e := mul_pos (lt_of_lt_of_le (by positivity) (le_add_of_le_of_nonneg hlo h0)) hu
  have hsum : ∀ k : ℕ, (2 : ℝ) ^ ((k : ℤ) + e) = 2 ^ k * 2 ^ e := fun k => by rw [zpow_add₀ two_ne_zero, zpow_natCast]
  refine le_antisymm (Int.lt_add_one_iff.1 ?_) ?_
  · have hnext := hsum (Nat.log2 q + 1)
    push_cast at hnext
    rw [← Int.lt_zpow_iff_log_lt one_lt_two hpos, add_right_comm, Nat.cast_ofNat, hnext]
    exact (mul_lt_mul_iff_left₀ hu).2 hhi
  · rw [← Int.zpow_le_iff_le_log one_lt_two hpos, Nat.cast_ofNat, hsum]
    exact (mul_le_mul_iff_left₀ hu).2 (le_add_of_le_of_nonneg hlo h0)

include hwide in
/-- Where something is left over, at least 17 bits are discarded. -/
theorem cutShift_wide (f : Fmt) (h : st = true) : 17 ≤ cutShift f q e := by
  have hlog : 40 ≤ Nat.log2 q := (Nat.le_log2 (by have := hwide h; omega)).2 (hwide h)
  have hf : f.fbits ≤ 23 := by cases f <;> decide
  have hex : (Nat.log2 q : Int) + e ≤ cutExp f q e := le_max_left ..
  rw [cutShift]
  omega

include hwide h0 h1 in
/-- What a rounding keeps and what it discards. -/
theorem cut_discards (f : Fmt) (hst : τ = 0 ↔ st = false) : Discards (cutRest f q e) (2 ^ (cutShift f q e).toNat) st
    (((q : ℝ) + τ) * 2 ^ e / 2 ^ (cutExp f q e - f.fbits) - cutKept f q e) := by
  have hunit : ((q : ℝ) + τ) * 2 ^ e / 2 ^ (cutExp f q e - f.fbits) = (q + τ) / 2 ^ cutShift f q e := by
    rw [cutShift, zpow_sub₀ two_ne_zero _ e, div_div_eq_mul_div]
  have hmod : cutRest f q e < 2 ^ (cutShift f q e).toNat := by
    rw [cutRest]
    split
    · exact Nat.two_pow_pos _
    · exact Nat.mod_lt _ (Nat.two_pow_pos _)
  refine ⟨⟨τ, h0, h1, hst, ?_⟩, hmod, fun h => ?_⟩
  · rw [hunit, cutRest, cutKept]
    split
    next hs =>
      have hst' : st = false := by
        cases hb : st with
        | false => rfl
        | true => exact absurd (cutShift_wide hwide f hb (e := e)) (by omega)
      obtain ⟨k, hk⟩ : ∃ k : ℕ, cutShift f q e = -k := ⟨(-cutShift f q e).toNat, by omega⟩
      rw [hst.2 hst', hk]
      simp
    next hs =>
      obtain ⟨k, hk⟩ : ∃ k : ℕ, cutShift f q e = k := ⟨(cutShift f q e).toNat, by omega⟩
      have hdiv : (2 : ℝ) ^ k * (q / 2 ^ k : ℕ) + (q % 2 ^ k : ℕ) = q := by exact_mod_cast Nat.div_add_mod q (2 ^ k)
      rw [hk, Int.toNat_natCast, zpow_natCast]
      push_cast
      field_simp
      linarith
  · obtain ⟨k, hk⟩ : ∃ k : ℕ, cutShift f q e = (17 + k : ℕ) :=
      ⟨(cutShift f q e).toNat - 17, by have := cutShift_wide hwide f h (e := e); omega⟩
    exact ⟨2 ^ k, by rw [hk, Int.toNat_natCast, pow_add]; ring⟩

end

/-- The magnitude in units of the last place lies below twice the least normal one, and above it where the exponent is not the
format's least. -/
theorem floor_unit_bounds {f : Fmt} {a : ℝ} {E : ℕ} (ha : 0 < a) (he : max (Int.log 2 a) f.emin = f.emin + E) :
    ⌊a / 2 ^ (f.emin + E - f.fbits)⌋₊ < 2 * 2 ^ f.fbits ∧ (0 < E → 2 ^ f.fbits ≤ ⌊a / 2 ^ (f.emin + E - f.fbits)⌋₊) := by
  have hu : (0 : ℝ) < 2 ^ (f.emin + E - f.fbits) := zpow_pos two_pos _
  have hstep : ∀ k : ℕ, (2 : ℝ) ^ k * 2 ^ (f.emin + E - f.fbits) = 2 ^ (f.emin + E - f.fbits + k) := fun k => by
    rw [zpow_add₀ two_ne_zero, zpow_natCast, mul_comm]
  constructor
  · rw [Nat.floor_lt (div_nonneg ha.le hu.le), div_lt_iff₀ hu]
    have hlt := Int.lt_zpow_succ_log_self (b := 2) one_lt_two a
    rw [Nat.cast_ofNat] at hlt
    refine lt_of_lt_of_le hlt ?_
    push_cast
    rw [← pow_succ', hstep]
    refine zpow_le_zpow_right₀ one_le_two ?_
    have := le_max_left (Int.log 2 a) f.emin
    push_cast
    omega
  · intro hE
    refine Nat.le_floor ?_
    rw [le_div_iff₀ hu]
    push_cast
    rw [hstep]
    have hle := Int.zpow_log_le_self (b := 2) one_lt_two ha
    rw [Nat.cast_ofNat] at hle
    refine le_trans (zpow_le_zpow_right₀ one_le_two ?_) hle
    omega

/-- An exact value: its magnitude is `q` and a part τ of one, in units of 2^e. -/
theorem exact_part {q : Nat} {e : Int} {st : Bool} {a : ℝ} (h0 : st = false → q ≠ 0 ∧ a = q * 2 ^ e)
    (h1 : st = true → 2 ^ 40 ≤ q ∧ (q : ℝ) * 2 ^ e < a ∧ a < ((q : ℝ) + 1) * 2 ^ e) :
    q ≠ 0 ∧ ∃ τ : ℝ, 0 ≤ τ ∧ τ < 1 ∧ (τ = 0 ↔ st = false) ∧ a = (q + τ) * 2 ^ e := by
  have hu : (0 : ℝ) < 2 ^ e := zpow_pos two_pos e
  cases st with
  | false =>
    obtain ⟨hq, rfl⟩ := h0 rfl
    exact ⟨hq, 0, le_refl 0, one_pos, by simp, by rw [add_zero]⟩
  | true =>
    obtain ⟨hq, hlo, hhi⟩ := h1 rfl
    rw [← lt_div_iff₀ hu] at hlo
    rw [← div_lt_iff₀ hu] at hhi
    refine ⟨by omega, a / 2 ^ e - q, by linarith, by linarith, ?_, by rw [add_sub_cancel, div_mul_cancel₀ _ hu.ne']⟩
    simp only [Bool.true_eq_false, iff_false]
    exact (sub_pos.2 hlo).ne'

/-- Nothing discarded is never rounded up. -/
theorem not_upward_zero (m : RMode) (n : Bool) (k : Nat) : ¬ upward m n k 0 := by
  cases m <;> norm_num [upward]

/-- A number rounded to a whole one is unchanged exactly where nothing is discarded. -/
theorem rounded_eq_iff {r : ℝ} {k i : ℕ} {m : RMode} {n : Bool} (hlt : r - k < 1) (hi : i ≤ 1)
    (hup : i = 1 ↔ upward m n k (r - k)) : ((k + i : ℕ) : ℝ) = r ↔ r - k = 0 := by
  push_cast
  constructor
  · intro h
    interval_cases i
    · push_cast at h
      linarith
    · push_cast at h
      linarith
  · intro h
    rw [h] at hup
    obtain rfl : i = 0 := by
      by_contra hne
      exact not_upward_zero m n k (hup.1 (by omega))
    push_cast
    linarith

/-- One where the magnitude rounds up. -/
def cutStep (f : Fmt) (m : RMode) (n : Bool) (q : Nat) (e : Int) (st : Bool) : Nat := if cutUp f m n q e st then 1 else 0

/-- What RoundTo makes of an exact value `a` above 0: the magnitude in units of the last place is rounded as R114 says, and the
pattern below the sign stands for it. -/
theorem cutMag_spec (f : Fmt) (m : RMode) (n : Bool) {q : Nat} {e : Int} {st : Bool} {a τ : ℝ} {E : ℕ} (hq : q ≠ 0)
    (hwide : st = true → 2 ^ 40 ≤ q) (h0 : 0 ≤ τ) (h1 : τ < 1) (hst : τ = 0 ↔ st = false) (hval : a = (q + τ) * 2 ^ e)
    (hE : cutExp f q e = f.emin + E) :
    let u : ℝ := 2 ^ (f.emin + E - f.fbits)
    let k := cutKept f q e
    let i := cutStep f m n q e st
    ⌊a / u⌋₊ = k ∧ (i = 1 ↔ upward m n k (a / u - k)) ∧ ((k + i : ℕ) : ℝ) * u = f.mag (cutMag f m n q e st) ∧
      (f.mag (cutMag f m n q e st) = a ↔ cutExact f q e st = true) := by
  intro u k i
  have hu : 0 < u := zpow_pos two_pos _
  have hpos : 0 < a := by
    rw [hval]
    exact mul_pos (lt_of_lt_of_le (Nat.cast_pos.2 (Nat.pos_of_ne_zero hq)) (le_add_of_nonneg_right h0)) (zpow_pos two_pos e)
  have hcut : Discards (cutRest f q e) (2 ^ (cutShift f q e).toNat) st (a / u - k) := by
    have h := cut_discards hwide h0 h1 f hst (e := e)
    rwa [← hval, hE] at h
  have hfloor : ⌊a / u⌋₊ = k := by
    rw [Nat.floor_eq_iff (by positivity)]
    exact ⟨by linarith [hcut.nonneg], by linarith [hcut.lt_one]⟩
  have hi : i ≤ 1 := by
    simp only [i, cutStep]
    split <;> omega
  have hup : i = 1 ↔ upward m n k (a / u - k) := by
    rw [← hcut.roundsUp_iff (sh := cutShift f q e) (fun h => by have := cutShift_wide hwide f h (e := e); omega) m n k]
    show (if cutUp f m n q e st then 1 else 0) = 1 ↔ cutUp f m n q e st = true
    split <;> simp_all
  have hy : ((k + i : ℕ) : ℝ) * u = f.mag (cutMag f m n q e st) := by
    have hexp : max (Int.log 2 a) f.emin = f.emin + E := by rw [hval, log_exact hq h0 h1]; exact hE
    obtain ⟨hlt, hge⟩ := floor_unit_bounds hpos hexp
    rw [show ⌊a / 2 ^ (f.emin + E - f.fbits)⌋₊ = k from hfloor] at hlt hge
    have hmag : cutMag f m n q e st = E * 2 ^ f.fbits + (k + i) := by
      rw [cutMag, hE, add_sub_cancel_left, Int.toNat_natCast, Nat.add_assoc]
      rfl
    rw [hmag, f.mag_cut E _ (by omega) (fun h => Nat.le_add_right_of_le (hge h))]
  refine ⟨hfloor, hup, hy, ?_⟩
  rw [← hy, ← eq_div_iff hu.ne', rounded_eq_iff hcut.lt_one hi hup, hcut.eq_zero_iff, cutExact, decide_eq_true_eq, Bool.not_eq_true']

/-- RoundTo of an exact value is R114's, with the flags of R115 and R116. -/
theorem roundTo_roundsAs (f : Fmt) (m : RMode) (n st : Bool) (q : Nat) (e : Int) (a : ℝ)
    (h0 : st = false → q ≠ 0 ∧ a = q * 2 ^ e)
    (h1 : st = true → 2 ^ 40 ≤ q ∧ (q : ℝ) * 2 ^ e < a ∧ a < ((q : ℝ) + 1) * 2 ^ e) :
    RoundsAs f m n a (roundTo f (.fin n q e st) m) := by
  obtain ⟨hq, τ, hτ0, hτ1, hst, hval⟩ := exact_part h0 h1
  obtain ⟨E, hE⟩ : ∃ E : ℕ, cutExp f q e = f.emin + E :=
    ⟨(cutExp f q e - f.emin).toNat, by have : f.emin ≤ cutExp f q e := le_max_right ..; omega⟩
  obtain ⟨hfloor, hup, hy, hexact⟩ := cutMag_spec f m n hq (fun h => (h1 h).1) hτ0 hτ1 hst hval hE
  have hlog : Int.log 2 a = Nat.log2 q + e := hval ▸ log_exact hq hτ0 hτ1
  have hexp : max (Int.log 2 a) f.emin = f.emin + E := by rw [hlog]; exact hE
  have hlow : (Nat.log2 q : Int) + e < f.emin ↔ a < 2 ^ f.emin := by
    have hpos : 0 < a := by
      rw [hval]
      exact mul_pos (lt_of_lt_of_le (Nat.cast_pos.2 (Nat.pos_of_ne_zero hq)) (le_add_of_nonneg_right hτ0)) (zpow_pos two_pos e)
    rw [← hlog, ← Int.lt_zpow_iff_log_lt one_lt_two hpos, Nat.cast_ofNat]
  simp only [RoundsAs, hexp, hfloor]
  refine ⟨cutStep f m n q e st, hup, by unfold cutStep; split <;> omega, ?_⟩
  rw [hy, ← f.mag_maxMag, f.mag_strictMono.lt_iff_lt, f.mag_strictMono.le_iff_le, roundTo_fin (fun h => hq h.1)]
  refine ⟨fun h => if_pos h, fun h => ?_⟩
  rw [if_neg (Nat.not_lt.2 h)]
  refine ⟨f.signed_lt n (Nat.lt_of_le_of_lt h f.maxMag_lt), f.value_signed n h, fun heq => ?_, fun hne hge => ?_, fun hne hlt => ?_, ?_⟩
  · simp [hexact.1 heq]
  · simp [Bool.eq_false_iff.2 (mt hexact.2 hne), hlow, not_lt.2 hge]
  · simp [Bool.eq_false_iff.2 (mt hexact.2 hne), hlow, hlt]
  · rw [← f.mag_zero, ← f.mag_two_pow_fbits, f.mag_strictMono.lt_iff_lt, f.mag_strictMono.lt_iff_lt]
    simp only [Bool.and_eq_true, decide_eq_true_eq, bne_iff_ne]
    omega

/-! ### RoundTo of zeros, NaN and infinities, and overflow (R114, R115) -/

theorem Fmt.signed_zero (f : Fmt) (n : Bool) : f.signed n 0 = if n then 2 ^ (f.width - 1) else 0 := by
  cases n
  · rfl
  · exact Nat.zero_add _

theorem Fmt.signed_eq_add (f : Fmt) (n : Bool) (m : Nat) : f.signed n m = m + if n then 2 ^ (f.width - 1) else 0 := by
  cases n <;> rfl

theorem Fmt.hasInf_iff (f : Fmt) : f.hasInf = true ↔ f ≠ .e4m3 := by cases f <;> decide

theorem roundTo_zero (f : Fmt) (m : RMode) (n : Bool) (e : Int) :
    roundTo f (.fin n 0 e false) m = ⟨if n then 2 ^ (f.width - 1) else 0, 0, false⟩ := by
  rw [← f.signed_zero]
  rfl

theorem roundTo_inf {f : Fmt} (h : f ≠ .e4m3) (m : RMode) (n : Bool) :
    roundTo f (.inf n) m = ⟨f.signed n (f.maxMag + 1), 0, false⟩ := if_pos (f.hasInf_iff.2 h)

/-- Overflow where the mode does not saturate (R115). -/
theorem overflow_of_ne_sat {m : RMode} (h : m ≠ .sat) (f : Fmt) (n finite : Bool) : overflow f n finite m =
    if overflowsToInf m n then
      if f.hasInf then ⟨f.signed n f.infMag, flOF ||| flNX, false⟩ else ⟨f.qnan, flNV ||| (if finite then flNX else 0), false⟩
    else ⟨f.signed n f.maxMag, flOF ||| flNX, false⟩ := by
  cases m with
  | sat => exact absurd rfl h
  | _ => rfl

/-- Overflow of a finite value (R115). -/
theorem overflow_finite (f : Fmt) (m : RMode) (n : Bool) :
    let big : Nat := f.maxMag + if n then 2 ^ (f.width - 1) else 0
    overflow f n true m = if m = .sat then ⟨big, 0x34, false⟩ else if !overflowsToInf m n then ⟨big, 0x14, false⟩
      else if f = .e4m3 then ⟨0x7F, 0x11, false⟩ else ⟨big + 1, 0x14, false⟩ := by
  intro big
  have hbig : f.signed n f.maxMag = big := f.signed_eq_add n f.maxMag
  have hinf : f.signed n f.infMag = big + 1 := (f.signed_eq_add n f.infMag).trans (Nat.add_right_comm ..)
  by_cases hs : m = .sat
  · rw [if_pos hs, hs, ← hbig]
    rfl
  rw [if_neg hs, overflow_of_ne_sat hs, hbig, hinf]
  cases overflowsToInf m n with
  | false => rfl
  | true =>
    by_cases hf : f = .e4m3
    · subst hf
      rfl
    · rw [if_neg hf, if_pos (f.hasInf_iff.2 hf)]
      rfl

/-- An infinity in the format that has none (R114, R115). -/
theorem roundTo_inf_e4m3 (m : RMode) (n : Bool) : roundTo .e4m3 (.inf n) m =
    if m = .sat then ⟨if n then 0xFE else 0x7E, 0x20, false⟩ else if overflowsToInf m n then ⟨0x7F, 1, false⟩
      else ⟨if n then 0xFE else 0x7E, 0x14, false⟩ := by
  have hround : roundTo .e4m3 (.inf n) m = overflow .e4m3 n false m := rfl
  have hbig : Fmt.e4m3.signed n Fmt.e4m3.maxMag = if n then 0xFE else 0x7E := rfl
  rw [hround]
  by_cases hs : m = .sat
  · rw [if_pos hs, hs, ← hbig]
    rfl
  · rw [if_neg hs, overflow_of_ne_sat hs, hbig]
    rfl

/-! ### What a rounded pattern fits (R105) -/

theorem Fmt.qnan_lt (f : Fmt) : f.qnan < 2 ^ f.width := by cases f <;> decide

theorem Fmt.infMag_lt {f : Fmt} (h : f.hasInf = true) : f.infMag < 2 ^ (f.width - 1) := by
  cases f with
  | e4m3 => cases h
  | _ => decide

theorem overflow_pat_lt (f : Fmt) (n finite : Bool) (m : RMode) : (overflow f n finite m).pat < 2 ^ f.width := by
  have hbig := f.signed_lt n f.maxMag_lt
  by_cases hs : m = .sat
  · rw [hs]
    exact hbig
  rw [overflow_of_ne_sat hs]
  split
  next =>
    split
    next h => exact f.signed_lt n (Fmt.infMag_lt h)
    next => exact f.qnan_lt
  next => exact hbig

theorem roundTo_pat_lt (f : Fmt) (x : Rl) (m : RMode) : (roundTo f x m).pat < 2 ^ f.width := by
  cases x with
  | nan => exact f.qnan_lt
  | inf n =>
    rw [roundTo]
    split
    next h => exact f.signed_lt n (Fmt.infMag_lt h)
    next => exact overflow_pat_lt ..
  | fin n q e st =>
    by_cases hz : q = 0 ∧ (!st) = true
    · rw [roundTo, if_pos hz]
      exact f.signed_lt n (Nat.two_pow_pos _)
    · rw [roundTo_fin hz]
      split
      next => exact overflow_pat_lt ..
      next h => exact f.signed_lt n (Nat.lt_of_le_of_lt (Nat.not_lt.1 h) f.maxMag_lt)

/-! ### The assist of a rounded lane (R106, R120) -/

/-- A rounded lane: NV where it is NaN and no operand is, and flushed where it is subnormal and FZW is set. -/
theorem roundLane_eq (f : Fmt) (fpc : Word) (x : Rl) (ops : List Rl) :
    let r := roundTo f x (modeOf fpc)
    let fl := if x.isNaN && ops.all (fun o => !o.isNaN) then r.fl ||| flNV else r.fl
    roundLane f fpc x ops = if r.sub && fpc.getLsbD 2
      then ⟨if r.pat.testBit (f.width - 1) then 2 ^ (f.width - 1) else 0, fl ||| 0x18, false⟩ else ⟨r.pat, fl, r.sub⟩ := by
  intro r fl
  have hfl : r.fl ||| invalid x ops = fl := by
    have hall : ops.all (fun o => !o.isNaN) = !ops.any Rl.isNaN := List.not_any_eq_all_not.symm
    simp only [invalid, fl, hall]
    split
    · rfl
    · exact BitVec.or_zero
  have hflush : r.fl ||| invalid x ops ||| flUF ||| flNX = fl ||| 0x18 := by
    rw [hfl, BitVec.or_assoc]
    rfl
  have hcond : (r.sub && fpc.getLsbD 2) = true ↔ r.sub = true ∧ fzwOf fpc = true := by simp [fzwOf]
  simp only [roundLane, assistLane, hcond]
  split
  · exact congr (congrArg₂ Rounded.mk (f.signed_zero _) hflush) rfl
  · exact congrArg (fun l => Rounded.mk r.pat l r.sub) hfl

theorem assistLane_pat_lt {f : Fmt} {x : Rounded} (h : x.pat < 2 ^ f.width) (fpc : Word) :
    (assistLane f fpc x).pat < 2 ^ f.width := by
  unfold assistLane
  split
  · exact f.signed_lt _ (Nat.two_pow_pos _)
  · exact h

theorem roundLane_pat_lt (f : Fmt) (fpc : Word) (x : Rl) (ops : List Rl) : (roundLane f fpc x ops).pat < 2 ^ f.width := by
  refine assistLane_pat_lt ?_ fpc
  exact roundTo_pat_lt ..

/-! ### Exact sums, products and quotients (R106) -/

/-- The real of a numerator over 2^e0, where e0 is not above the exponent. -/
theorem scaled_real (n : Bool) (q : Nat) {e e0 : Int} (h : e0 ≤ e) : (scaled n q e e0 : ℝ) * 2 ^ e0 = realOf n q e := by
  obtain ⟨k, hk⟩ : ∃ k : ℕ, e = e0 + k := ⟨(e - e0).toNat, by omega⟩
  subst hk
  rw [scaled, add_sub_cancel_left, Int.toNat_natCast, realOf, zpow_add₀ two_ne_zero, zpow_natCast]
  cases n with
  | false =>
    simp only [Bool.false_eq_true, if_false]
    push_cast
    ring
  | true =>
    simp only [if_true]
    push_cast
    ring

/-- An integer numerator over 2^e as a sign and a magnitude. -/
theorem realOf_int (x : Int) (e : Int) : realOf (x < 0) x.natAbs e = x * 2 ^ e := by
  rw [realOf, Nat.cast_natAbs]
  rcases lt_or_ge x 0 with h | h
  · simp [h, abs_of_neg h]
  · simp [not_lt.2 h, abs_of_nonneg h]

theorem add_real (rdn n m : Bool) (q r : Nat) (e d : Int) :
    ∃ k p g, (Rl.fin n q e false).add rdn (.fin m r d false) = .fin k p g false ∧
      realOf k p g = realOf n q e + realOf m r d ∧ (p = 0 → k = if q = 0 ∧ r = 0 ∧ n = m then n else rdn) := by
  have hsum : ((scaled n q e (min e d) + scaled m r d (min e d) : ℤ) : ℝ) * 2 ^ min e d = realOf n q e + realOf m r d := by
    push_cast
    rw [add_mul, scaled_real n q (min_le_left e d), scaled_real m r (min_le_right e d)]
  simp only [Rl.add]
  split
  next h0 =>
    refine ⟨_, _, _, rfl, ?_, fun _ => rfl⟩
    rw [← hsum, h0]
    simp [realOf]
  next h0 => exact ⟨_, _, _, rfl, (realOf_int ..).trans hsum, fun hz => absurd (Int.natAbs_eq_zero.1 hz) h0⟩

theorem lt_real (n m : Bool) (q r : Nat) (e d : Int) :
    (Rl.fin n q e false).lt (.fin m r d false) = true ↔ realOf n q e < realOf m r d := by
  rw [← scaled_real n q (min_le_left e d), ← scaled_real m r (min_le_right e d), mul_lt_mul_iff_left₀ (zpow_pos two_pos _),
    Int.cast_lt]
  exact decide_eq_true_iff

/-- The quotient has more than 40 bits. -/
theorem quotient_wide {q r : Nat} (hq : q ≠ 0) (hr : r ≠ 0) : 2 ^ 40 ≤ q * 2 ^ (66 + Nat.log2 r) / r := by
  rw [Nat.le_div_iff_mul_le (Nat.pos_of_ne_zero hr)]
  calc 2 ^ 40 * r ≤ 2 ^ 40 * 2 ^ (Nat.log2 r + 1) := Nat.mul_le_mul_left _ (Nat.le_of_lt Nat.lt_log2_self)
    _ = 2 ^ (40 + (Nat.log2 r + 1)) := (pow_add ..).symm
    _ ≤ 2 ^ (66 + Nat.log2 r) := Nat.pow_le_pow_right two_pos (by omega)
    _ ≤ q * 2 ^ (66 + Nat.log2 r) := Nat.le_mul_of_pos_left _ (Nat.pos_of_ne_zero hq)

/-- The quotient keeps enough bits for RoundTo (R106). -/
theorem div_roundsAs (n m : Bool) {q r : Nat} (e d : Int) (hq : q ≠ 0) (hr : r ≠ 0) (f : Fmt) (mode : RMode) :
    RoundsAs f mode (n != m) ((q : ℝ) * 2 ^ e / (r * 2 ^ d)) (roundTo f ((Rl.fin n q e false).div (.fin m r d false)) mode) := by
  have hdiv : (Rl.fin n q e false).div (.fin m r d false) = .fin (n != m) (q * 2 ^ (66 + Nat.log2 r) / r)
      (e - d - (66 + Nat.log2 r : ℕ)) (q * 2 ^ (66 + Nat.log2 r) % r != 0) := by
    simp only [Rl.div, hr, hq, if_false]
  have hwide := quotient_wide hq hr
  rw [hdiv]
  generalize 66 + Nat.log2 r = k at hwide ⊢
  have hrpos : (0 : ℝ) < r := Nat.cast_pos.2 (Nat.pos_of_ne_zero hr)
  have hu : (0 : ℝ) < 2 ^ (e - d - (k : ℤ)) := zpow_pos two_pos _
  have hval : (q : ℝ) * 2 ^ e / (r * 2 ^ d) = (q * 2 ^ k : ℕ) / r * 2 ^ (e - d - (k : ℤ)) := by
    rw [zpow_sub₀ two_ne_zero, zpow_sub₀ two_ne_zero, zpow_natCast]
    push_cast
    field_simp
  have hsplit : ((q * 2 ^ k : ℕ) : ℝ) = r * (q * 2 ^ k / r : ℕ) + (q * 2 ^ k % r : ℕ) := by
    exact_mod_cast (Nat.div_add_mod _ r).symm
  have hrem : ((q * 2 ^ k % r : ℕ) : ℝ) + 1 ≤ r := by exact_mod_cast Nat.mod_lt _ (Nat.pos_of_ne_zero hr)
  rw [hval]
  generalize q * 2 ^ k / r = x at hwide hsplit ⊢
  generalize q * 2 ^ k % r = y at hsplit hrem ⊢
  generalize q * 2 ^ k = z at hsplit ⊢
  refine roundTo_roundsAs _ _ _ _ _ _ _ (fun h => ?_) (fun h => ⟨hwide, ?_, ?_⟩)
  · obtain rfl : y = 0 := by simpa using h
    refine ⟨by omega, ?_⟩
    rw [hsplit, Nat.cast_zero, add_zero, mul_div_cancel_left₀ _ hrpos.ne']
  · have hy : (0 : ℝ) < y := Nat.cast_pos.2 (Nat.pos_of_ne_zero (by simpa using h))
    refine (mul_lt_mul_iff_left₀ hu).2 ?_
    rw [lt_div_iff₀ hrpos]
    linarith
  · refine (mul_lt_mul_iff_left₀ hu).2 ?_
    rw [div_lt_iff₀ hrpos]
    linarith

end Sys2Proof.Machine
end

section
/-! Lanes (R129): the lanes of packed lists, and the results of lane-wise operations lane by lane. -/

namespace Sys2Proof.Machine

/-! ### Packed lanes -/

theorem laneOf_lt (w x k : Nat) : laneOf w x k < 2 ^ w := Nat.mod_lt _ (Nat.two_pow_pos w)

theorem packLanes_lt (w : Nat) (l : List Nat) : packLanes w l < 2 ^ (w * l.length) := by
  induction l with
  | nil => exact Nat.one_pos
  | cons a l ih =>
    rw [packLanes, List.length_cons, Nat.mul_succ, Nat.add_comm (w * _), pow_add]
    have ha := Nat.mod_lt a (Nat.two_pow_pos w)
    have hl := Nat.mul_le_mul_left (2 ^ w) ih
    rw [Nat.mul_succ] at hl
    omega

theorem laneOf_packLanes (w : Nat) {l : List Nat} {k : Nat} (h : k < l.length) : laneOf w (packLanes w l) k = l[k] % 2 ^ w := by
  induction l generalizing k with
  | nil => cases h
  | cons a l ih =>
    have ha := Nat.mod_lt a (Nat.two_pow_pos w)
    cases k with
    | zero =>
      rw [laneOf, packLanes, Nat.mul_zero, pow_zero, Nat.div_one, Nat.add_mul_mod_self_left, Nat.mod_mod]
      rfl
    | succ k =>
      have hdiv : packLanes w (a :: l) / 2 ^ w = packLanes w l := by
        rw [packLanes, Nat.add_mul_div_left _ _ (Nat.two_pow_pos w), Nat.div_eq_of_lt ha, Nat.zero_add]
      rw [laneOf, Nat.mul_succ, Nat.add_comm, pow_add, ← Nat.div_div_eq_div_mul, hdiv]
      exact ih (Nat.lt_of_succ_lt_succ h)

/-- A vector laid out of one lane for each number. -/
theorem laneOf_vecOf (w : Nat) (f : Nat → Nat) {k : Nat} (h : k < 1024 / w) :
    laneOf w (vecOf w ((List.range (1024 / w)).map f)).toNat k = f k % 2 ^ w := by
  have hlt : packLanes w ((List.range (1024 / w)).map f) < 2 ^ 1024 := by
    refine Nat.lt_of_lt_of_le (packLanes_lt ..) (Nat.pow_le_pow_right Nat.two_pos ?_)
    rw [List.length_map, List.length_range]
    exact Nat.mul_div_le 1024 w
  rw [vecOf, BitVec.toNat_ofNat, Nat.mod_eq_of_lt hlt, laneOf_packLanes w (by simpa using h)]
  simp

/-- The bits of a mask. -/
theorem bitsOf_getLsbD (n : Nat) (f : Nat → Bool) {k : Nat} (h : k < 64) :
    (bitsOf ((List.range n).map f)).getLsbD k = (decide (k < n) && f k) := by
  have hbit : (bitsOf ((List.range n).map f)).getLsbD k = (packLanes 1 (((List.range n).map f).map Bool.toNat)).testBit k := by
    rw [bitsOf, BitVec.getLsbD_ofNat, decide_eq_true h, Bool.true_and]
  rw [hbit]
  by_cases hk : k < n
  · have hlane := laneOf_packLanes 1 (l := ((List.range n).map f).map Bool.toNat) (k := k) (by simpa using hk)
    rw [laneOf, Nat.one_mul, pow_one] at hlane
    rw [Nat.testBit_eq_decide_div_mod_eq, hlane, decide_eq_true hk]
    cases hf : f k <;> simp [hf]
  · rw [decide_eq_false hk, Bool.false_and]
    refine Nat.testBit_lt_two_pow (Nat.lt_of_lt_of_le (packLanes_lt ..) (Nat.pow_le_pow_right Nat.two_pos ?_))
    simpa using hk

/-! ### The lanes that an operation reads -/

/-- A lane of .o1. -/
def VIn.one (i : VIn) (w k : Nat) : Nat := laneOf w (i.o1.lanes w).toNat k
/-- A lane of the trigger value. -/
def VIn.trig (i : VIn) (w k : Nat) : Nat := laneOf w (i.b.lanes w).toNat k
/-- A lane of .o2. -/
def VIn.two (i : VIn) (w k : Nat) : Nat := laneOf w (i.o2.lanes w).toNat k

theorem VIn.zip3_eq (i : VIn) (w : Nat) :
    i.zip3 w = (List.range (1024 / w)).map (fun k => (i.one w k, i.trig w k, i.two w k)) := by
  simp only [VIn.zip3, lanesOf, List.zip_map']
  rfl

theorem VIn.bl_eq (i : VIn) (w : Nat) : i.bl w = (List.range (1024 / w)).map (i.trig w) := rfl

theorem zipIdx_map_range {α : Type} (f : Nat → α) (n : Nat) :
    ((List.range n).map f).zipIdx = (List.range n).map (fun k => (f k, k)) := by
  refine List.ext_getElem (by simp) (fun k h1 h2 => by simp)

/-! ### Results lane by lane -/

theorem VOut.holds.congr {o : VOut} {w : Nat} {f g : Nat → Nat} (h : o.holds w f) (hfg : ∀ k, k < 1024 / w → f k = g k) :
    o.holds w g := by
  obtain ⟨hfl, hsub, r, hr, hl⟩ := h
  exact ⟨hfl, hsub, r, hr, fun k hk => (hl k hk).trans (hfg k hk)⟩

/-- Plain lanes, cut to their width. -/
theorem ofPlain_holds_mod (w : Nat) (f : Nat → Nat) :
    (ofPlain w ((List.range (1024 / w)).map f)).holds w (fun k => f k % 2 ^ w) :=
  ⟨rfl, rfl, _, rfl, fun _ hk => laneOf_vecOf w f hk⟩

/-- Plain lanes, each of which fits its lane. -/
theorem ofPlain_holds {w : Nat} {f : Nat → Nat} (hf : ∀ k, k < 1024 / w → f k < 2 ^ w) :
    (ofPlain w ((List.range (1024 / w)).map f)).holds w f :=
  (ofPlain_holds_mod w f).congr (fun k hk => Nat.mod_eq_of_lt (hf k hk))

/-- Rounded lanes, each of which fits its lane. -/
theorem ofLanes_rounds {w : Nat} {f : Nat → Rounded} (hf : ∀ k, (f k).pat < 2 ^ w) :
    (ofLanes w ((List.range (1024 / w)).map f)).rounds w f := by
  refine ⟨⟨_, rfl, fun k hk => ?_⟩, ?_, ?_⟩
  · rw [List.map_map]
    exact (laneOf_vecOf w _ hk).trans (Nat.mod_eq_of_lt (hf k))
  · simp only [ofLanes, List.map_map, List.foldl_map, Function.comp_apply]
  · simp only [ofLanes, List.any_map]
    rfl

/-- Lanes that need no rounding. -/
theorem ofLanes_holds {w : Nat} {f : Nat → Nat} (hf : ∀ k, f k < 2 ^ w) :
    (ofLanes w ((List.range (1024 / w)).map (fun k => plainLane (f k)))).holds w f := by
  obtain ⟨hr, hfl, hsub⟩ := ofLanes_rounds (w := w) (f := fun k => plainLane (f k)) hf
  refine ⟨hfl.trans ?_, hsub.trans ?_, hr⟩
  · exact List.foldl_fixed' (fun _ => BitVec.or_zero) _
  · exact List.any_eq_false.2 (fun _ _ => Bool.false_ne_true)

/-! ### Integers modulo 2^w (R108) -/

theorem patOf_lt (w : Nat) (x : Int) : patOf w x < 2 ^ w := by
  have hpos : (0 : Int) < 2 ^ w := Int.pow_pos two_pos
  have hlt := Int.emod_lt_of_pos x hpos
  rw [patOf]
  zify
  rw [Int.toNat_of_nonneg (Int.emod_nonneg x hpos.ne')]
  exact hlt

theorem patOf_congr {w : Nat} {x y : Int} (h : x ≡ y [ZMOD 2 ^ w]) : patOf w x = patOf w y := congrArg Int.toNat h

theorem patOf_natCast {w x : Nat} (h : x < 2 ^ w) : patOf w x = x := by
  rw [patOf, Int.emod_eq_of_lt (Int.natCast_nonneg x) (by exact_mod_cast h), Int.toNat_natCast]

theorem patOf_natCast_mod (w x : Nat) : patOf w x = x % 2 ^ w := by
  rw [patOf]
  exact_mod_cast Int.toNat_natCast (x % 2 ^ w)

theorem signedOf_modEq (w x : Nat) : signedOf w x ≡ x [ZMOD 2 ^ w] := by
  rw [signedOf]
  split
  · exact Int.sub_emod_right ..
  · rfl

theorem LaneTy.toInt_modEq (t : LaneTy) (x : Nat) : t.toInt x ≡ x [ZMOD 2 ^ t.w] := by
  cases t with
  | int w => exact signedOf_modEq w x
  | _ => rfl

/-- A lane is the pattern of its integer. -/
theorem LaneTy.patOf_toInt (t : LaneTy) {x : Nat} (h : x < 2 ^ t.w) : patOf t.w (t.toInt x) = x :=
  (patOf_congr (t.toInt_modEq x)).trans (patOf_natCast h)

theorem LaneTy.toInt_inj (t : LaneTy) {x y : Nat} (hx : x < 2 ^ t.w) (hy : y < 2 ^ t.w) : t.toInt x = t.toInt y ↔ x = y :=
  ⟨fun h => by rw [← t.patOf_toInt hx, ← t.patOf_toInt hy, h], fun h => by rw [h]⟩

/-! ### The types of class V (R55) -/

/-- The I and N groups. -/
theorem laneTy_of_not_F {ty : VTy} (h : vtyF ty = false) : ∃ w, laneTy ty = .int w ∨ laneTy ty = .nat w := by
  cases ty with
  | f32 | bf16 | f16 => cases h
  | i32 | i16 => exact ⟨_, .inl rfl⟩
  | n32 | n16 => exact ⟨_, .inr rfl⟩

theorem isF_of_not_F {ty : VTy} (h : vtyF ty = false) : (laneTy ty).isF = false := by
  obtain ⟨w, ht | ht⟩ := laneTy_of_not_F h <;> rw [ht] <;> rfl

theorem laneTy_of_I {ty : VTy} (h : vtyI ty = true) : ∃ w, laneTy ty = .int w := by
  cases ty with
  | i32 | i16 => exact ⟨_, rfl⟩
  | f32 | bf16 | f16 | n32 | n16 => cases h

/-! ### Arithmetic (R131) -/

section
variable {ff : Bool → Rl → Rl → Rl → Rl} {fi : Int → Int → Int → Int} {used : Nat} {ty : VTy} (v : VIn)

theorem vArith_holds (h : vtyF ty = false) : (vArith ff fi used ty v).holds (laneTy ty).w (fun k => patOf (laneTy ty).w
    (fi ((laneTy ty).toInt (v.one (laneTy ty).w k)) ((laneTy ty).toInt (v.trig (laneTy ty).w k))
      ((laneTy ty).toInt (v.two (laneTy ty).w k)))) := by
  rw [vArith, VIn.zip3_eq, List.map_map]
  obtain ⟨w, ht | ht⟩ := laneTy_of_not_F h
  · simp only [ht]
    exact ofLanes_holds (fun k => patOf_lt ..)
  · simp only [ht]
    exact ofLanes_holds (fun k => patOf_lt ..)

theorem vArith_rounds {f : Fmt} (h : laneTy ty = .fl f) : (vArith ff fi used ty v).rounds (laneTy ty).w (fun k =>
    let x := f.value (v.one (laneTy ty).w k)
    let y := f.value (v.trig (laneTy ty).w k)
    let z := f.value (v.two (laneTy ty).w k)
    roundLane f v.fpc (ff (isRdn v.fpc) x y z) ([x, y, z].take used)) := by
  rw [vArith, VIn.zip3_eq, List.map_map]
  simp only [h]
  exact ofLanes_rounds (fun k => roundLane_pat_lt ..)

end

/-! ### Order keys (R130) -/

/-- A pattern is its sign and the bits below. -/
theorem Fmt.signed_self (f : Fmt) {p : Nat} (h : p < 2 ^ f.width) :
    f.signed (p.testBit (f.width - 1)) (p % 2 ^ (f.width - 1)) = p := by
  rw [f.two_pow_width] at h
  have hpos := Nat.two_pow_pos (f.width - 1)
  rw [Fmt.signed, Nat.testBit_eq_decide_div_mod_eq]
  rcases Nat.lt_or_ge p (2 ^ (f.width - 1)) with hlt | hge
  · rw [Nat.div_eq_of_lt hlt, Nat.mod_eq_of_lt hlt]
    rfl
  · have hdiv : p / 2 ^ (f.width - 1) = 1 := Nat.div_eq_of_lt_le (by omega) (by omega)
    have hmod := Nat.div_add_mod p (2 ^ (f.width - 1))
    rw [hdiv] at hmod ⊢
    rw [if_pos (by decide)]
    omega

/-- Different patterns have different keys. -/
theorem Fmt.key_inj (f : Fmt) {x y : Nat} (hx : x < 2 ^ f.width) (hy : y < 2 ^ f.width) (h : f.key x = f.key y) : x = y := by
  rw [← f.signed_self hx, ← f.signed_self hy]
  simp only [Fmt.key] at h
  split at h <;> split at h
  next hsx hsy => rw [hsx, hsy]; congr 1; omega
  next => omega
  next => omega
  next hsx hsy => rw [Bool.not_eq_true] at hsx hsy; rw [hsx, hsy]; congr 1; omega

theorem Fmt.isNaN_qnan (f : Fmt) : f.isNaN f.qnan = true := by cases f <;> decide

/-! ### The smaller and the larger of two lanes (R130, R131) -/

section
variable {x y : Nat}

/-- Choosing by a key that tells lanes apart. -/
theorem pick_key {key : Nat → Int} (hinj : key x = key y → x = y) :
    (if (key x < key y) = (false = true) then y else x) = (if key x ≤ key y then x else y) ∧
    (if (key x < key y) = (true = true) then y else x) = (if key x ≤ key y then y else x) := by
  rcases Int.lt_trichotomy (key x) (key y) with h | h | h
  · simp [h, h.le]
  · obtain rfl := hinj h
    simp
  · simp [not_lt.2 h.le, not_le.2 h]

theorem LaneTy.pickBy_int {t : LaneTy} (ht : t.isF = false) (hx : x < 2 ^ t.w) (hy : y < 2 ^ t.w) :
    t.pickBy false x y = (if t.toInt x ≤ t.toInt y then x else y) ∧
    t.pickBy true x y = (if t.toInt x ≤ t.toInt y then y else x) := by
  have h := pick_key (key := t.toInt) (t.toInt_inj hx hy).1
  cases t with
  | fl f => cases ht
  | _ => exact h

theorem LaneTy.toInt_pickBy {t : LaneTy} (ht : t.isF = false) (hx : x < 2 ^ t.w) (hy : y < 2 ^ t.w) :
    t.toInt (t.pickBy false x y) = min (t.toInt x) (t.toInt y) ∧ t.toInt (t.pickBy true x y) = max (t.toInt x) (t.toInt y) := by
  obtain ⟨hmin, hmax⟩ := LaneTy.pickBy_int ht hx hy
  rw [hmin, hmax, apply_ite t.toInt, apply_ite t.toInt]
  exact ⟨(min_def ..).symm, (max_def ..).symm⟩

theorem LaneTy.pickBy_fl {t : LaneTy} {f : Fmt} (ht : t = .fl f) (hx : x < 2 ^ t.w) (hy : y < 2 ^ t.w) :
    t.pickBy false x y = (if f.isNaN x ∨ f.isNaN y then f.qnan else if f.key x ≤ f.key y then x else y) ∧
    t.pickBy true x y = (if f.isNaN x ∨ f.isNaN y then f.qnan else if f.key x ≤ f.key y then y else x) := by
  subst ht
  obtain ⟨hmin, hmax⟩ := pick_key (key := f.key) (f.key_inj hx hy)
  rw [← hmin, ← hmax]
  exact ⟨rfl, rfl⟩

theorem LaneTy.pickBy_lt {t : LaneTy} {larger : Bool} (hx : x < 2 ^ t.w) (hy : y < 2 ^ t.w) : t.pickBy larger x y < 2 ^ t.w := by
  have hsel : ∀ p : Prop, ∀ [Decidable p], (if p then y else x) < 2 ^ t.w := by
    intro p _
    split
    · exact hy
    · exact hx
  cases t with
  | fl f =>
    simp only [LaneTy.pickBy]
    split
    · exact f.qnan_lt
    · exact hsel _
  | _ => exact hsel _

/-- VCLAMP of floating lanes is a NaN where an operand is one, and the clamp by magnitude keys elsewhere. -/
theorem LaneTy.clamp_fl {t : LaneTy} {f : Fmt} {z : Nat} (ht : t = .fl f) (hx : x < 2 ^ t.w) (hy : y < 2 ^ t.w) (hz : z < 2 ^ t.w) :
    t.pickBy false (t.pickBy true y x) z = if f.isNaN x ∨ f.isNaN y ∨ f.isNaN z then f.qnan
      else
        let lower := if f.key x ≤ f.key y then y else x
        if f.key lower ≤ f.key z then lower else z := by
  have hcomm : (if f.key y ≤ f.key x then x else y) = if f.key x ≤ f.key y then y else x := by
    subst ht
    rcases Int.lt_trichotomy (f.key x) (f.key y) with h | h | h
    · rw [if_neg (not_le.2 h), if_pos h.le]
    · rw [f.key_inj hx hy h]
    · rw [if_pos h.le, if_neg (not_le.2 h)]
  rw [(LaneTy.pickBy_fl ht (LaneTy.pickBy_lt hy hx) hz).1, (LaneTy.pickBy_fl ht hy hx).2, hcomm]
  by_cases hn : f.isNaN x = true ∨ f.isNaN y = true
  · have hn' : f.isNaN y = true ∨ f.isNaN x = true := hn.symm
    rw [if_pos hn', if_pos (.inl f.isNaN_qnan), if_pos (by rw [← or_assoc]; exact .inl hn)]
  · have hn' : ¬ (f.isNaN y = true ∨ f.isNaN x = true) := fun h => hn h.symm
    have hlower : f.isNaN (if f.key x ≤ f.key y then y else x) = false := by
      rw [not_or, Bool.not_eq_true, Bool.not_eq_true] at hn
      split
      · exact hn.2
      · exact hn.1
    simp only [if_neg hn', hlower, ← or_assoc, hn, Bool.false_eq_true, false_or]

end

/-- The test of a class V type on two lanes. -/
def LaneTy.test (t : LaneTy) (ff : Rl → Rl → Bool) (fi : Int → Int → Bool) (x y : Nat) : Bool :=
  match t with
  | .fl f => ff (f.value x) (f.value y)
  | t => fi (t.toInt x) (t.toInt y)

theorem LaneTy.test_int {t : LaneTy} (ht : t.isF = false) (ff : Rl → Rl → Bool) (fi : Int → Int → Bool) (x y : Nat) :
    t.test ff fi x y = fi (t.toInt x) (t.toInt y) := by
  cases t with
  | fl f => cases ht
  | _ => rfl

theorem LaneTy.test_fl {t : LaneTy} {f : Fmt} (ht : t = .fl f) (ff : Rl → Rl → Bool) (fi : Int → Int → Bool) (x y : Nat) :
    t.test ff fi x y = ff (f.value x) (f.value y) := by
  subst ht
  rfl

section
variable {ty : VTy} (v : VIn)

theorem vPick_holds (larger : Bool) : (vPick larger ty v).holds (laneTy ty).w
    (fun k => (laneTy ty).pickBy larger (v.one (laneTy ty).w k) (v.trig (laneTy ty).w k)) := by
  rw [vPick, VIn.zip3_eq, List.map_map]
  exact ofPlain_holds (fun k _ => LaneTy.pickBy_lt (laneOf_lt ..) (laneOf_lt ..))

theorem fnVclamp_holds : (fnVclamp ty v).holds (laneTy ty).w (fun k => (laneTy ty).pickBy false
    ((laneTy ty).pickBy true (v.trig (laneTy ty).w k) (v.one (laneTy ty).w k)) (v.two (laneTy ty).w k)) := by
  rw [fnVclamp, VIn.zip3_eq, List.map_map]
  exact ofPlain_holds (fun k _ => LaneTy.pickBy_lt (LaneTy.pickBy_lt (laneOf_lt ..) (laneOf_lt ..)) (laneOf_lt ..))

/-! ### Compares (R132) -/

/-- A lane-wise test: all ones or zero in .r, its bits in .q. -/
def VOut.tests (o : VOut) (w : Nat) (p : Nat → Prop) [DecidablePred p] : Prop :=
  o.holds w (fun k => if p k then 2 ^ w - 1 else 0) ∧
    ∃ q : Word, o.q = some (.sc q) ∧ ∀ k, k < 64 → q.getLsbD k = (k < 1024 / w && decide (p k))

theorem VOut.tests.congr {o : VOut} {w : Nat} {p r : Nat → Prop} [DecidablePred p] [DecidablePred r] (h : o.tests w p)
    (hpr : ∀ k, p k ↔ r k) : o.tests w r := by
  obtain ⟨hr, q, hq, hbits⟩ := h
  refine ⟨hr.congr (fun k _ => by simp only [hpr]), q, hq, fun k hk => ?_⟩
  rw [hbits k hk, decide_eq_decide.2 (hpr k)]

theorem vCompare_tests (ff : Rl → Rl → Bool) (fi : Int → Int → Bool) : (vCompare ff fi ty v).tests (laneTy ty).w
    (fun k => (laneTy ty).test ff fi (v.one (laneTy ty).w k) (v.trig (laneTy ty).w k) = true) := by
  have hres : (v.zip3 (laneTy ty).w).map (fun p => (laneTy ty).test ff fi p.1 p.2.1) = (List.range (1024 / (laneTy ty).w)).map
      (fun k => (laneTy ty).test ff fi (v.one (laneTy ty).w k) (v.trig (laneTy ty).w k)) := by
    rw [VIn.zip3_eq, List.map_map]
    rfl
  have hv : vCompare ff fi ty v =
      let res := (v.zip3 (laneTy ty).w).map (fun p => (laneTy ty).test ff fi p.1 p.2.1)
      { r := some (vecOf (laneTy ty).w (res.map (fun b => if b then 2 ^ (laneTy ty).w - 1 else 0))), q := some (.sc (bitsOf res)) } :=
    rfl
  rw [hv, hres]
  refine ⟨⟨rfl, rfl, _, rfl, fun k hk => ?_⟩, _, rfl, fun k hk => ?_⟩
  · rw [List.map_map, laneOf_vecOf _ _ hk]
    refine Nat.mod_eq_of_lt ?_
    have hpos := Nat.two_pow_pos (laneTy ty).w
    simp only [Function.comp_apply]
    split
    · exact Nat.sub_lt hpos Nat.one_pos
    · exact hpos
  · rw [bitsOf_getLsbD _ _ hk, Bool.decide_eq_true]

/-! ### Sign operations, products and shifts (R131, R133) -/

theorem fnVabs_int (h : vtyI ty = true) : (fnVabs ty v).holds (laneTy ty).w
    (fun k => patOf (laneTy ty).w |signedOf (laneTy ty).w (v.trig (laneTy ty).w k)|) := by
  obtain ⟨w, ht⟩ := laneTy_of_I h
  rw [fnVabs, VIn.bl_eq, List.map_map]
  simp only [ht]
  refine (ofPlain_holds (fun k _ => patOf_lt ..)).congr (fun k _ => ?_)
  exact congrArg (patOf w) (Int.abs_eq_natAbs _).symm

theorem fnVneg_int (h : vtyI ty = true) : (fnVneg ty v).holds (laneTy ty).w
    (fun k => patOf (laneTy ty).w (-(v.trig (laneTy ty).w k : Int))) := by
  obtain ⟨w, ht⟩ := laneTy_of_I h
  rw [fnVneg, VIn.bl_eq, List.map_map]
  simp only [ht]
  refine (ofPlain_holds (fun k _ => patOf_lt ..)).congr (fun k _ => ?_)
  exact patOf_congr (signedOf_modEq w (v.trig w k)).neg

theorem fnVabs_fl {f : Fmt} (h : laneTy ty = .fl f) : (fnVabs ty v).holds (laneTy ty).w (fun k =>
    if f.isNaN (v.trig (laneTy ty).w k) then f.qnan else v.trig (laneTy ty).w k % 2 ^ ((laneTy ty).w - 1)) := by
  rw [fnVabs, VIn.bl_eq, List.map_map]
  simp only [h]
  refine ofPlain_holds (fun k _ => ?_)
  simp only [Function.comp_apply]
  split
  · exact f.qnan_lt
  · exact Nat.lt_of_le_of_lt (Nat.mod_le ..) (laneOf_lt ..)

theorem fnVneg_fl {f : Fmt} (h : laneTy ty = .fl f) : (fnVneg ty v).holds (laneTy ty).w (fun k =>
    if f.isNaN (v.trig (laneTy ty).w k) then f.qnan
    else (v.trig (laneTy ty).w k + 2 ^ ((laneTy ty).w - 1)) % 2 ^ (laneTy ty).w) := by
  rw [fnVneg, VIn.bl_eq, List.map_map]
  simp only [h]
  refine ofPlain_holds (fun k _ => ?_)
  simp only [Function.comp_apply]
  split
  · exact f.qnan_lt
  · exact Nat.mod_lt _ (Nat.two_pow_pos _)

theorem fnVmulh_holds : (fnVmulh ty v).holds (laneTy ty).w (fun k => patOf (laneTy ty).w
    ((laneTy ty).toInt (v.one (laneTy ty).w k) * (laneTy ty).toInt (v.trig (laneTy ty).w k) / 2 ^ (laneTy ty).w)) := by
  rw [fnVmulh, VIn.zip3_eq, List.map_map]
  exact ofPlain_holds (fun k _ => patOf_lt ..)

theorem vShift_holds (f : LaneTy → Nat → Nat → Nat) : (vShift f ty v).holds (laneTy ty).w
    (fun k => f (laneTy ty) (v.one (laneTy ty).w k) (v.trig (laneTy ty).w k % (laneTy ty).w) % 2 ^ (laneTy ty).w) := by
  rw [vShift, VIn.zip3_eq, List.map_map]
  exact ofPlain_holds_mod ..

/-! ### Bitwise operations (R133) -/

@[simp] theorem laneOf_testBit (w x k i : Nat) : (laneOf w x k).testBit i = (decide (i < w) && x.testBit (w * k + i)) := by
  rw [laneOf, Nat.testBit_mod_two_pow, Nat.testBit_div_two_pow, Nat.add_comm]

theorem vBits_holds {f : Vec → Vec → Vec} {g : Nat → Nat → Nat}
    (hfg : ∀ (x y : Vec) (w k : Nat), laneOf w (f x y).toNat k = g (laneOf w x.toNat k) (laneOf w y.toNat k)) :
    (vBits f ty v).holds (laneTy ty).w (fun k => g (v.one (laneTy ty).w k) (v.trig (laneTy ty).w k)) :=
  ⟨rfl, rfl, _, rfl, fun _ _ => hfg ..⟩

theorem fnVand_holds : (fnVand ty v).holds (laneTy ty).w (fun k => v.one (laneTy ty).w k &&& v.trig (laneTy ty).w k) :=
  vBits_holds v (fun x y w k => Nat.eq_of_testBit_eq (fun i => by
    simp only [BitVec.toNat_and, laneOf_testBit, Nat.testBit_and]
    cases decide (i < w) <;> rfl))

theorem fnVor_holds : (fnVor ty v).holds (laneTy ty).w (fun k => v.one (laneTy ty).w k ||| v.trig (laneTy ty).w k) :=
  vBits_holds v (fun x y w k => Nat.eq_of_testBit_eq (fun i => by
    simp only [BitVec.toNat_or, laneOf_testBit, Nat.testBit_or]
    cases decide (i < w) <;> rfl))

theorem fnVxor_holds : (fnVxor ty v).holds (laneTy ty).w (fun k => v.one (laneTy ty).w k ^^^ v.trig (laneTy ty).w k) :=
  vBits_holds v (fun x y w k => Nat.eq_of_testBit_eq (fun i => by
    simp only [BitVec.toNat_xor, laneOf_testBit, Nat.testBit_xor]
    cases decide (i < w) <;> rfl))

/-! ### Lanes that are moved, counted or looked up (R134, R135, R141) -/

theorem fnVsel_holds : (fnVsel ty v).holds (laneTy ty).w
    (fun k => if v.o3.getLsbD k then v.one (laneTy ty).w k else v.trig (laneTy ty).w k) := by
  rw [fnVsel, VIn.zip3_eq, zipIdx_map_range, List.map_map]
  refine ofPlain_holds (fun k _ => ?_)
  simp only [Function.comp_apply]
  split
  · exact laneOf_lt ..
  · exact laneOf_lt ..

theorem fnVbcast_holds : (fnVbcast ty v).holds (laneTy ty).w
    (fun _ => v.one (laneTy ty).w (v.b.word.toNat % 64 % (1024 / (laneTy ty).w))) := by
  have hlist : fnVbcast ty v = ofPlain (laneTy ty).w ((List.range (1024 / (laneTy ty).w)).map
      (fun _ => v.one (laneTy ty).w (v.b.word.toNat % 64 % (1024 / (laneTy ty).w)))) := by
    rw [List.map_const', List.length_range]
    rfl
  rw [hlist]
  exact ofPlain_holds (fun k _ => laneOf_lt ..)

theorem fnVperm_holds : (fnVperm ty v).holds (laneTy ty).w (fun k =>
    let d := v.trig (laneTy ty).w k % (2 * (1024 / (laneTy ty).w))
    if d < 1024 / (laneTy ty).w then v.one (laneTy ty).w d else v.two (laneTy ty).w (d - 1024 / (laneTy ty).w)) := by
  rw [fnVperm, VIn.bl_eq, List.map_map]
  refine ofPlain_holds (fun k _ => ?_)
  simp only [Function.comp_apply]
  split
  · exact laneOf_lt ..
  · exact laneOf_lt ..

theorem fnVcntm_q : (fnVcntm ty v).q = some (.sc (BitVec.ofNat 64 ((List.range (1024 / (laneTy ty).w)).filter
    (fun k => v.o3.getLsbD k && v.trig (laneTy ty).w k != 0)).length)) := by
  rw [fnVcntm, VIn.bl_eq, zipIdx_map_range, List.filter_map, List.length_map]
  rfl

theorem fnVtbl_rounds {f : Fmt} (h : laneTy ty = .fl f) : (fnVtbl ty v).rounds (laneTy ty).w (fun k =>
    let e := v.kr.tag.fmt.value (v.kr.entry (v.trig (laneTy ty).w k % 256))
    if v.kr.n ≤ v.trig (laneTy ty).w k % 256 then ⟨0, 0x40, false⟩
    else if v.kr.tag.fmt = f ∨ f = .f32 then ⟨(roundTo f e .rne).pat, 0, false⟩
    else roundLane f v.fpc e [e]) := by
  have hexact : ∀ a b : Fmt, exactDecode a b = true ↔ a = b ∨ b = .f32 := by simp [exactDecode]
  simp only [fnVtbl, h, VIn.bl_eq, List.map_map, ← hexact]
  refine ofLanes_rounds (fun k => ?_)
  simp only [Function.comp_apply]
  split
  · exact Nat.two_pow_pos _
  · split
    · exact roundTo_pat_lt ..
    · exact roundLane_pat_lt ..

/-! ### VDOT2 (R140) -/

theorem fnVdot2_holds : (fnVdot2 .i16 v).holds 32 (fun k => patOf 32
    (signedOf 16 (v.one 16 (2 * k)) * signedOf 16 (v.trig 16 (2 * k)) +
      signedOf 16 (v.one 16 (2 * k + 1)) * signedOf 16 (v.trig 16 (2 * k + 1)) + signedOf 32 (v.two 32 k))) :=
  ofLanes_holds (fun _ => patOf_lt ..)

theorem fnVdot2_rounds {f : Fmt} (h : laneTy ty = .fl f) : (fnVdot2 ty v).rounds 32 (fun k =>
    let a := f.value (v.one 16 (2 * k))
    let b := f.value (v.trig 16 (2 * k))
    let c := f.value (v.one 16 (2 * k + 1))
    let d := f.value (v.trig 16 (2 * k + 1))
    let z := Fmt.f32.value (v.two 32 k)
    roundLane .f32 v.fpc (((a.mul b).add (isRdn v.fpc) (c.mul d)).add (isRdn v.fpc) z) [a, b, c, d, z]) := by
  rw [fnVdot2]
  simp only [h]
  exact ofLanes_rounds (w := 32) (fun _ => roundLane_pat_lt .f32 ..)

end

/-! ### The groups -/

section
variable {ty : VTy} (v : VIn)

/-- VCLAMP of integers: the larger of the trigger lane and .o1's, then the smaller of that and .o2's. -/
theorem fnVclamp_int (h : vtyF ty = false) : (fnVclamp ty v).holds (laneTy ty).w (fun k => patOf (laneTy ty).w
    (min (max ((laneTy ty).toInt (v.trig (laneTy ty).w k)) ((laneTy ty).toInt (v.one (laneTy ty).w k)))
      ((laneTy ty).toInt (v.two (laneTy ty).w k)))) := by
  refine (fnVclamp_holds v).congr (fun k _ => ?_)
  have hmax := LaneTy.pickBy_lt (larger := true) (laneOf_lt (laneTy ty).w (v.b.lanes (laneTy ty).w).toNat k)
    (laneOf_lt (laneTy ty).w (v.o1.lanes (laneTy ty).w).toNat k)
  have hmin := LaneTy.pickBy_lt (larger := false) hmax (laneOf_lt (laneTy ty).w (v.o2.lanes (laneTy ty).w).toNat k)
  refine ((laneTy ty).patOf_toInt hmin).symm.trans (congrArg (patOf (laneTy ty).w) ?_)
  rw [(LaneTy.toInt_pickBy (isF_of_not_F h) hmax (laneOf_lt ..)).1,
    (LaneTy.toInt_pickBy (isF_of_not_F h) (laneOf_lt ..) (laneOf_lt ..)).2]
  rfl

/-- A test of integers. -/
theorem vCompare_int (ff : Rl → Rl → Bool) (fi : Int → Int → Bool) (h : vtyF ty = false) : (vCompare ff fi ty v).tests (laneTy ty).w
    (fun k => fi ((laneTy ty).toInt (v.one (laneTy ty).w k)) ((laneTy ty).toInt (v.trig (laneTy ty).w k)) = true) :=
  (vCompare_tests v ff fi).congr (fun k => by rw [LaneTy.test_int (isF_of_not_F h)])

/-- A test of reals. -/
theorem vCompare_fl (ff : Rl → Rl → Bool) (fi : Int → Int → Bool) {f : Fmt} (h : laneTy ty = .fl f) :
    (vCompare ff fi ty v).tests (laneTy ty).w
      (fun k => ff (f.value (v.one (laneTy ty).w k)) (f.value (v.trig (laneTy ty).w k)) = true) :=
  (vCompare_tests v ff fi).congr (fun k => by rw [LaneTy.test_fl h])

end

/-- Settles O18, group by group of the types, and RoundTo case by case. -/
theorem vectorLanes : Obligations.VectorLanes := by
  refine ⟨fun ty v => ⟨fun h => ?_, fun h => ?_, fnVsel_holds v, fnVbcast_holds v, fnVperm_holds v, fun f h => ?_, fun hty => ⟨?_, ?_⟩⟩,
    fun f fpc x ops => roundLane_eq f fpc x ops, roundTo_roundsAs, fun f m n e => ?_, fun rdn n m q r e d => ?_⟩
  · have hx : ∀ k, (laneTy ty).toInt (v.one (laneTy ty).w k) ≡ v.one (laneTy ty).w k [ZMOD 2 ^ (laneTy ty).w] :=
      fun k => LaneTy.toInt_modEq ..
    have hy : ∀ k, (laneTy ty).toInt (v.trig (laneTy ty).w k) ≡ v.trig (laneTy ty).w k [ZMOD 2 ^ (laneTy ty).w] :=
      fun k => LaneTy.toInt_modEq ..
    have hz : ∀ k, (laneTy ty).toInt (v.two (laneTy ty).w k) ≡ v.two (laneTy ty).w k [ZMOD 2 ^ (laneTy ty).w] :=
      fun k => LaneTy.toInt_modEq ..
    refine ⟨(vArith_holds v h).congr (fun k _ => patOf_congr ((hx k).add (hy k))),
      (vArith_holds v h).congr (fun k _ => patOf_congr ((hx k).sub (hy k))),
      (vArith_holds v h).congr (fun k _ => patOf_congr ((hx k).mul (hy k))),
      (vArith_holds v h).congr (fun k _ => patOf_congr (((hx k).mul (hy k)).add (hz k))),
      (vArith_holds v h).congr (fun k _ => patOf_congr (((hx k).mul (hy k)).sub (hz k))),
      (vArith_holds v h).congr (fun k _ => patOf_congr (((hx k).mul (hy k)).neg.add (hz k))),
      (vPick_holds v false).congr (fun k _ => (LaneTy.pickBy_int (isF_of_not_F h) (laneOf_lt ..) (laneOf_lt ..)).1),
      (vPick_holds v true).congr (fun k _ => (LaneTy.pickBy_int (isF_of_not_F h) (laneOf_lt ..) (laneOf_lt ..)).2),
      fnVclamp_int v h, fnVmulh_holds v, fnVand_holds v, fnVor_holds v, fnVxor_holds v, ?_, ?_, ?_, ?_, ?_⟩
    · refine (vShift_holds v _).congr (fun k _ => ?_)
      rw [← patOf_natCast_mod]
      push_cast
      rfl
    · exact (vShift_holds v _).congr (fun k _ => Nat.mod_eq_of_lt (Nat.lt_of_le_of_lt (Nat.div_le_self ..) (laneOf_lt ..)))
    · exact (vCompare_int v _ _ h).congr (fun k => beq_iff_eq.trans ((laneTy ty).toInt_inj (laneOf_lt ..) (laneOf_lt ..)))
    · exact (vCompare_int v _ _ h).congr (fun k => decide_eq_true_iff)
    · exact (vCompare_int v _ _ h).congr (fun k => decide_eq_true_iff)
  · refine ⟨?_, fnVneg_int v h, fnVabs_int v h, rfl, rfl, fnVcntm_q v⟩
    exact (vShift_holds v _).congr (fun k _ => Nat.mod_eq_of_lt (patOf_lt ..))
  · refine ⟨vArith_rounds v h, vArith_rounds v h, vArith_rounds v h, vArith_rounds v h, vArith_rounds v h, vArith_rounds v h,
      (vPick_holds v false).congr (fun k _ => (LaneTy.pickBy_fl h (laneOf_lt ..) (laneOf_lt ..)).1),
      (vPick_holds v true).congr (fun k _ => (LaneTy.pickBy_fl h (laneOf_lt ..) (laneOf_lt ..)).2),
      (fnVclamp_holds v).congr (fun k _ => LaneTy.clamp_fl h (laneOf_lt ..) (laneOf_lt ..) (laneOf_lt ..)),
      (fnVabs_fl v h).congr (fun k _ => ?_), (fnVneg_fl v h).congr (fun k _ => ?_), vCompare_fl v _ _ h, vCompare_fl v _ _ h,
      vCompare_fl v _ _ h, vCompare_fl v _ _ h, fnVtbl_rounds v h⟩
    · simp only [or_self]
      rfl
    · simp only [or_self]
      rfl
  · rintro rfl
    exact fnVdot2_holds v
  · exact fun f h => fnVdot2_rounds v h
  · exact ⟨roundTo_zero f m n e, rfl, fun hf => roundTo_inf hf m n, by cases m <;> exact ⟨overflow_finite .., roundTo_inf_e4m3 ..⟩⟩
  · exact ⟨add_real rdn n m q r e d, rfl, lt_real n m q r e d, fun hq hr => div_roundsAs n m e d hq hr⟩

end Sys2Proof.Machine
end
